-- ==== Sys2Proof/Word.lean ====
section
/-! DEFINITION. The words of the Pleron module: the bit-vector widths the manual uses, and the one
representation of sparse data keyed by a number. -/

namespace Sys2Proof

/-- A thread or uniform register (02 R42, 03 R70): 32 bits. -/
abbrev Word := BitVec 32

/-- One byte. -/
abbrev Byte := BitVec 8

/-- A 64-bit register of the local address map, an effective address or a register pair (R71). -/
abbrev D64 := BitVec 64

/-- The 128 bytes of one cache line (08 R227); byte `i` is bits `[8i+7:8i]`. -/
abbrev Line := BitVec 1024

/-- One bit per byte of a line. -/
abbrev LMask := BitVec 128

/-- One group register: a 32-bit value for each of the 32 lanes (02, Register file and occupancy). -/
abbrev Row := List Word

/-- Sparse data: strictly rising keys, no entry equal to what an unlisted key reads as.
The operations that keep the form are `mapGet` and `mapPut` of `Machine/Ops.lean`. -/
abbrev SMap (α : Type) := List (Nat × α)

end Sys2Proof
end

