-- ==== Sys2Proof/Syntax.lean ====
section
/-! DEFINITION. The commands of the block: one constructor of `Instr` for every row of the opcode
table, with the row's operands. A core instruction is the issue of that instruction for the active
set of one thread group; its operands are the fields of its format (03 Tables 3.2 to 3.7), bits
[55:0] of its word, and for format L the second word. -/

namespace Sys2Proof

/-- The group slot of a core at which an instruction issues (02 R40, R53). -/
structure At where
  core : BitVec 11
  slot : BitVec 5
deriving DecidableEq, Repr

/-- Format R (03 Table 3.2). -/
structure FmtR where
  guard : BitVec 5
  d     : Byte
  a     : Byte
  b     : Byte
  c     : Byte
  bsel  : BitVec 2
  func  : BitVec 9
  mod   : Byte
deriving DecidableEq, Repr

/-- Format I (03 Table 3.3). -/
structure FmtI where
  guard : BitVec 5
  d     : Byte
  a     : Byte
  imm   : Word
  func3 : BitVec 3
deriving DecidableEq, Repr

/-- Format M (03 Table 3.4). -/
structure FmtM where
  guard : BitVec 5
  d     : Byte
  a     : Byte
  ub    : BitVec 6
  ube   : BitVec 1
  size  : BitVec 3
  hint  : BitVec 4
  off   : BitVec 21
deriving DecidableEq, Repr

/-- Format A (03 Table 3.5). -/
structure FmtA where
  guard : BitVec 5
  d     : Byte
  a     : Byte
  b     : Byte
  c     : Byte
  ty    : BitVec 3
  ord   : BitVec 2
  off   : BitVec 14
deriving DecidableEq, Repr

/-- Format B (03 Table 3.6). -/
structure FmtB where
  guard : BitVec 5
  l     : Byte
  off   : BitVec 43
deriving DecidableEq, Repr

/-- Format L (03 Table 3.7): the word at PC and the immediate word behind it. -/
structure FmtL where
  guard : BitVec 5
  d     : Byte
  rsv   : BitVec 43
  imm   : D64
deriving DecidableEq, Repr

/-- One access to a core's scratchpad window (07 R219): a read of `len` bytes, or a write of `data`,
from offset `off`. -/
structure WinAccess where
  write : Bool
  off   : BitVec 19
  len   : Nat
  data  : List Byte
deriving DecidableEq, Repr

/-- Whose translations a TLB fill enters: a core's TLB or the base translation cache (09 R269). -/
inductive TlbUser where
  | core (n : BitVec 11)
  | base
deriving DecidableEq, Repr

/-- What the scrubber reads next (09 R287): a way of a cache set, or a unit of external memory. -/
inductive ScrubTarget where
  | cache
  | memory
deriving DecidableEq, Repr

/-- The accesses of 10 Table 10.2; `line` is every access of one cycle. -/
inductive BankKind where
  | line
  | fullWrite
  | merged
  | move
  | intAtomic
  | fpAtomic (lanes : BitVec 6)
deriving DecidableEq, Repr

/-- A request that arrives at a bank port `delay` cache cycles from now (10 R302): its requester, 0 to
5, its class, its access, and the number of the request it performs (0 for none). -/
structure BankReq where
  delay : Nat
  who   : BitVec 3
  cls   : BitVec 3
  kind  : BankKind
  req   : Nat
deriving DecidableEq, Repr

/-- A fabric message: its header slot (11 Table 11.5) and its data. -/
structure Msg where
  typ    : BitVec 4
  op     : BitVec 4
  dst    : BitVec 17
  src    : BitVec 17
  ttl    : BitVec 17
  status : BitVec 4
  len    : BitVec 10
  seq    : BitVec 32
  tag    : BitVec 16
  addr   : BitVec 47
  rtag   : BitVec 32
  chunk  : BitVec 32
  fence  : Bool
  abort  : Bool
  result : Bool
  opened : Bool
  lane   : Bool
  noId   : Bool
  data   : List Byte
deriving DecidableEq, Repr

/-- A flit as a port receives it (11 R322, R323): its link header, whether it overlaps an
uncorrectable codeword, `ues` how many such codewords no flit before it overlapped (a flit of 2,048 bits touches at
most two), whether its tag verifies under its epoch's key, and the messages whose last slot it carries, up to a
header of TYPE 15, which marks padding. -/
structure Flit where
  ftype    : BitVec 4
  epoch    : BitVec 2
  ackValid : Bool
  seq      : BitVec 16
  ack      : BitVec 16
  credLane : BitVec 3
  cred     : BitVec 12
  nonce    : BitVec 48
  fecUe    : Bool
  ues      : BitVec 2
  tagOk    : Bool
  msgs     : List Msg
deriving DecidableEq, Repr

/-- The UDP checksum of a received frame: right, wrong, or 0 (12 R363). -/
inductive Checksum where
  | right | wrong | zero
deriving DecidableEq, Repr

/-- What the Ethernet header of a received frame carries (12 R359, R363): an EtherType of its own, UDP over IPv4 or
IPv6 with its destination address and port, whether the IP header is the plain one of 20 B or 40 B, and the
checksum; an ARP request or a neighbour solicitation for an address; anything else. -/
inductive Carried where
  | raw (ethertype : BitVec 16)
  | udp4 (dst : Word) (port : BitVec 16) (plain : Bool) (sum : Checksum)
  | udp6 (dst : BitVec 128) (port : BitVec 16) (plain : Bool) (sum : Checksum)
  | arp (target : Word)
  | solicit (target : BitVec 128)
  | other
deriving DecidableEq, Repr

/-- A frame as a host port receives it (12 R359, R363 to R365): whether its FCS is right, whether its destination is
the port's own MAC address, the VLAN identifiers of its tags, what it carries, its Spaolo header (Table 12.7), the
bytes of payload received, the frame's size in the receive buffer, and whether the GCM tag verifies under the
rebuilt counter. `source` stands for the MAC and IP address and UDP port the frame came from. -/
structure Frame where
  fcs     : Bool
  mac     : Bool
  vlans   : List (BitVec 12)
  carried : Carried
  header  : BitVec 256
  payload : Nat
  bytes   : Nat
  tagOk   : Bool
  source  : Nat
deriving DecidableEq, Repr

/-- SESSION step 1 with the VERSION of its header (12 Table 12.8): host nonce, ML-KEM-1024 encapsulation key of
1,568 B, KEY_ID and IDLE_S. -/
structure Hello where
  version : Byte
  nonce   : BitVec 256
  encaps  : BitVec 12544
  keyId   : BitVec 512
  idleS   : BitVec 16
  source  : Nat
deriving DecidableEq, Repr

/-- SESSION step 3 (12 Table 12.8): the host's public key of 2,592 B with its digest, whether the signature over T2
verifies, and where the frames came from (R366). -/
structure Finish where
  handshake : Nat
  pubKey    : BitVec 20736
  digest    : BitVec 512
  sigOk     : Bool
  source    : Nat
deriving DecidableEq, Repr

/-- Where a command came from (12 R373): a frame in a host mailbox, or a manager's MSG in FMB0
(12 R376) with the manager's own number of the fan-out. -/
inductive Origin where
  | host (session : BitVec 16) (mailbox : BitVec 6)
  | fabric (manager : BitVec 17) (fan : Word)
deriving DecidableEq, Repr

/-- The header of an SCI command (12 Tables 12.7 and 12.9); `reserved` says that its reserved fields
are 0, `body` holds the payload behind the SCI header as sent. -/
structure SciReq where
  origin   : Origin
  seq      : D64
  tag      : D64
  target   : Byte
  fence    : Bool
  reserved : Bool
  count    : BitVec 16
  targetId : Word
  body     : List Byte
deriving DecidableEq, Repr

/-- The launch descriptor (12 Table 12.13). -/
structure Launch where
  module    : Word
  entry     : Word
  queue     : BitVec 16
  lflags    : BitVec 16
  regs      : Byte
  ftzExp    : Byte
  rsv       : Bool
  coreFirst : BitVec 16
  coreCount : BitVec 16
  threads   : Word
  banks     : BitVec 16
  resident  : BitVec 16
  keep      : BitVec 16
  owner     : Word
  gate      : BitVec 16
  done      : BitVec 16
  gateVal   : D64
  tag       : D64
  args      : List Word
deriving DecidableEq, Repr

/-- The fields of TREE after its action (12 Table 12.12). -/
structure TreeArgs where
  auto       : Byte
  context    : BitVec 16
  startSig   : BitVec 16
  doneSig    : BitVec 16
  startValue : D64
deriving DecidableEq, Repr

/-- A firmware image header (16 Table 16.6) and whether the body's digest, the signature and, after a
write, the read-back pass (16 R489, R491). -/
structure ImageInfo where
  magic     : Word
  component : Byte
  rollback  : Byte
  version   : D64
  bodyLen   : Word
  reserved  : Bool
  digestOk  : Bool
  sigOk     : Bool
  readBack  : Bool
deriving DecidableEq, Repr

/-- The messages of the management link (13 R396): MCTP control that assigns an address, and Kwamaith's
messages of type 0x7F that the spec gives an effect. -/
inductive MgmtMsg where
  | assignAddress (address : BitVec 7)
  | readEvent
  | readFlashLog
  | readRegister (address : BitVec 47)
  | writeRegister (address : BitVec 47) (value : D64)
  | moduleReset
deriving DecidableEq, Repr

/-- What one sensor's converter gives: a reading in 1/16 °C, or an open or shorted diode (14 R437,
Table 14.7). -/
inductive Reading where
  | value (v : Int)
  | openDiode
  | shortDiode
deriving DecidableEq, Repr

/-- The values Sorrel takes from outside in one sample period (14 R425, R426): readings by sensor
index (a sensor that is not listed reads as before), coolant inlet, P54 and P12SB in mV, P54's current
in mA, and the lowest lane receive power of the ten ports. -/
structure Sample where
  temps   : List (Nat × Reading)
  coolant : Int
  p54Mv   : Nat
  p12Mv   : Nat
  p54Ma   : Nat
  optical : List Int
deriving DecidableEq, Repr

/-- The configuration registers of a check-value unit (15 R468). -/
inductive CvuReg where
  | filter
  | poly
  | xorOut
  | value
  | bytes
deriving DecidableEq, Repr

/-- A frame, message or descriptor on a stream (15 Table 15.8): the stream, the fields the filter and
the header check look at, and the bytes. -/
structure CvuBlock where
  attach  : BitVec 4
  index   : BitVec 6
  typ     : BitVec 4
  peer    : BitVec 17
  session : BitVec 16
  mailbox : BitVec 6
  counter : Word
  data    : List Byte
deriving DecidableEq, Repr

/-- What the boot ROM finds at step 2 (16 R473): bit 2c + s says that slot s of component c verifies. -/
structure BootVerify where
  pass : BitVec 4
deriving DecidableEq, Repr

/-- Outcomes of the training of step 4 (16 R475): channels, core ports and down-channels that fail. -/
structure Training where
  channels : Word
  cores    : List (BitVec 11)
  downs    : List (BitVec 7)
deriving DecidableEq, Repr

/-- Outcomes of the checker self-test of step 5 (15 R458): cache banks whose checker fails, and whether
the checkers of the page map and of the base die buffers pass. -/
structure CheckerResults where
  banks   : List (BitVec 11 × BitVec 5)
  pageMap : Bool
  buffers : Bool
deriving DecidableEq, Repr

/-- A debug token (16 R498). -/
structure Token where
  fusedId : D64
  scope   : BitVec 3
  nonce   : BitVec 256
  sigOk   : Bool
deriving DecidableEq, Repr

/-! ## The commands, in the order of spec/opcode_table.json -/

/-- A command of the block: one constructor per row of the opcode table. -/
inductive Instr where
  /-- Integer add of a and b per lane, wrapping or saturating by TYPE. -/
  | iadd (x : At) (f : FmtR)
  /-- Integer subtract of b from a per lane, wrapping or saturating by TYPE. -/
  | isub (x : At) (f : FmtR)
  /-- Low bits of the integer product of a and b per lane. -/
  | imul (x : At) (f : FmtR)
  /-- High 32 bits of the 64-bit product of a and b per lane. -/
  | imulhi (x : At) (f : FmtR)
  /-- Low bits of a times b plus c per lane. -/
  | imad (x : At) (f : FmtR)
  /-- Signed or unsigned minimum of a and b per lane. -/
  | imin (x : At) (f : FmtR)
  /-- Signed or unsigned maximum of a and b per lane. -/
  | imax (x : At) (f : FmtR)
  /-- Absolute value of a per lane, with the most negative value mapping to itself or saturating. -/
  | iabs (x : At) (f : FmtR)
  /-- Bitwise select between two truth-table functions of a and b by the bits of c. -/
  | lmux (x : At) (f : FmtR)
  /-- Shift a left by b modulo the width. -/
  | shl (x : At) (f : FmtR)
  /-- Logical or arithmetic right shift of a by b modulo the width. -/
  | shr (x : At) (f : FmtR)
  /-- Extract a bit field of a, zero- or sign-extended. -/
  | bfe (x : At) (f : FmtR)
  /-- Insert the low bits of a into c at a bit field position. -/
  | bfi (x : At) (f : FmtR)
  /-- Count the 1 bits of a per lane. -/
  | popc (x : At) (f : FmtR)
  /-- Count the leading zeros of a per lane. -/
  | clz (x : At) (f : FmtR)
  /-- Reverse the bit order of a per lane. -/
  | brev (x : At) (f : FmtR)
  /-- Integer compare of a and b combined with a predicate into a destination predicate. -/
  | ipred (x : At) (f : FmtR)
  /-- Select a or b per lane by a predicate. -/
  | sel (x : At) (f : FmtR)
  /-- Copy b into d per lane. -/
  | mov (x : At) (f : FmtR)
  /-- Add a sign-extended 32-bit immediate to a. -/
  | iaddi (x : At) (f : FmtI)
  /-- Load a 32-bit immediate into d. -/
  | movi (x : At) (f : FmtI)
  /-- Load a 64-bit immediate into a register pair. -/
  | movl (x : At) (f : FmtL)
  /-- Read register a of another lane chosen by index, up, down or xor mode. -/
  | shfl (x : At) (f : FmtR)
  /-- Read a system value: lane, group slot, core ID or core cycle counter. -/
  | rdsys (x : At) (f : FmtR)
  /-- IEEE FP32 or packed 16-bit addition per lane. -/
  | fadd (x : At) (f : FmtR)
  /-- IEEE FP32 or packed 16-bit multiplication per lane. -/
  | fmul (x : At) (f : FmtR)
  /-- Fused multiply-add rounded once per lane. -/
  | ffma (x : At) (f : FmtR)
  /-- Floating-point minimum with NaN and signed-zero rules. -/
  | fmin (x : At) (f : FmtR)
  /-- Floating-point maximum with NaN and signed-zero rules. -/
  | fmax (x : At) (f : FmtR)
  /-- Floating-point compare combined with a predicate into a destination predicate. -/
  | fpred (x : At) (f : FmtR)
  /-- Fixed-function reciprocal estimate with relative error at most 2^-12. -/
  | frcpSeed (x : At) (f : FmtR)
  /-- Fixed-function reciprocal square root estimate with relative error at most 2^-12. -/
  | frsqSeed (x : At) (f : FmtR)
  /-- Convert FP32 to an integer type under a rounding code, saturating, NaN to 0. -/
  | f2i (x : At) (f : FmtR)
  /-- Convert an integer to FP32 under a rounding code. -/
  | i2f (x : At) (f : FmtR)
  /-- Narrowing or widening conversion between FP32 and a 16-bit or 8-bit float format. -/
  | f2f (x : At) (f : FmtR)
  /-- Convert two FP32 values to a packed F16x2 or BF16x2 word. -/
  | pack (x : At) (f : FmtR)
  /-- Convert one half of a packed 16-bit pair to FP32. -/
  | unpack (x : At) (f : FmtR)
  /-- Truth-table select between two functions of predicates. -/
  | plmux (x : At) (f : FmtR)
  /-- ANY, ALL or BALLOT of a predicate over the voting lanes. -/
  | vote (x : At) (f : FmtR)
  /-- Pack predicates P0 to P7 into a register. -/
  | ppack (x : At) (f : FmtR)
  /-- Unpack a register's low byte into predicates P0 to P7. -/
  | punpack (x : At) (f : FmtR)
  /-- Accumulate four byte products into an INT32. -/
  | dot4I8 (x : At) (f : FmtR)
  /-- Accumulate eight nibble products into an INT32. -/
  | dot8I4 (x : At) (f : FmtR)
  /-- Accumulate two FP16 products into FP32 with one rounding. -/
  | dot2F16 (x : At) (f : FmtR)
  /-- Accumulate two BF16 products into FP32 with one rounding. -/
  | dot2Bf16 (x : At) (f : FmtR)
  /-- Accumulate four FP8 products into FP32 with one rounding. -/
  | dot4F8 (x : At) (f : FmtR)
  /-- Accumulate eight E2M1 products into FP32 with one rounding. -/
  | dot8F4 (x : At) (f : FmtR)
  /-- Relative branch for lanes whose guard is true. -/
  | bra (x : At) (f : FmtB)
  /-- Indirect branch to the address in a register pair. -/
  | brx (x : At) (f : FmtB)
  /-- Relative call saving the return address in a register pair. -/
  | call (x : At) (f : FmtB)
  /-- Indirect call through a register pair. -/
  | callx (x : At) (f : FmtB)
  /-- Set the yield bit of the active threads and advance their PCs. -/
  | yield (x : At) (f : FmtR)
  /-- Park the guarded lanes at a group barrier. -/
  | barGrp (x : At) (f : FmtR)
  /-- Park the guarded lanes at core barrier b of the task. -/
  | barCore (x : At) (f : FmtI)
  /-- Guarded lanes become EXITED and count as arrived at barriers. -/
  | exit (x : At) (f : FmtR)
  /-- Guarded lanes take FAULT_TRAP with a 16-bit code. -/
  | trap (x : At) (f : FmtI)
  /-- No effect beyond advancing the PC. -/
  | nop (x : At) (f : FmtR)
  /-- 32-bit uniform register arithmetic, logic or shift. -/
  | ualu (x : At) (f : FmtR)
  /-- Load a 32-bit immediate into a uniform register. -/
  | umovi (x : At) (f : FmtI)
  /-- Load a 64-bit immediate into a uniform pair. -/
  | umovl (x : At) (f : FmtL)
  /-- Copy a thread register of the lowest active lane into a uniform register. -/
  | urdl (x : At) (f : FmtR)
  /-- Load from device memory through L1 under the LD hint. -/
  | ld (x : At) (f : FmtM)
  /-- Load that removes the line from L1 and sends a dead mark to its home. -/
  | ldLast (x : At) (f : FmtM)
  /-- Write-through store entering the write-combining buffer. -/
  | st (x : At) (f : FmtM)
  /-- Load through the constant cache. -/
  | ldc (x : At) (f : FmtM)
  /-- Load through the descriptor cache. -/
  | ldd (x : At) (f : FmtM)
  /-- Range operation fetching lines into their homes. -/
  | cachePref (x : At) (f : FmtM)
  /-- Range operation sending dead marks for whole lines. -/
  | cacheDead (x : At) (f : FmtM)
  /-- Range operation pinning lines at their homes and reporting status. -/
  | cachePin (x : At) (f : FmtM)
  /-- Range operation clearing the pins of lines. -/
  | cacheUnpin (x : At) (f : FmtM)
  /-- Lane load from the core's scratchpad. -/
  | spxLd (x : At) (f : FmtM)
  /-- Lane store to the core's scratchpad. -/
  | spxSt (x : At) (f : FmtM)
  /-- Queue a tile mover fill of a scratchpad range with a pattern. -/
  | spxFill (x : At) (f : FmtR)
  /-- Queue a tile mover copy within the scratchpad. -/
  | spxCopy (x : At) (f : FmtR)
  /-- Move scratchpad banks to another port, changing queued owners at issue. -/
  | spxHandover (x : At) (f : FmtR)
  /-- Hold the group until its earlier fills and copies complete. -/
  | spxWait (x : At) (f : FmtR)
  /-- Hold the group for earlier loads and atomics, then invalidate L1. -/
  | fenceAcq (x : At) (f : FmtR)
  /-- Hold the group until earlier stores and atomics are acknowledged. -/
  | fenceRel (x : At) (f : FmtR)
  /-- Release and acquire fence together. -/
  | fenceSc (x : At) (f : FmtR)
  /-- Wait for earlier stores, then invalidate the instruction cache. -/
  | fenceI (x : At) (f : FmtR)
  /-- Wait for earlier stores, then invalidate the constant and descriptor caches. -/
  | fenceRo (x : At) (f : FmtR)
  /-- Atomic add at the home, combined across lanes in lane order. -/
  | atomAdd (x : At) (f : FmtA)
  /-- Atomic minimum at the home. -/
  | atomMin (x : At) (f : FmtA)
  /-- Atomic maximum at the home. -/
  | atomMax (x : At) (f : FmtA)
  /-- Atomic AND at the home. -/
  | atomAnd (x : At) (f : FmtA)
  /-- Atomic OR at the home. -/
  | atomOr (x : At) (f : FmtA)
  /-- Atomic XOR at the home. -/
  | atomXor (x : At) (f : FmtA)
  /-- Atomic exchange at the home, serialised in lane order. -/
  | atomExch (x : At) (f : FmtA)
  /-- Atomic compare-and-swap at the home, serialised in lane order. -/
  | atomCas (x : At) (f : FmtA)
  /-- Data of an outstanding load returns and its destination registers stop being pending. -/
  | loadDataReturn (core : BitVec 11) (id : Nat)
  /-- The old value of an atomic returns to register d. -/
  | atomicReturn (core : BitVec 11) (id : Nat)
  /-- A home acknowledges a store or atomic and it leaves the write-combining buffer. -/
  | storeAcknowledge (core : BitVec 11) (id : Nat)
  /-- A fence's wait ends, its invalidation runs and its group is released. -/
  | fenceDrained (x : At)
  /-- A group's barrier stall count reaches BAR_LIMIT and it faults. -/
  | faultBarrierStall (x : At)
  /-- A write of the barrier stall limit, faulting groups already at or above it. -/
  | coreBarLimitWrite (core : BitVec 11) (v : BitVec 64)
  /-- The dispatcher starts a task on a core, waking or initialising its banks and invalidating caches. -/
  | taskStart (core : BitVec 11) (queue : BitVec 12) (item : Nat)
  /-- A group of a task is admitted to a free slot and register range with its initial state. -/
  | groupAdmit (core : BitVec 11) (pos : Bool)
  /-- After the last thread exits and writes are acknowledged, the task reports completion and its banks retain or turn off. -/
  | taskRelease (core : BitVec 11) (pos : Bool)
  /-- Queue a load of weight panels into stage banks. -/
  | mxWld (x : At) (f : FmtR)
  /-- Queue a load of activation block scales into the FSB. -/
  | mxSld (x : At) (f : FmtR)
  /-- Queue a stream of activation slices through the arrays into a tile. -/
  | mxMma (x : At) (f : FmtR)
  /-- Queue a conversion and write of a tile of each named array. -/
  | mxDrain (x : At) (f : FmtR)
  /-- Queue the return of named tiles to empty. -/
  | mxTzero (x : At) (f : FmtR)
  /-- Hold the group until its earlier MX operations complete, taking their faults. -/
  | mxWait (x : At) (f : FmtR)
  /-- The feed begins a queued MX.MMA once its conflicts and notice hold have ended. -/
  | mxMmaStreamStart (core : BitVec 11)
  /-- A stream's last slice is accumulated and the tile's value stands. -/
  | mxMmaComplete (core : BitVec 11)
  /-- A tile mover operation begins its first mover cycle after its waits end. -/
  | tileMoverOpStart (core : BitVec 11)
  /-- A tile mover operation completes or halts with a status. -/
  | tileMoverOpComplete (core : BitVec 11)
  /-- Apply a composed function to each included element, writing a tile or the AFB. -/
  | ruMap (x : At) (f : FmtR)
  /-- Fold scores into a row state set's running maximum and sum. -/
  | ruSmax1 (x : At) (f : FmtR)
  /-- Seal an SMAX set if needed and write soft-maximum probabilities. -/
  | ruSmax2 (x : At) (f : FmtR)
  /-- Accumulate shifted row sums into a STAT set. -/
  | ruStat (x : At) (f : FmtR)
  /-- Seal a STAT set if needed and write layer or RMS normalised values. -/
  | ruNorm (x : At) (f : FmtR)
  /-- Write raw or derived row state values into a tile. -/
  | ruRowout (x : At) (f : FmtR)
  /-- The row unit starts a queued operation at s0 after its waits and any seal. -/
  | ruOpStart (core : BitVec 11)
  /-- A row unit operation's last results stand or it halts with UE. -/
  | ruOpComplete (core : BitVec 11)
  /-- Invoke a fabric slot's configuration once per invoking lane. -/
  | ffx (x : At) (f : FmtR)
  /-- Queue a load of a configuration image into a slot. -/
  | ffxLds (x : At) (f : FmtR)
  /-- A queued slot load begins after earlier invocations on that slot complete. -/
  | ffxLoadStart (core : BitVec 11)
  /-- A slot load's fetch and checks finish and the slot becomes VALID or stays not VALID. -/
  | ffxLoadComplete (core : BitVec 11)
  /-- The fabric switches its active slot after the last invocation in flight leaves. -/
  | ffxSlotSwitch (core : BitVec 11)
  /-- An FFX's last invocation leaves and its result registers are written. -/
  | ffxComplete (core : BitVec 11)
  /-- A bank's drain finishes and its committed owner changes, completing the handover when last. -/
  | bankOwnerChange (core : BitVec 11) (hand : Nat) (bank : BitVec 4)
  /-- A bank leaving RETAIN or OFF reaches ON. -/
  | bankWakeComplete (core : BitVec 11) (bank : BitVec 4)
  /-- Firmware turns a retained bank outside every bank set OFF. -/
  | spxBankStateWrite (core : BitVec 11) (v : BitVec 64)
  /-- A copy engine, fabric or host access to a scratchpad window through the tile mover port. -/
  | spxWindowAccess (core : BitVec 11) (acc : WinAccess)
  /-- A corrected scratchpad byte is written back when the owner leaves the bank idle. -/
  | spxCorrectionWriteback (core : BitVec 11) (off : BitVec 19)
  /-- A read request arrives at its home slice and hits, misses or is a dead re-read. -/
  | homeRead (id : Nat)
  /-- A write arrives at its home slice and is merged, allocated or moved. -/
  | homeWrite (id : Nat)
  /-- A combined atomic is performed at its home slice. -/
  | homeAtomic (id : Nat)
  /-- A dead mark drops a present unpinned line and adds a tombstone. -/
  | deadMark (id : Nat)
  /-- The home pins one line, converting a way or leaving it unpinned. -/
  | pinLine (id : Nat)
  /-- The home clears one line's pin and sets its age to 3. -/
  | unpinLine (id : Nat)
  /-- The home fetches one line with age 2. -/
  | prefLine (id : Nat)
  /-- A miss table slot of a class frees and held retried requests are resent in order. -/
  | missSlotFreed (half : BitVec 1) (cls : BitVec 3)
  /-- A miss's data returns from external memory and fills, or poisons, the line. -/
  | lineFill (id : Nat)
  /-- A class's thrash window ends and is evaluated, possibly raising EV_CACHE_THRASH. -/
  | thrashWindowEnd (half : BitVec 1) (cls : BitVec 3)
  /-- A write of START begins the sweep of a half's dirty lines. -/
  | writebackAll (half : BitVec 1) (v : BitVec 64)
  /-- Every slice has swept every set and memory acknowledged every write; DONE is set. -/
  | writebackAllDone (half : BitVec 1)
  /-- A write clears the six counters of selected classes in a half. -/
  | cntClear (half : BitVec 1) (v : BitVec 64)
  /-- A write of RETIRE retires a cache bank, bringing in the spare or removing a way. -/
  | bankRetire (slice : BitVec 11) (v : BitVec 64)
  /-- A 64-bit write replaces a page map entry; narrower writes are ignored and logged. -/
  | pageMapWrite (page : BitVec 19) (bytes : BitVec 4) (v : BitVec 64)
  /-- A write of START begins a shootdown that drops translation cache copies. -/
  | shootdownStart (v : BitVec 64)
  /-- Accesses under dropped copies have ended, optional flush done, DONE set. -/
  | shootdownDone
  /-- A TLB or base translation cache miss is filled from the page map or faults. -/
  | tlbMissFill (who : TlbUser) (page : BitVec 19)
  /-- Every 10 ms a controller retrains read and write timing. -/
  | memRetrainInterval (ch : BitVec 5)
  /-- A GDDR7 burst fails its CRC and is retried, retraining after the fourth failure. -/
  | burstCrcFail (ch : BitVec 5) (req : Nat) (fails : BitVec 3)
  /-- Every channel has written encrypted zeros and INIT_DONE becomes 1. -/
  | memInitDone
  /-- A scrub pass begins at its period, or when an overrunning pass ends. -/
  | scrubPassStart
  /-- The scrubber reads and corrects one line or unit, logging uncorrectable errors. -/
  | scrubRead (tgt : ScrubTarget)
  /-- A granted bank access performs all its effects in its last occupied cycle. -/
  | bankAccessPerform (slice : BitVec 11) (bank : BitVec 5) (arrivals : List BankReq)
  /-- A grant held for LIMIT cycles is withdrawn, its transfer aborted and counted. -/
  | grantWatchdogExpiry (res : BitVec 32) (victim : Option Nat)
  /-- A byte budget window begins, restarting counts and admitting held requests. -/
  | budgetWindow (master : BitVec 12)
  /-- A write of a class's miss table share, ignored if the minima would exceed 65,536. -/
  | missShareWrite (cls : BitVec 3) (v : BitVec 64)
  /-- A write of a class's controller command share, ignored if the minima would exceed 256. -/
  | mcqShareWrite (cls : BitVec 3) (v : BitVec 64)
  /-- A fabric port acquires lane and FEC lock and enters KEYING. -/
  | linkTrained (port : BitVec 3)
  /-- Link keys are agreed and authenticated and the port becomes UP. -/
  | linkKeyed (port : BitVec 3) (peer : BitVec 17) (authOk : Bool)
  /-- A DOWN port repeats link bring-up every second. -/
  | linkRetryTimer (port : BitVec 3)
  /-- A lane of an UP port fails and the port retrains on four lanes or goes DOWN. -/
  | laneFail (port : BitVec 3) (lane : BitVec 3)
  /-- A port goes DOWN and its queued and unacknowledged messages fail over to ALT. -/
  | linkDown (port : BitVec 3)
  /-- A flit is verified and accepted, or discarded with a RETRY_REQ sent. -/
  | flitReceive (port : BitVec 3) (flit : Flit)
  /-- A sender receiving RETRY_REQ retransmits from the requested SEQ. -/
  | retryReq (port : BitVec 3) (seq : BitVec 16)
  /-- A message for another device is routed on by its route entry and TTL. -/
  | messageForward (port : BitVec 3) (m : Msg)
  /-- An inbound PUT writes bytes at homes and a COMPLETION is returned. -/
  | putMessage (port : BitVec 3) (m : Msg)
  /-- An inbound GET reads bytes and returns GET_DATA. -/
  | getMessage (port : BitVec 3) (m : Msg)
  /-- An inbound ATOMIC is performed and returns ATOMIC_DATA. -/
  | atomicMessage (port : BitVec 3) (m : Msg)
  /-- A MSG is stored in a fabric mailbox or refused, with a COMPLETION. -/
  | msg (port : BitVec 3) (m : Msg)
  /-- A REDUCE contribution, result, OPENED notice or ABORT arrives at a Lovage context. -/
  | reduce (port : BitVec 3) (m : Msg)
  /-- A BARRIER arrival or release arrives at a Lovage barrier context. -/
  | barrier (port : BitVec 3) (m : Msg)
  /-- A COMPLETION completes the source's request with its TAG. -/
  | completion (port : BitVec 3) (m : Msg)
  /-- GET_DATA completes the source's GET. -/
  | getData (port : BitVec 3) (m : Msg)
  /-- ATOMIC_DATA completes the source's ATOMIC with the old value. -/
  | atomicData (port : BitVec 3) (m : Msg)
  /-- A request without response after TIMEOUT_US completes UNREACHABLE. -/
  | fabRequestTimeout (tag : BitVec 16)
  /-- A write of FAB_RT_DATA replaces the route entry at FAB_RT_INDEX. -/
  | routeEntryWrite (v : BitVec 64)
  /-- A write of a Lovage context field, ignored unless the context is FREE. -/
  | lovageContextWrite (ctx : BitVec 10) (word : BitVec 3) (v : BitVec 64)
  /-- OPEN checks a context, reserves chunk store and notifies children. -/
  | lovageOpen (ctx : BitVec 10)
  /-- START begins a generation and makes the context RUNNING. -/
  | lovageStart (ctx : BitVec 10)
  /-- CLOSE releases the store and frees the context. -/
  | lovageClose (ctx : BitVec 10)
  /-- ABORT ends a context in ERROR and propagates the abort through the tree. -/
  | lovageAbort (ctx : BitVec 10)
  /-- A chunk's combination finishes and its partial or result is sent, written and forwarded. -/
  | lovageChunkComplete (ctx : BitVec 10) (chunk : BitVec 32)
  /-- A RUNNING generation without progress for TIMEOUT_US ends in ERROR. -/
  | lovageTimeout (ctx : BitVec 10)
  /-- Every HB_MS a worker sends a heartbeat, raising EV_MANAGER_LOST after 3 unacknowledged. -/
  | heartbeatSend
  /-- A manager sees no heartbeat for 3 intervals and declares the member lost. -/
  | memberHeartbeatTimeout (member : BitVec 17)
  /-- The fan-out answer limit ends and members without answer count as UNREACHABLE. -/
  | fanoutTimeout (id : Nat)
  /-- A host port examines a frame and places an authenticated request in its mailbox or drops it. -/
  | frameReceive (port : BitVec 1) (fr : Frame)
  /-- A port in LISTEN reports a received WAKE frame to Sorrel. -/
  | wakeFrame (port : BitVec 1)
  /-- A received PFC pause on PFC_PRIO stops transmission on that priority. -/
  | pfcPause (port : BitVec 1) (prio : BitVec 3) (xoff : Bool)
  /-- A HELLO starts a handshake answered by a signed HELLO_R. -/
  | sessionHello (port : BitVec 1) (h : Hello)
  /-- FINISH is verified against the owner list and the session keys are set. -/
  | sessionFinish (port : BitVec 1) (h : Finish)
  /-- Step 5 CLOSE ends a session. -/
  | sessionClose (q : SciReq)
  /-- A handshake not finished within 1 s of HELLO is discarded. -/
  | handshakeTimeout (id : Nat)
  /-- A session without an authenticated host frame for IDLE_S ends. -/
  | sessionIdleTimeout (session : BitVec 16)
  /-- Return one information item. -/
  | query (q : SciReq) (item : BitVec 32) (nonce : List (BitVec 8))
  /-- Return a telemetry record once, or subscribe or cancel. -/
  | telemetry (q : SciReq) (period : BitVec 32)
  /-- A subscription's period ends and a telemetry EVENT is sent. -/
  | telemetryPeriod (session : BitVec 16) (sub : Nat)
  /-- Write one setting to module flash and apply it. -/
  | setting (q : SciReq) (item : BitVec 32) (value : List (BitVec 8))
  /-- Write consecutive valid page map entries onto free frames, or none. -/
  | map (q : SciReq) (page pages frame : BitVec 32) (entry : BitVec 64)
  /-- Invalidate and flush valid pages and free their frames. -/
  | unmap (q : SciReq) (page pages : BitVec 32)
  /-- Pin a device address range in TC1. -/
  | pin (q : SciReq) (addr len : BitVec 64)
  /-- Unpin a device address range. -/
  | unpin (q : SciReq) (addr len : BitVec 64)
  /-- Retire a page, optionally migrating it to a new frame. -/
  | retirePage (q : SciReq) (migrate : Bool) (page : BitVec 32)
  /-- Retire a cache bank and record it in the flash bank list. -/
  | retireCacheBank (q : SciReq) (slice : BitVec 16) (bank : BitVec 8)
  /-- The transfer engine writes a host payload at a local address. -/
  | put (q : SciReq) (addr : BitVec 64) (data : List (BitVec 8))
  /-- The transfer engine reads bytes at a local address for the host. -/
  | get (q : SciReq) (addr : BitVec 64) (len : BitVec 32)
  /-- Give one descriptor to a copy engine channel. -/
  | copy (q : SciReq) (src dst len : BitVec 64) (engine cls : BitVec 8)
  /-- A copy descriptor's last write is performed or it halts with a status. -/
  | copyDescriptorComplete (engine : BitVec 6)
  /-- Firmware restarts a halted channel, which runs the descriptors behind the failed one. -/
  | copyChannelRestart (engine : BitVec 6)
  /-- Record a code range as a module handle, optionally pinned, and invalidate instruction caches. -/
  | loadModule (q : SciReq) (pinCode : Bool) (addr : BitVec 64) (len : BitVec 32)
  /-- Remove a module handle unless work names it. -/
  | unloadModule (q : SciReq) (handle : BitVec 32)
  /-- Check a configuration image, optionally pin it and return its CONFIG_ID. -/
  | loadConfig (q : SciReq) (addr : BitVec 64) (pin : Bool)
  /-- Set up a work queue with checked item and completion rings. -/
  | wqOpen (q : SciReq) (queue : BitVec 16) (entries : BitVec 32) (itemRing compRing : BitVec 64)
  /-- Close a work queue with no uncompleted items. -/
  | wqClose (q : SciReq) (queue : BitVec 16)
  /-- Check a launch descriptor and append a work item to its queue. -/
  | launch (q : SciReq) (d : Launch)
  /-- Set or add to a signal, re-evaluating pending waits. -/
  | signal (q : SciReq) (index : BitVec 16) (add : Bool) (value : BitVec 64)
  /-- Complete when a signal reaches VALUE, or time out. -/
  | wait (q : SciReq) (index : BitVec 16) (timeoutUs : BitVec 32) (value : BitVec 64)
  /-- A pending WAIT reaches TIMEOUT_US and answers ERR_TIMEOUT. -/
  | waitTimeout (id : Nat)
  /-- The dispatcher starts a startable queue head, waking clusters and sending tasks. -/
  | workItemStart (queue : BitVec 12)
  /-- All tasks of an item have ended; the record is written and DONE_SIGNAL raised. -/
  | workItemComplete (queue : BitVec 12) (item : Nat)
  /-- Write a Lovage context image, open it and bind its signals. -/
  | treeOpen (q : SciReq) (t : TreeArgs) (image : BitVec 512)
  /-- Arm one or every generation of a Lovage context on its start signal. -/
  | treeStart (q : SciReq) (t : TreeArgs)
  /-- Close a Lovage context through the SCI. -/
  | treeClose (q : SciReq) (t : TreeArgs)
  /-- Abort a Lovage context through the SCI. -/
  | treeAbort (q : SciReq) (t : TreeArgs)
  /-- An armed generation starts when its start signal reaches the armed value. -/
  | treeGenerationStart (ctx : BitVec 10)
  /-- Fence a core at run time. -/
  | fenceCore (q : SciReq) (core : BitVec 16)
  /-- Start a reset of the given kind and index. -/
  | reset (q : SciReq) (kind : BitVec 8) (index : BitVec 16)
  /-- Verify an image, write it to the inactive slot and commit it. -/
  | update (q : SciReq) (comp : BitVec 8) (addr : BitVec 64) (len : BitVec 32) (im : ImageInfo)
  /-- Write FAB_ROLE and store role in flash. -/
  | role (q : SciReq) (rl : BitVec 8) (mgrValid : Bool) (managerId : BitVec 32)
  /-- Write FAB_ID and store the device ID in flash. -/
  | roleDeviceId (q : SciReq) (deviceId : BitVec 32)
  /-- Write up to 100 route table entries. -/
  | roleRouteEntries (q : SciReq) (first : BitVec 32) (entries : List (BitVec 32))
  /-- An MCTP message over the management link is executed. -/
  | managementMessage (m : MgmtMsg)
  /-- A signed or unsigned owner list change arrives over the management link. -/
  | ownerListChange (signed sigOk : Bool) (signer : BitVec 512) (keys : List (BitVec 512))
  /-- P54 leaves 42 to 60 V and the bus converters stop. -/
  | p54OutOfRange (mv : BitVec 16)
  /-- P54 has been in range for 1 s and the converters restart. -/
  | p54Restart
  /-- Every 100 ms the leak loop resistance is read as WET, DRY or OPEN. -/
  | leakSenseSample (ohms : Option Nat)
  /-- A regulator's 1 ms current and voltage report reaches PWR_RAIL_r. -/
  | railReport (rail : BitVec 7) (mv cur : BitVec 16)
  /-- A regulator finds its sense pair faulty and regulates at its output. -/
  | senseFault (rail : BitVec 7)
  /-- A regulator receives an UP or DOWN notice and adds or sheds phases. -/
  | regulatorNotice (cluster : BitVec 6) (frame : BitVec 64) (canBeReady : Bool)
  /-- An acknowledgement reaches the base die and releases held MX.MMA of its item. -/
  | noticeAck (cluster : BitVec 6) (frame : BitVec 32)
  /-- A notice's lead time ends without acknowledgement, releasing the hold. -/
  | noticeLeadExpiry (cluster : BitVec 6) (seq : BitVec 8)
  /-- 50 µs after current falls back, a regulator sheds phases. -/
  | regulatorPhaseShed (cluster : BitVec 6)
  /-- XO_AON stops and CLK_AON switches to the RC oscillator. -/
  | aonClockFail
  /-- XO_REF fails, fast domains stop and Sorrel starts a module reset. -/
  | refClockFail
  /-- Every 60 s while bring-up waits for XO_REF, EV_REF_CLK_FAIL is logged again. -/
  | refClockRetryLog
  /-- A SLEEP write requests sleep entry of a cluster. -/
  | clusterSleepRequest (cluster : BitVec 6)
  /-- A WAKE write requests the wake of a cluster. -/
  | clusterWakeRequest (cluster : BitVec 6)
  /-- With AUTO_SLEEP, a cluster idle for IDLE_US enters sleep. -/
  | clusterIdleTimeout (cluster : BitVec 6)
  /-- Sleep entry ends with the cluster in SLEEP and its core state lost. -/
  | sleepEntryDone (cluster : BitVec 6)
  /-- A wake finishes and the cluster becomes AWAKE. -/
  | clusterWakeDone (cluster : BitVec 6)
  /-- Each 1 ms Sorrel samples sources, updates Chervil and evaluates protections and rules. -/
  | sorrelSample (p : Sample)
  /-- A rule element's hold count is reached and its action is taken. -/
  | ruleFire (rule elem : BitVec 6)
  /-- A fired element's release count is reached and its throttle hold removed. -/
  | ruleRelease (rule elem : BitVec 6)
  /-- The 100 ms grace of an orderly power-down ends and rails are removed. -/
  | orderlyPowerDownExpiry
  /-- After 100 periods at least 5 degrees below the limit, the T6 hold is released. -/
  | thermalLimitRelease (sensor : BitVec 12)
  /-- A working sensor 10 degrees over its limit for 3 periods powers the module down. -/
  | thermalTrip (sensor : BitVec 12)
  /-- After 100 periods below RATE_WARN the rate throttle is released. -/
  | rateActRelease (sensor : BitVec 12)
  /-- A sensor meets a broken kind and takes its die's limit as value. -/
  | sensorBroken (sensor : BitVec 12) (kind : BitVec 3)
  /-- A write of SOR_SENSOR_CLR clears one or all broken sensors. -/
  | sensorClear (v : BitVec 64)
  /-- A write to a rule register resets the rule's state and releases its holds. -/
  | sorRuleWrite (rule : BitVec 6) (hi : Bool) (v : BitVec 64)
  /-- Every 10 ms each bond zone's temperature is rainflow-counted into its wear count. -/
  | bondWearSample
  /-- Every 60 minutes the zone counts and residues are written to flash. -/
  | bondWearPersist
  /-- Every 10 ms oscillator and reference corrections are applied from fused tables. -/
  | compensationUpdate
  /-- A write to TARGET starts a switch of the operating envelope. -/
  | envelopeSwitch (v : BitVec 64)
  /-- A switch ends, updating CURRENT, LIMIT_W and CLOCK_MHZ. -/
  | envelopeSwitchDone
  /-- A cluster rail falls below its warning level; the feed stops and the clock halves. -/
  | droopEpisodeStart (rail : BitVec 7) (mv : BitVec 16)
  /-- The rail stays above warning for 100 µs; clock and feed are restored. -/
  | droopEpisodeEnd (cluster : BitVec 6) (minMv : BitVec 16) (us : BitVec 32)
  /-- A rail falls below its reset level and causes the reset of its kind. -/
  | resetLevelCrossing (rail : BitVec 7)
  /-- The funnel accepts a record, numbers it, logs it and passes it to event queues. -/
  | funnelAccept
  /-- Firmware copies a flash-queue record into the module flash log. -/
  | flashLogCopy
  /-- A write of ARM fixes an error injection for the next matching write. -/
  | errInjectArm (v : BitVec 64)
  /-- A fence trigger stops a core issuing and drains its sent requests. -/
  | coreFenceStart (core : BitVec 11) (hw : Bool)
  /-- A fenced core is gated, removed from the core map and its tasks ended or redispatched. -/
  | coreFenceComplete (core : BitVec 11)
  /-- A write of CVU_CTRL enables or disables a unit, changing fields only while stopped. -/
  | cvuCtrlWrite (unit : BitVec 5) (v : BitVec 64)
  /-- RESTART reloads VALUE, clears CVU_BYTES and rearms the alive check. -/
  | cvuRestart (unit : BitVec 5)
  /-- A write of a unit's value, byte count, filter, polynomial or XOR, ignored unless stopped. -/
  | cvuConfigWrite (unit : BitVec 5) (reg : CvuReg) (v : BitVec 64)
  /-- EN 0 takes effect at the next boundary and PAUSED becomes 1. -/
  | cvuPause (unit : BitVec 5)
  /-- A unit takes the bytes of a frame, message or descriptor and checks its alive counter. -/
  | cvuTake (unit : BitVec 5) (b : CvuBlock)
  /-- Sorrel starts on standby power, loads wear counts and writes default rules. -/
  | sorrelStart
  /-- Step 1 brings up fast rails and locks the cache and base PLLs. -/
  | bringupRails (refOk : Bool)
  /-- Step 2 verifies firmware, derives identity and starts the control processors. -/
  | bootVerify (v : BootVerify)
  /-- The boot ROM accepts and verifies a recovery image over the management link. -/
  | recoveryImage (im : ImageInfo)
  /-- Step 3 loads the yield map and flash records and brings up host ports. -/
  | loadFlashRecords
  /-- Step 4 trains memory, optical and bond ports and initialises memory. -/
  | training (t : Training)
  /-- Step 5 fills the cache die and self-tests its checkers. -/
  | cacheInit (t : CheckerResults)
  /-- Step 6 broadcasts core runtime firmware into every core. -/
  | runtimeBroadcast
  /-- Step 7 wakes clusters and runs known-answer programs, fencing failing cores. -/
  | knownAnswerRuns (failed : List (BitVec 11))
  /-- Step 8 declares READY when all conditions hold, or records REASON. -/
  | ready
  /-- Standby power is applied or VAON resets, resetting the whole module. -/
  | powerOnReset (trig : BitVec 4)
  /-- Every rail but VAON is removed and restored and bring-up resumes at step 1. -/
  | moduleReset (trig : BitVec 4)
  /-- All three dies reset with rails kept and bring-up resumes at step 2. -/
  | deviceWarmReset (trig : BitVec 4)
  /-- A base reset ends tasks and begins the bond quiesce. -/
  | baseReset (trig : BitVec 4)
  /-- The quiesce completes and the base die logic resets and restarts. -/
  | baseQuiesceComplete
  /-- A quiesce incomplete at 100 µs loses memory and triggers a device warm reset. -/
  | baseQuiesceFail
  /-- One cache half resets, losing its lines and reinitialising. -/
  | halfReset (half : BitVec 1) (trig : BitVec 4)
  /-- One cluster resets and its cores rerun known-answer programs. -/
  | clusterReset (cluster : BitVec 6) (trig : BitVec 4) (failed : List (BitVec 11))
  /-- One core resets and reruns known-answer programs. -/
  | coreReset (core : BitVec 11) (trig : BitVec 4) (katFails : Bool)
  /-- A valid debug token wipes on-die data, locks identity and opens scan. -/
  | debugToken (t : Token)
  /-- A read of an RC field returns and clears it. -/
  | registerReadClear (addr : BitVec 47)
  /-- A write to a register without behaviour of its own sets its RW fields by access type. -/
  | registerWrite (addr : BitVec 47) (v : BitVec 64)
  /-- Loss of P12SB removes every rail, Sorrel included, and bond-wear counting since the last flash write is lost. -/
  | standbyPowerLoss
  /-- XO_REF runs again while bring-up waits in step 1, and the cache and base PLLs can lock so bring-up proceeds. -/
  | refClockRestored
  /-- A missing instruction cache line returns from its home, making the group ready, or ends in FAULT_IFETCH_UE or FAULT_PC_RANGE. -/
  | instructionCacheFill (x : At)
  /-- An enabled host port loses its Ethernet link and STATE in HPT_PORT_STATUS becomes DOWN. -/
  | hostPortLinkDown (port : BitVec 1)
  /-- A host port regains PCS and FEC lock and STATE becomes UP. -/
  | hostPortLinkUp (port : BitVec 1)
  /-- Before NONCE_CTR reaches 2^40 the sender derives the next epoch key and restarts NONCE_CTR at 0. -/
  | linkKeyEpoch (port : BitVec 3)
  /-- A session ends before its 48-bit frame counter FCNT would reach 2^48. -/
  | frameCounterLimit (session : BitVec 16)
  /-- A TAP operation on J3 while JTAG_VREF is present performs IEEE 1149.1 boundary scan or obtains the device's debug nonce. -/
  | boundaryScan (nonceRead : Bool)
deriving DecidableEq, Repr

end Sys2Proof
end

