-- ==== Sys2Proof/Config.lean ====
section
/-! DEFINITION. What the spec leaves open and the model keeps open: constants and functions with no
body, so that nothing can be proved of their values. Each is named in the assumption log. -/

namespace Sys2Proof.Config

/-- The free values of the state, by the index `Dev.free` (log 3). -/
opaque freeWord : Nat → BitVec 64

/-- A byte of a weight stage (kind 0), scale store (1), FSB (2) or AFB (3) that nothing has loaded
since it became undefined at `epoch` (04 R113, R130; log 3). -/
opaque undefByte : (kind : Nat) → (epoch : Nat) → (index : Nat) → BitVec 8

/-- FRCP.SEED of a finite nonzero argument, before the bound of Table 3.10 is imposed (03 R505;
log 7). -/
opaque rcpSeed : BitVec 32 → BitVec 32

/-- FRSQ.SEED of a positive finite argument, before the bound is imposed (03 R505; log 7). -/
opaque rsqSeed : BitVec 32 → BitVec 32

/-- Where EXP2 between the integers n and n + 1 begins to return mantissa m, in units of 2^−48, before the bound
of 05 R155 is imposed (05 R154; log 7). -/
opaque exp2Edge : (n : Int) → (m : Nat) → Int

/-- LOG2 on the arguments for which 05 R156 gives only a bound (05 R154; log 7). -/
opaque log2 : BitVec 32 → BitVec 32

/-- Word C of row r of a row state set that RU.SMAX1 has initialised: 05 R160 gives it no value, and 05 R154
makes what RU.ROWOUT writes of it the same every time (log 3). -/
opaque smaxC : (row : Nat) → BitVec 32

/-! ### The settings of a fabric configuration (06 R172 to R182)

The body encodings are the tool's own (06 R182), so that what a body sets is read by an opaque function; what the
settings do is `Machine/Cells.lean`. -/

/-- A route: the cell and word output it starts at, the way round the ring of quadrants it takes, and the cycles of
the delay register chain at its end (06 R174, R177). -/
structure Wire where
  cell  : Fin 128
  out   : Fin 8
  up    : Bool
  delay : Fin 16
deriving DecidableEq, Repr, Inhabited

/-- A word input: a constant of the configuration or a route (06 R174). -/
inductive WordIn where
  | const (v : BitVec 32)
  | wire (w : Wire)
deriving DecidableEq, Repr, Inhabited

/-- A flag input. -/
inductive FlagIn where
  | const (v : Bool)
  | wire (w : Wire)
deriving DecidableEq, Repr, Inhabited

/-- The operation a cell performs (06 Table 6.2). `ty` is a TYPE of 03 Table 3.8 (4 F32, 5 F16x2, 6 BF16x2), `rm` a
rounding code, `code` a compare code, `sg` whether signed. PRMT names the source byte of each byte of its result
among the four of a and the four of b. A port cell of kind SPX requests accesses in the fabric cycles of `cycles`
from the entry of its invocation: a burst of `len` bytes at input a, or a gather of words (06 R180). -/
inductive CellOp where
  | fadd (ty : Nat) | fmul (ty : Nat) | ffma (ty : Nat) | fmin (ty : Nat) | fmax (ty : Nat)
  | fcmp (ty : Nat) (code : Nat)
  | frnd (rm : Nat) | f2i (ty : Nat) (rm : Nat) | i2f (ty : Nat) (rm : Nat) | ldexpB (byte : Fin 4)
  | iadd | isub | imul16 | lmux (tables : BitVec 8) | shl | shr (sg : Bool) | bfe (sg : Bool) | bfi
  | prmt (bytes : List (Fin 8)) | popc | clz | imin (sg : Bool) | imax (sg : Bool) | icmp (code : Nat) (sg : Bool)
  | sel | fmin3 | fmax3 | fcmpI (code : Nat) | u8f (byte : Fin 4) | un8h2 (lo hi : Fin 4) | imul
  | read32 | read16 (sg : Bool) | read8
  | input (i : Fin 8) | output (j : Fin 4)
  | burst (len : Nat) (cycles : List Nat) | gather (offs : List WordIn) (cycles : List Nat)
deriving DecidableEq, Repr, Inhabited

/-- One cell of a configuration: its place, its operation and its inputs (06 R174). -/
structure Cell where
  place : Fin 128
  op    : CellOp
  a     : WordIn
  b     : WordIn
  c     : WordIn
  f     : FlagIn
deriving DecidableEq, Repr, Inhabited

/-- What a configuration body sets: the cells of one copy (06 R178, R182; log 8). -/
opaque fabricNet : (body : List (BitVec 8)) → List Cell

/-- What a cell puts out in a fabric cycle that belongs to no invocation of its own (06 R174; log 8). -/
opaque idleWord : (cell : Nat) → (out : Nat) → BitVec 32

/-- The shipped configurations whose function a rule states (06 R197, R198). -/
inductive Shipped where
  | rayBox4 | texTri
deriving DecidableEq, Repr

/-- The shipped image that a CONFIG_ID names: CONFIG_ID is a digest of the image (06 R182), and the spec gives no
image (06 R196; log 8). -/
opaque shippedAs : (config : BitVec 64) → Option Shipped

/-- The results of a shipped configuration where its rule gives none: operands that are not finite (06 R197), a lod
that is not that of a level (06 R198). -/
opaque shippedFree : Shipped → (args : List (BitVec 32)) → List (BitVec 32)

/-- A level of a texture as TEXTRI's lookup tables give it: width, height, first bank and base word (06 R198). -/
structure TexLevel where
  width  : Nat
  height : Nat
  bank   : Nat
  base   : Nat
deriving DecidableEq, Repr, Inhabited

/-- What the tables of a TEXTRI image say of a level of a texture; their encoding is the tool's (06 R198; log 8). -/
opaque texTable : (tables : List (BitVec 8)) → (texture : Nat) → (level : Nat) → TexLevel

/-- Whether texel centres lie at half texels, of which 06 R198 says nothing (log 8). -/
opaque texCentred : Bool

/-- A channel of TEXTRI as FP16 before the bound of 2^−8 is imposed (06 R198; log 8). -/
opaque texFree : (args : List (BitVec 32)) → (texels : List (BitVec 32)) → (channel : Nat) → BitVec 16

/-- The XTS key pair that the security engine draws from its random source (09 R283). -/
opaque xtsKey : Nat → BitVec 512

/-- The setpoint in mV of a cluster rail in an envelope, from the fused table of 13 R407, before the
envelope's range is imposed (log 20). -/
opaque setpoint : (cluster : Nat) → (envelope : Nat) → BitVec 16

/-- Chervil's fused constants of 14 R442 for cache sensor `k`: theta_k and phi_k in °C/W, the base share of group k,
and the weight that tau gives one sample period in the filter (log 20). -/
opaque theta : (k : Nat) → Rat
opaque phi : (k : Nat) → Rat
opaque baseShare : (k : Nat) → Rat
opaque chervilWeight : Rat

/-- Group k's bank accesses over all bank accesses of a period, which a free value stands for (14 R442; log 20). -/
opaque accessShare : (k : Nat) → (accesses : BitVec 64) → Rat

/-- The fused self-heating offset of a cluster at a current in 0.1 A, and the base die sensor nearest to
a cache sensor or a cluster (14 R442; log 20). -/
opaque selfHeat : (cluster : Nat) → (current : Nat) → Int
opaque nearestBase : (cache : Nat) → Fin 48
opaque nearestBaseCluster : (cluster : Nat) → Fin 48

/-- The rounding of one swing's weight to units of 1/1,024 (01 R36; log 20): 0 or 1 on top of the floor. -/
opaque wearRound : (range : Nat) → Bool

/-- The members of a sub-manager's subtree, as its manager knows them (11 R350; log 22). -/
opaque subtree : (member : Nat) → List Nat

/-- A digest, key or signature that a standard outside the spec computes (log 9). -/
opaque digest : (kind : Nat) → List (BitVec 8) → BitVec 512

end Sys2Proof.Config
end

