-- ==== Sys2Proof/Machine/State.lean ====
section
/-! DEFINITION. The state of the device: everything the spec gives the block, as plain data, the
queue of waiting commands, and the machine right after reset. -/

namespace Sys2Proof.Machine

/-- Why the block stops with a fault. No command of the spec leaves the block without a next state,
so the only constructor is the stop of an access to a resource the spec says does not exist. -/
inductive Fault where
  /-- Raised by no meaning: kept so that the type names its one reason. Safe: it is never raised. -/
  | absent (what : String)
deriving DecidableEq, Repr

/-- Why a command is refused. -/
inductive Refusal where
  /-- Raised by the arm of a command without a meaning yet. Safe: nothing can be proved of it. -/
  | notModelled (mnemonic : String)
  /-- Raised by a meaning when the event does not occur in this state: its conditions, as the rules
  of the spec give them, do not hold. Safe: the hardware has no such step there. -/
  | notEnabled (mnemonic : String)
deriving DecidableEq, Repr

/-! ## Threads and groups (02) -/

/-- State of a thread (02 R42); a parked thread keeps its barrier, `none` for BAR.GRP. -/
inductive LaneSt where
  | active
  | parked (bar : Option (BitVec 3))
  | exited
deriving DecidableEq, Repr

/-- One thread: program counter, state, yield bit and predicates P0 to P7 (02 R42). -/
structure Lane where
  pc    : BitVec 47
  st    : LaneSt
  yld   : Bool
  preds : Byte
deriving DecidableEq, Repr

/-- A thread that was never live (02 R42). -/
def deadLane : Lane := { pc := 0, st := .exited, yld := false, preds := 0 }

/-- Fences (03 Table 3.15) and the fences inside an atomic with ORD (03 R103). -/
inductive FenceKind where
  | acq | rel | sc | inst | ro | atomAcq | atomRel | atomAr
deriving DecidableEq, Repr

/-- What holds a group after issue (02 R48 item 5; 04 R136; 07 R206, R217; 15 R452). The number is
the issue order of the holding instruction; a wait keeps its PC and lanes for the fault it may take
(04 R144). `record`: the group has faulted, and its record waits for the funnel. -/
inductive Hold where
  | fence (kind : FenceKind) (id : Nat)
  | mxWait (id : Nat) (pc : BitVec 47) (lanes : Nat)
  | spxWait (id : Nat) (pc : BitVec 47) (lanes : Nat)
  | handover (id : Nat)
  | record
deriving DecidableEq, Repr

/-- A resident thread group (02 R53, R64). `uid` is the model's own: it tells a group from a later
one in the same slot. -/
structure Group where
  uid   : Nat
  pos   : Bool
  index : Nat
  base  : Nat
  alloc : Nat
  nregs : Nat
  lanes : List Lane
  x     : SMap Row
  u     : SMap Word
  hold  : Option Hold
  stall : Nat
deriving DecidableEq, Repr

/-- A task resident on a core (02 R63): the fields of its launch descriptor (12 Table 12.13) that
the core uses, how many groups it has admitted, and its fault status (03 R108, R109). -/
structure Task where
  queue     : Nat
  item      : Nat
  entry     : BitVec 47
  nregs     : Nat
  ngroups   : Nat
  threads   : Nat
  admitted  : Nat
  endGroup  : Bool
  idem      : Bool
  usesMx    : Bool
  usesFfx   : Bool
  wstage    : Bool
  handle    : Word
  banks     : BitVec 16
  resident  : BitVec 16
  keep      : BitVec 16
  owner     : Word
  args      : List Word
  fault     : Option Nat
  aborted   : Bool
  started   : Bool
  redisp    : Nat
deriving DecidableEq, Repr

/-- Statuses of an internal request (10 R307, R309; 11 Table 11.7; 15 R456). -/
inductive RStatus where
  | ok | ue | abort | fenced | baseReset
deriving DecidableEq, Repr

/-- Which load a returning value belongs to (03 Tables 3.13, 3.14, 3.16). -/
inductive LoadKind where
  | ld | last | cd | na | ldc | ldd | atom
deriving DecidableEq, Repr

/-- An outstanding load or returning atomic: its destination registers are pending (03 R77, R95).
`hits` holds the lines read in a cache of the core at issue, `reqs` the requests that left it; `ended` says
that a fault has ended its group or that its task is over, so that its return is discarded (03 R108). -/
structure PendLoad where
  id    : Nat
  uid   : Nat
  slot  : Nat
  pos   : Bool
  pc    : BitVec 47
  kind  : LoadKind
  dreg  : Nat
  dcnt  : Nat
  bytes : Nat
  sext  : Bool
  addrs : List (Nat × Nat)
  hits  : List (Nat × Line)
  reqs  : List Nat
  ended : Bool
deriving DecidableEq, Repr

/-- CACHE range operations (03 R92; 08 R240 to R250). `next` and `last` are line numbers. -/
structure RangeOp where
  id    : Nat
  uid   : Nat
  slot  : Nat
  kind  : Nat
  next  : Nat
  stop  : Nat
  left  : Bool
  dreg  : Nat
  lanes : List Nat
deriving DecidableEq, Repr

/-! ## Matrix arrays, row unit, fabric, scratchpad of a core (04 to 07) -/

/-- One accumulator tile (04 R110, R113, R124, R144). -/
structure Tile where
  empty  : Bool
  int    : Bool
  scale  : Word
  poison : Bool
  el     : List Word
deriving DecidableEq, Repr

/-- An empty tile (04 R113). -/
def emptyTile : Tile := { empty := true, int := false, scale := 0, poison := false, el := [] }

/-- One weight stage bank (04 R112). -/
structure WBank where
  valid  : Bool
  fmt    : Nat
  wscale : Word
deriving DecidableEq, Repr

/-- A weight stage bank that is not VALID; its format and scale are a design choice (log 2). -/
def emptyBank : WBank := { valid := false, fmt := 0, wscale := 0 }

/-- Operations of the MX queue (04 Table 4.11, 05 Table 5.1). -/
inductive MxKind where
  | wld | sld | mma | drain | tzero
  | ruMap | ruSmax1 | ruSmax2 | ruStat | ruNorm | ruRowout
deriving DecidableEq, Repr

/-- A queued or running matrix or row unit operation (04 R134). An MX.MMA keeps its weight format in
`wfmt` and each array's WSCALE in `factor` (04 R129); a row unit operation keeps each array's factor F
of 05 R147 there, fixed at issue. -/
structure MxOp where
  id      : Nat
  uid     : Nat
  slot    : Nat
  pos     : Bool
  pc      : BitVec 47
  kind    : MxKind
  desc    : BitVec 128
  started : Bool
  wfmt    : Nat
  factor  : List Word
deriving DecidableEq, Repr

/-- A fault of a queued operation that no wait has taken yet (04 R144, 06 R192, 07 R218). -/
structure Deferred where
  id   : Nat
  uid  : Nat
  slot : Nat
  pos  : Bool
  spx  : Bool
  code : Nat
  addr : D64
deriving DecidableEq, Repr

/-- The matrix arrays of a core: tiles at index 4a + t, stage bytes at 32768a + i, scale bytes at
4096a + i, banks at 2a + b. A byte that is not listed is undefined: a free value of `epoch`. -/
structure Mx where
  tiles    : SMap Tile
  stage    : SMap (Option Byte)
  scales   : SMap (Option Byte)
  banks    : SMap WBank
  fsb      : SMap (Option Byte)
  afb      : SMap (Option Byte)
  epoch    : Nat
  q        : List MxOp
  deferred : List Deferred
deriving DecidableEq, Repr

/-- Mode of a row state set (05 R149). -/
inductive RsMode where
  | empty | smax | stat
deriving DecidableEq, Repr

/-- A row state set (05 R149): words A, B, C and count N of 16 rows; `der1` and `der2` hold what
the seal computes (05 R161: rinv; R165: mean and var). -/
structure RowSet where
  mode   : RsMode
  sealed : Bool
  poison : Bool
  a      : List Word
  b      : List Word
  c      : List Word
  n      : List Nat
  der1   : List Word
  der2   : List Word
deriving DecidableEq, Repr

/-- An EMPTY row state set (05 R149). -/
def emptySet : RowSet :=
  { mode := .empty, sealed := false, poison := false, a := [], b := [], c := [], n := [],
    der1 := [], der2 := [] }

/-- A configuration slot with the header of its image (06 R182, R194, R195). `ends` is the load that has made it
not VALID by taking its lookup cells (06 R184): the FFX queued ahead of that load still run on it. -/
structure FfxSlot where
  valid    : Bool
  loading  : Bool
  config   : D64
  copies   : Nat
  ii       : Nat
  lat      : Nat
  nIn      : Nat
  nOut     : Nat
  lutMask  : BitVec 16
  cfgBytes : Nat
  body     : List Byte
  ends     : Option Nat
deriving DecidableEq, Repr

/-- A slot that is not VALID (06 R186). -/
def emptySlot : FfxSlot :=
  { valid := false, loading := false, config := 0, copies := 0, ii := 0, lat := 0, nIn := 0,
    nOut := 0, lutMask := 0, cfgBytes := 0, body := [], ends := none }

/-- An entry of the FFX queue (06 R185): an FFX with the operands read at issue, or an FFX.LDS, which once started
holds its image's header or why that could not be read (06 R183, R192). -/
structure FfxOp where
  id      : Nat
  uid     : Nat
  slot    : Nat
  pos     : Bool
  pc      : BitVec 47
  lds     : Bool
  target  : Nat
  desc    : BitVec 128
  started : Bool
  head    : List Byte
  bad     : Option (Nat × Nat)
  dreg    : Nat
  nres    : Nat
  args    : List (Nat × List Word)
deriving DecidableEq, Repr

/-- A failed load of a slot whose cause nobody has taken yet (06 R192). -/
structure FfxFail where
  id   : Nat
  uid  : Nat
  pos  : Bool
  slot : Nat
  code : Nat
  addr : D64
deriving DecidableEq, Repr

/-- The function fabric of a core (06). -/
structure Ffx where
  slots     : SMap FfxSlot
  active    : Nat
  q         : List FfxOp
  fails     : List FfxFail
deriving DecidableEq, Repr

/-- A fabric with no VALID slot and S0 active (06 R186). -/
def emptyFfx : Ffx := { slots := [], active := 0, q := [], fails := [] }

/-- A scratchpad handover that has not completed: the banks that take part and have not changed,
each with the owner it drains (07 R206, R207). -/
structure Hand where
  id     : Nat
  uid    : Nat
  slot   : Nat
  target : Nat
  banks  : List (Nat × Nat)
deriving DecidableEq, Repr

/-- An SPX.FILL or SPX.COPY in the SPX queue (07 R215, R216). -/
structure SpxOp where
  id   : Nat
  uid  : Nat
  slot : Nat
  pos  : Bool
  pc   : BitVec 47
  copy : Bool
  a    : Word
  b    : Word
  c    : Word
deriving DecidableEq, Repr

/-- The scratchpad of a core (07): bytes by offset, committed and queued owners and bank states in
the layouts of Tables 7.8 to 7.10, retain tags, handovers, the SPX queue and the operation the tile
mover is running. -/
structure Spx where
  bytes  : SMap Byte
  owner  : Word
  queued : Word
  bstate : Word
  initing : BitVec 16
  tags   : SMap Word
  hands  : List Hand
  q      : List SpxOp
  mover  : Option Nat
deriving DecidableEq, Repr

/-- The scratchpad after a core reset: every bank OFF, owned by the thread lanes (07 Tables 7.8 to
7.13). -/
def resetSpx : Spx :=
  { bytes := [], owner := 0x55555555#32, queued := 0x55555555#32, bstate := 0, initing := 0,
    tags := [], hands := [], q := [], mover := none }

/-- The matrix arrays after a core reset (04 R113, 13 R422). -/
def resetMx : Mx :=
  { tiles := [], stage := [], scales := [], banks := [], fsb := [], afb := [], epoch := 0, q := [],
    deferred := [] }

/-- A register an instruction reads or writes: `n` thread registers from `r`, or `n` uniform registers
from `r` (03 R70 to R72); `xs` is a run of thread registers without alignment, as FFX names them
(06 R191). -/
inductive Reg where
  | x (r n : Nat)
  | u (r n : Nat)
  | xs (r n : Nat)
deriving DecidableEq, Repr

/-- The pipes of a core (03 Tables 3.9 to 3.16); `fab` is an instruction that can run on FA or FB. -/
inductive Pipe where
  | fab | fb | mem | mx | ctl
deriving DecidableEq, Repr

/-- What slot 0's latest issue leaves for slot 1 of its core cycle (02 R49, R50): the group and the
active set, the PC of the instruction that follows it, whether the group may pair at all (R50 item 3),
its pipe, the registers and predicates it names and those it writes, the words at that PC that stood in
the instruction cache, and which queues could accept an instruction (MEM, MX, FFX and SPX queue). -/
structure Pair where
  slot : Nat
  uid  : Nat
  pc   : BitVec 47
  act  : List Bool
  opens : Bool
  pipe : Pipe
  regs : List Reg
  outs : List Reg
  pall : Byte
  pout : Byte
  words : Nat
  room : List Bool
deriving DecidableEq, Repr

/-- One core (02): group slots, resident tasks by position, the caches and TLB (most recently used
first), outstanding loads and range operations, its engines, and what slot 0 leaves for slot 1 (`pair`). -/
structure Core where
  groups    : SMap (Option Group)
  task0     : Option Task
  task1     : Option Task
  rr        : Nat
  pair      : Option Pair
  cycleBase : D64
  l1        : List (Nat × Line)
  ic        : List (Nat × Line)
  constc    : List (Nat × Line)
  descc     : List (Nat × Line)
  tlb       : List (Nat × D64)
  loads     : List PendLoad
  ranges    : List RangeOp
  mx        : Mx
  mxModule  : Word
  ru        : SMap RowSet
  ffx       : Ffx
  spx       : Spx
  fencing   : Bool
deriving DecidableEq, Repr

/-- A core after its reset (02, 04 R113, 05 R149, 06 R186, 07 R210). -/
def freshCore : Core :=
  { groups := [], task0 := none, task1 := none, rr := 0, pair := none, cycleBase := 0, l1 := [], ic := [],
    constc := [], descc := [], tlb := [], loads := [], ranges := [], mx := resetMx, mxModule := 0,
    ru := [], ffx := emptyFfx, spx := resetSpx, fencing := false }

/-! ## Requests to the homes (03, 08, 10) -/

/-- The atomics of 03 Table 3.16. -/
inductive AtomOp where
  | add | min | max | and | or | xor | exch | cas
deriving DecidableEq, Repr

/-- One combined atomic (03 R96): byte offset in the line, TYPE, and each lane's operands b and c in
ascending lane order. -/
structure Combined where
  op    : AtomOp
  ty    : Nat
  off   : Nat
  lanes : List (Nat × Nat × Nat)
deriving DecidableEq, Repr

/-- What a request asks of the home. -/
inductive ReqOp where
  | read
  | write (data : Line) (mask : LMask)
  | atomic (c : Combined)
deriving DecidableEq, Repr

/-- Where a request stands: at its core's port, in the port's crossing (01 R29), past it on its way to its home, back
at the port as a held retry (10 R313), in the miss table (08 R252), or performed. -/
inductive ReqSt where
  | waiting | crossing | moving | retried | missed | performed
deriving DecidableEq, Repr

/-- A request in flight (03 R90, R93; 10 R317). `ins` is the issue number of its instruction and `lanes` the
lanes it serves; `rel` holds an atomic with ORD .REL until the group's earlier writes are acknowledged;
`alloc` says that the returned line enters the cache it was read through; `mark` that a dead mark follows the read (08 R245); `spent` that
its master's budget has counted it (10 R313). -/
structure Req where
  id     : Nat
  ins    : Nat
  core   : Nat
  uid    : Nat
  slot   : Nat
  pos    : Bool
  pc     : BitVec 47
  lanes  : Nat
  addr   : Nat
  cls    : Nat
  line   : Nat
  pte    : D64
  op     : ReqOp
  st     : ReqSt
  status : RStatus
  ret    : Bool
  rel    : Bool
  alloc  : Bool
  mark   : Bool
  spent  : Bool
  back   : Bool
  result : Line
  olds   : List (Nat × Nat)
deriving DecidableEq, Repr

/-- A line held by a slice (08 R228 to R253): its way and sectors, encoding code of Table 8.1, age,
pin, class, poison and the page map entry it was filled under. -/
structure CLine where
  line   : Nat
  data   : Line
  way    : Nat
  sect   : BitVec 4
  enc    : Nat
  dirty  : Bool
  age    : Nat
  pinned : Bool
  cls    : Nat
  poison : Bool
  pte    : D64
deriving DecidableEq, Repr

/-- One cache slice (08 R226, R246, Table 8.16) with its count of lines unpinned without a request (R244), which no
register shows. -/
structure Slice where
  retired  : BitVec 17
  spareFor : Nat
  out      : BitVec 16
  sets     : SMap (List CLine)
  tombs    : List (Nat × Bool)
  pinEvents : Nat
deriving DecidableEq, Repr

/-- A slice with nothing retired and no line (08 Table 8.16). -/
def freshSlice : Slice := { retired := 0, spareFor := 31, out := 0, sets := [], tombs := [], pinEvents := 0 }

/-- A miss table entry: one line in flight, whether its packet has left for external memory and whether it holds a
command slot of its controller, the requests that wait for it in arrival order, and the dead marks among them, each
with the number of requests ahead of it and its class (08 R249, R252, 10 R312). -/
structure Miss where
  id   : Nat
  half : Nat
  cls  : Nat
  home : Nat
  line : Nat
  pte  : D64
  sent : Bool
  cmd  : Bool
  reqs : List Nat
  marks : List (Nat × Nat)
deriving DecidableEq, Repr

/-- Thrash detection of one class of one half (08 R255): counters at the start of the window, the
run and the armed flag. -/
structure Thrash where
  hits0 : Nat
  miss0 : Nat
  run   : Nat
  armed : Bool
deriving DecidableEq, Repr

/-- Thrash state before the first window; ARMED 1 is a design choice (log 2). -/
def freshThrash : Thrash := { hits0 := 0, miss0 := 0, run := 0, armed := true }

/-- The shootdown in progress (09 R270): its page, ALL, FLUSH, and the requests that were translated
with a dropped copy. -/
structure Shoot where
  page  : Nat
  all   : Bool
  flush : Bool
  waits : List Nat
deriving DecidableEq, Repr

/-- A word whose check bits are in error (15 R455, R459): Table 15.4 code, unit, index, whether two
bits are inverted (or the word carries POISON), whether the error was injected, and whether a read
has corrected it and waits to write it back (07 R222). -/
structure ErrMark where
  mem   : Nat
  unit  : Nat
  index : Nat
  dbl   : Bool
  inj   : Bool
  seen  : Bool
deriving DecidableEq, Repr

/-- The scrubber (09 R287 to R289): whether a pass runs, whether the next one is due behind it, and how
far it has read in ascending order of slice, set and way, and of channel and unit. -/
structure Scrub where
  running   : Bool
  again     : Bool
  cacheDone : Bool
  memDone   : Bool
  cachePos  : Nat
  memPos    : Nat
deriving DecidableEq, Repr

/-- A request at a bank port (10 R302): requester 0 to 5, class, cache cycles of Table 10.2, the
priority it rose to since it became the head of its queue (`none` before that), and the request of
the model it performs (0 for none). -/
structure PortReq where
  who    : Nat
  cls    : Nat
  cycles : Nat
  prio   : Option Nat
  req    : Nat
deriving DecidableEq, Repr

/-- A bank port (10 R302): the holder with the cycles it still occupies, whether a round ended in the
previous cycle, the waiting requests in arrival order, the rotation pointer. -/
structure BankPort where
  holder : Option PortReq
  left   : Nat
  ended  : Bool
  waits  : List PortReq
  rot    : Nat
deriving DecidableEq, Repr

/-- An idle bank port; the rotation pointer is a design choice (log 2). -/
def idlePort : BankPort := { holder := none, left := 0, ended := false, waits := [], rot := 0 }

/-- What a packet carries (10 R296): a core's request to its home, the response, a miss to external memory. -/
inductive PktKind where
  | request | response | miss
deriving DecidableEq, Repr

/-- A packet on a network (10 R296, R297): the request or miss it carries, its class, its VC (0 and 1 requests on XY
and YX routes, 2 and 3 responses), its beats, the receiving port whose buffer holds it, the output ports ahead of
it, its priority once it is the head of its input VC, and its place in the order sent. -/
structure Packet where
  kind  : PktKind
  id    : Nat
  cls   : Nat
  vc    : Nat
  beats : Nat
  place : Nat
  route : List Nat
  prio  : Option Nat
  seq   : Nat
deriving DecidableEq, Repr

/-- An output port of a network (10 R305): the packet in progress, the cycles it still takes, the rotation pointer. -/
structure OutPort where
  cur  : Option (PktKind × Nat)
  left : Nat
  rot  : Nat
deriving DecidableEq, Repr

/-- An idle output port; the rotation pointer is a design choice (log 2). -/
def idleOut : OutPort := { cur := none, left := 0, rot := 0 }

/-- The crossing FIFOs of the core ports by core, oldest first (01 R29), the packets on the networks, their output
ports by resource ID, and the number of the next packet. -/
structure Net where
  fifo  : SMap (List Nat)
  pkts  : List Packet
  ports : SMap OutPort
  seq   : Nat
deriving DecidableEq, Repr

/-- Networks without a packet. -/
def emptyNet : Net := { fifo := [], pkts := [], ports := [], seq := 0 }

/-- Byte budget of one master (10 R314): bytes counted in the window, and the configuration in force
(a change takes effect when the next window begins). -/
structure Budget where
  used : Nat
  cfg  : D64
deriving DecidableEq, Repr

/-- A record of the error funnel (15 Table 15.1). -/
structure ErrRec where
  seq    : D64
  usec   : D64
  code   : BitVec 16
  cls    : Byte
  flags  : Byte
  source : Word
  count  : Word
  loc0   : D64
  loc1   : D64
  loc2   : D64
  detail : D64
deriving DecidableEq, Repr

/-- No bytes counted and the reset configuration in force (10 Table 10.18). -/
def freshBudget : Budget := { used := 0, cfg := 0x0000000100000000#64 }
/-! ## Clusters and regulators (13 R410 to R423), the funnel (15 R451 to R454) -/

/-- State of a cluster (13 R420, Table 13.18); `entering` is sleep entry, which is not awake. -/
inductive ClSt where
  | off | sleep | entering | waking | awake
deriving DecidableEq, Repr

/-- An UP notice whose hold has not ended (13 R411 to R414): its SEQ, STEP and work item. -/
structure Notice where
  seq   : Nat
  step  : Nat
  queue : Nat
  item  : Nat
deriving DecidableEq, Repr

/-- A cluster: state, core cycles delivered, pending UP notices, requests of SLEEP and WAKE that wait
(13 R423), the next notice SEQ, the UP notices that ended without acknowledgement in a row, the frames
on its notice line and its acknowledgement line, the UP notices its regulator added up, and the lowest
voltage of a droop episode under way (14 R446). -/
structure Cluster where
  st       : ClSt
  cycles   : D64
  ups      : List Notice
  sleepReq : Bool
  wakeReq  : Bool
  nextSeq  : Nat
  noAck    : Nat
  line     : List D64
  acks     : List Word
  phases   : List (Nat × Nat)
  droop    : Option Nat
deriving DecidableEq, Repr

/-- A cluster at power-on: OFF (13 Table 13.18). -/
def freshCluster : Cluster :=
  { st := .off, cycles := 0, ups := [], sleepReq := false, wakeReq := false, nextSeq := 0, noAck := 0,
    line := [], acks := [], phases := [], droop := none }

/-- The error funnel (15 R451 to R453): each source's queue, its OVERFLOW mark, the ring by SEQ modulo
1,024, the next SEQ, the event queues, and for each merged kind the milliseconds left of its interval
and the occurrences since (15 R452). -/
structure Funnel where
  srcq     : SMap (List ErrRec)
  overflow : SMap Bool
  ring     : SMap ErrRec
  seq      : Nat
  mgmtq    : List ErrRec
  escq     : List ErrRec
  flashq   : List ErrRec
  ce       : SMap (Nat × Nat)
  sevs     : List Nat
deriving DecidableEq, Repr

/-! ## Fabric ports, routing, Lovage, manager (11) -/

/-- A fabric port (11 R319 to R326): state, failed lanes, peer, link keys and epochs, the nonce
counters, the sequence numbers, the replay buffer, how often in a row the peer has requested one SEQ,
the credits of the peer's lanes, the credits given back to it, the messages that wait to be sent (with
whether each is forwarded), the priorities of the sixteen inputs of the output port, and the
messages received and not yet taken. -/
structure FabPort where
  st       : Nat
  failed   : Byte
  degraded : Bool
  peer     : Nat
  txKey    : BitVec 256
  rxKey    : BitVec 256
  txEpoch  : Nat
  rxEpoch  : Nat
  nonce    : Nat
  rxNonce  : Option Nat
  txSeq    : Nat
  rxSeq    : Nat
  gap      : Bool
  replay   : List (Nat × Msg)
  reqSeq   : Nat
  reqRun   : Nat
  credits  : List Nat
  returned : List Nat
  txq      : List (Bool × Msg)
  prio     : List Nat
  rot      : Nat
  rxq      : List Msg
deriving DecidableEq, Repr

/-- Eight lane counters at one value. -/
def lanes8 (n : Nat) : List Nat := List.replicate 8 n

/-- A port that is DOWN; what R320 exchanges when a link comes UP is a design choice here (log 2). -/
def downPort : FabPort :=
  { st := 0, failed := 0, degraded := false, peer := 0, txKey := 0, rxKey := 0, txEpoch := 0,
    rxEpoch := 0, nonce := 0, rxNonce := none, txSeq := 0, rxSeq := 0, gap := false, replay := [],
    reqSeq := 0, reqRun := 0, credits := lanes8 0, returned := lanes8 0, txq := [],
    prio := List.replicate 16 0, rot := 0, rxq := [] }

/-- What a fabric request of this device serves (11 R340). -/
inductive OutUse where
  | copy (engine : Nat)
  | heartbeat
  | fan (id member : Nat) (self : Bool)
  | notice
deriving DecidableEq, Repr

/-- An outstanding request by TAG (11 R339, R340), with the message as sent. -/
structure Out where
  tag  : Nat
  port : Nat
  use  : OutUse
  msg  : Msg
deriving DecidableEq, Repr

/-- The duplicate filter's entry for one source and channel (11 R339): H and the record, bit i for
H − i. -/
structure DupFilter where
  high : Word
  seen : D64
deriving DecidableEq, Repr

/-- A cleared filter entry; H of 0 with nothing recorded is a design choice (log 21). -/
def clearFilter : DupFilter := { high := 0, seen := 0 }

/-- A member of this manager (11 R350 to R352): its ID, whether it is lost, and its latest telemetry
summary. -/
structure Member where
  id      : Nat
  lost    : Bool
  summary : List Byte
deriving DecidableEq, Repr

/-- A request header kept for a response that has not left (12 R375, R380), with the port and source its
request came from (R366). -/
structure Resp where
  origin : Origin
  port   : Nat
  source : Nat
  opcode : Nat
  seq    : D64
  tag    : D64
  order  : Bool
deriving DecidableEq, Repr

/-- A member that a fan-out waits for (11 R351): for its own answer (`self`) or for that of its subtree, and the
number of devices the answer speaks for. -/
structure Awaited where
  member  : Nat
  self    : Bool
  devices : Nat
deriving DecidableEq, Repr

/-- A fan-out in progress (11 R351): the response it ends in, the answers it waits for, and the counts. -/
structure Fan where
  id       : Nat
  resp     : Resp
  waiting  : List Awaited
  okCount  : Nat
  fail     : Option (Nat × Nat)
  noAnswer : Nat
deriving DecidableEq, Repr

/-- The fabric of the device (11): ports, route table, entries that have failed over, outstanding
requests, the next TAG, the received messages that no event has taken yet, with their ports, in order of arrival
(R341), sequence counters by 2 × destination + channel, the duplicate filter by
2 × source + channel, fabric mailboxes, discarded messages, the session of MSG_SINK, the manager's
members and fan-outs, and the device's own heartbeats. -/
structure Fab where
  ports    : SMap FabPort
  routes   : SMap Word
  sticky   : SMap Bool
  outs     : List Out
  nextTag  : Nat
  arrived  : List (Nat × Msg)
  seqs     : SMap Word
  filters  : SMap DupFilter
  boxes    : SMap (List Msg)
  discards : Nat
  sink     : Option Nat
  members  : List Member
  fans     : List Fan
  nextFan  : Nat
  beats    : Nat
  unacked  : Nat
deriving DecidableEq, Repr

/-- One chunk of a context: its children's contributions by port, whether the partial has been sent up,
and whether its result has been delivered and forwarded. -/
structure Chunk where
  kids   : List (Nat × List Word)
  sent   : Bool
  done   : Bool
deriving DecidableEq, Repr

/-- A chunk nothing has arrived for. -/
def emptyChunk : Chunk := { kids := [], sent := false, done := false }

/-- A Lovage context (11 R343 to R348, 12 R391): its image (Table 11.8), whether it has OPENED from its
parent, the store it reserved in bytes, its chunks, and the tree command's binding: armed, AUTO,
START and DONE signals, start value, generations since the START, and the session that asked. -/
structure LovCtx where
  image   : BitVec 512
  opened  : Bool
  store   : Nat
  chunks  : SMap Chunk
  armed   : Bool
  auto    : Bool
  startSig : Nat
  doneSig : Nat
  startVal : D64
  gen     : Nat
  asked   : Option Nat
deriving DecidableEq, Repr

/-- A FREE context (11 Table 11.8); no signal is bound. -/
def freeCtx : LovCtx :=
  { image := 0, opened := false, store := 0, chunks := [], armed := false, auto := false,
    startSig := 0xFFFF, doneSig := 0xFFFF, startVal := 0, gen := 0, asked := none }

/-! ## Host ports, sessions, the dispatcher (12) -/

/-- A frame the device sends (12 R363, R364): clear handshake frames have session 0. -/
structure TxFrame where
  session : Nat
  source  : Nat
  clear   : Bool
  event   : Bool
  more    : Bool
  opcode  : Nat
  status  : Nat
  mailbox : Nat
  seq     : D64
  tag     : D64
  alive   : BitVec 16
  payload : List Byte
deriving DecidableEq, Repr

/-- How a frame is carried (12 R363): raw under an EtherType, or in UDP from the port's IPv4 or IPv6 address. -/
inductive TxCarried where
  | raw (ethertype : BitVec 16)
  | udp4 (src : Word)
  | udp6 (src : BitVec 128)
deriving DecidableEq, Repr

/-- A frame on its way out (12 R359, R360, R363, R364, R369): its VLAN tag with PCP, how it is carried and whether its
UDP checksum is computed (it is 0 otherwise), the Spaolo header, the 96-bit nonce its payload is sealed under, and
the frame itself, whose `source` it goes to. -/
structure TxPacket where
  tag     : Option (BitVec 12 × BitVec 3)
  carried : TxCarried
  summed  : Bool
  header  : BitVec 256
  nonce   : Option (BitVec 96)
  frame   : TxFrame
deriving DecidableEq, Repr

/-- An answer to an ARP request or a neighbour solicitation for the port's own address (12 R359): its VLAN tag, the
address, and whom it goes to. -/
structure Neighbour where
  tag    : Option (BitVec 12 × BitVec 3)
  addr   : Word ⊕ BitVec 128
  source : Nat
deriving DecidableEq, Repr

/-- A host port (12 R358 to R365): whether its link has PCS and FEC lock, the frames that wait in the
receive buffer, the transfers in flight, whether it pauses its peer and is paused, the frames and the answers to
neighbours that wait to be sent, and the WAKE frames of the sample period (14 Table 14.1). -/
structure HostPort where
  link   : Bool
  rxbuf  : List Frame
  xfers  : List Frame
  pausing : Bool
  paused : Bool
  txq    : List TxPacket
  nbrs   : List Neighbour
  wakes  : Nat
deriving DecidableEq, Repr

/-- A host port without link and with nothing in it. -/
def idleHost : HostPort :=
  { link := false, rxbuf := [], xfers := [], pausing := false, paused := false, txq := [], nbrs := [], wakes := 0 }

/-- A stream (12 R371): NEXT, and the stored responses of its last 64 commands. -/
structure Stream where
  next  : Nat
  resps : List (Nat × List TxFrame)
deriving DecidableEq, Repr

/-- A stream before its first command (12 R371). -/
def newStream : Stream := { next := 1, resps := [] }

/-- A session (12 R366 to R371, R384): keys, IDLE_S, the receiver's highest counter and record, the
sender's counter, the EVENT SEQ, the last authenticated frame's port and source, whether a frame has
come since the last idle second, the periods it subscribed to, and its streams by mailbox. -/
structure Session where
  h2d     : BitVec 256
  d2h     : BitVec 256
  idleS   : Nat
  high    : Option Nat
  seen    : D64
  txCnt   : Nat
  evSeq   : Nat
  port    : Nat
  source  : Nat
  subs    : List Nat
  streams : SMap Stream
deriving DecidableEq, Repr

/-- A handshake in progress (12 R366 to R368): T1, the device's signature over it, and the shared secret. -/
structure Handshake where
  id     : Nat
  port   : Nat
  source : Nat
  keyId  : BitVec 512
  idleS  : Nat
  t1     : BitVec 512
  sign   : List Byte
  secret : BitVec 256
deriving DecidableEq, Repr

/-- The host ports of the device: ports, sessions by number, handshakes, and host mailboxes with
the port each frame came in on, and the streams (session, mailbox) with a command in their mailbox, in the order in
which that command reached the head of its stream (R379). -/
structure Hpt where
  ports    : SMap HostPort
  sessions : SMap (Option Session)
  shakes   : List Handshake
  nextShake : Nat
  boxes    : SMap (List (Nat × Frame))
  heads    : List (Nat × Nat)
deriving DecidableEq, Repr

/-- A loaded module (12 R378). -/
structure Module where
  addr : Nat
  len  : Nat
deriving DecidableEq, Repr

/-- State of one task of a work item: waiting for its core, resident on it, or ended. -/
inductive PartSt where
  | waiting | resident | ended
deriving DecidableEq, Repr

/-- One task of a work item (12 R387, 15 R463): its logical index, core, state and redispatches. -/
structure Part where
  index  : Nat
  core   : Nat
  st     : PartSt
  redisp : Nat
deriving DecidableEq, Repr

/-- A work item (12 R386 to R389): the descriptor, whether its first task has been sent, its tasks, the
session for NOTIFY, the first fault and its core, the tasks that faulted, the tasks redispatched, and
the core whose fence or the reset that ended a task of it. -/
structure WorkItem where
  item    : Nat
  launch  : Launch
  begun   : Bool
  parts   : List Part
  session : Option Nat
  fault   : Option (Nat × Nat)
  faulted : Nat
  redisp  : Nat
  abort   : Option Nat
deriving DecidableEq, Repr

/-- An open work queue (12 R386). -/
structure Queue where
  entries  : Nat
  itemRing : Nat
  compRing : Nat
  nextItem : Nat
  comps    : Nat
  items    : List WorkItem
deriving DecidableEq, Repr

/-- A pending WAIT (12 R390). -/
structure PendWait where
  id    : Nat
  resp  : Resp
  index : Nat
  value : D64
deriving DecidableEq, Repr

/-- A copy engine descriptor (12 R378, 15 R457): its request, the bytes performed, and the request on
the fabric it waits for. -/
structure CopyDesc where
  resp  : Resp
  src   : D64
  dst   : D64
  len   : Nat
  cls   : Nat
  off   : Nat
  tag   : Option Nat
  status : Nat
deriving DecidableEq, Repr

/-- A copy engine channel (15 R457). -/
structure Engine where
  descs  : List CopyDesc
  halted : Bool
deriving DecidableEq, Repr

/-- The dispatcher and firmware tables (12): modules by handle, open queues, the
rotation over queues, signals, pending WAITs, copy engines, FENCE_CORE commands that wait for their
fence. -/
structure Disp where
  modules : SMap (Option Module)
  queues  : SMap (Option Queue)
  rot     : Nat
  signals : SMap D64
  waits   : List PendWait
  nextWait : Nat
  engines : SMap Engine
  fencing : List (Nat × Resp)
deriving DecidableEq, Repr

/-- A copy engine with no descriptor. -/
def idleEngine : Engine := { descs := [], halted := false }

/-! ## Sorrel (14), bond wear (01 R35 to R39) -/

/-- An element of a rule (14 R427, R428): IIR state, last values, filtered values of the rate window,
hold count, fired, whether its count has been reached and the action not yet taken, and the value z. -/
structure RuleEl where
  y     : Option Rat
  win   : List Int
  past  : List Rat
  cnt   : Nat
  fired : Bool
  due   : Bool
  z     : Rat
deriving DecidableEq, Repr

/-- An element with no history (14 R431). -/
def freshEl : RuleEl := { y := none, win := [], past := [], cnt := 0, fired := false, due := false, z := 0 }

/-- A sensor (14 R437 to R443): latest reading, last five readings and medians, periods unchanged and
the neighbours' median then, periods of the neighbour and estimate conditions, broken kind, the kind
found and not yet recorded, and the built-in protections' holds and counts. -/
structure Sensor where
  raw    : Int
  hist   : List Int
  meds   : List Int
  same   : Nat
  nbAt   : Int
  nbCnt  : Nat
  estCnt : Nat
  kind   : Nat
  found  : Nat
  limit  : Bool
  limCnt : Nat
  trip   : Nat
  rate   : Bool
  rateCnt : Nat
  warnGap : Nat
deriving DecidableEq, Repr

/-- A sensor that nothing has read yet; a reading of 0 is a design choice (log 2). -/
def freshSensor : Sensor :=
  { raw := 0, hist := [], meds := [], same := 0, nbAt := 0, nbCnt := 0, estCnt := 0, kind := 0, found := 0,
    limit := false, limCnt := 0, trip := 0, rate := false, rateCnt := 0, warnGap := 0 }

/-- A bond zone (01 R36): its count in units of 1/1,024 swing, its residue of turning points, and the
latest temperature sample that is not yet a turning point. -/
structure Zone where
  count : Nat
  resid : List Int
  last  : Option Int
deriving DecidableEq, Repr

/-- A zone with nothing counted. -/
def freshZone : Zone := { count := 0, resid := [], last := none }

/-- Sorrel (14): whether it runs, whether the fast rails are on, whether P54 is in range, an orderly
power-down under way, whether the bus converters have stopped since t = 0, rule elements at 64 × rule +
element, sensors, estimates of the cache die sensors, the leak state, bond zones (0 to 63 upper, 64 to 79
lower), the milliseconds until the next EV_THROTTLE of each cluster, the droop episodes that wait for the
period's end (cluster, lowest mV, microseconds), the temperatures of the latest compensation by TS_B, the SMBus
address, and what the management link has read last. -/
structure Sorrel where
  running : Bool
  rails   : Bool
  p54Ok   : Bool
  down    : Bool
  orderly : Bool
  stopped : Bool
  els     : SMap RuleEl
  sensors : SMap Sensor
  est     : List Rat
  leak    : Nat
  zones   : SMap Zone
  levels  : SMap Nat
  warns   : List (Nat × Nat × Nat)
  comp    : List Int
  smbus   : Nat
  mgmtOut : List ErrRec
  mgmtRead : D64
deriving DecidableEq, Repr

/-! ## Bring-up, flash and fuses (16) -/

/-- What a firmware slot holds (16 R489): whether a complete image stands in it, whether it was left partly
written (R492), ROLLBACK and VERSION. -/
structure Slot where
  whole    : Bool
  part     : Bool
  rollback : Nat
  version  : D64
deriving DecidableEq, Repr

/-- An empty slot. -/
def emptyFw : Slot := { whole := false, part := false, rollback := 0, version := 0 }

/-- Module flash (16 R489 to R497): the slots at 2 × component + slot, the two copies of the commit
word, the owner list, the stored memory mode and envelope, host port settings by register, role and ID,
the owner's rule table, the retired-frame, bank and fence lists, the error log and the bond zones. -/
structure Flash where
  slots   : SMap Slot
  commit  : List D64
  owners  : Option (List (BitVec 512))
  mode    : Nat
  envelope : Nat
  ports   : SMap D64
  role    : D64
  ident   : D64
  rules   : Option (List D64)
  frames  : List Nat
  banks   : List (Nat × Nat)
  fences  : List Nat
  log     : List ErrRec
  zones   : SMap Zone
deriving DecidableEq, Repr

/-- Fuses (16 R493, R496; 01 R34; 14 R441): the yield map's cores and banks, the rollback counter,
FUSED_ID and the masked sensors. -/
structure Fuses where
  cores    : List Nat
  banks    : List (Nat × Nat)
  rollback : Nat
  fusedId  : D64
  masked   : List Nat
deriving DecidableEq, Repr

/-- Bring-up and resets (16): whether step 1 waits for the reference (13 R417), whether step 2 has verified
the main firmware, whether a checker of R479 failed, whether the quiesce of a base reset runs, whether a base
reset restarts the base die, the resets that wait (kind, index, trigger; R481), the scan scopes that are open,
the debug nonce, the measurements of R495, and VERSION and ROLLBACK of the running main firmware. -/
structure Boot where
  waitRef  : Bool
  verified : Bool
  selfFail : Bool
  quiesce  : Bool
  base     : Bool
  queued   : List (Nat × Nat × Nat)
  scan     : BitVec 3
  nonce    : Option (BitVec 256)
  measured : List (BitVec 512)
  fwVersion : D64
  fwRollback : Nat
deriving DecidableEq, Repr

/-- A check-value unit (15 R466 to R469): EN 0 waits for a boundary, and the alive check's last
counter. Its registers are stored as such. -/
structure Cvu where
  pausing : Bool
  last    : Option Nat
deriving DecidableEq, Repr

/-- A unit with no counter seen (15 R469). -/
def freshCvu : Cvu := { pausing := false, last := none }

/-! ## The device -/

/-- Everything but the queue of commands: cores, requests in flight, the next issue number, the index of
the next free value (the model's own, log 3), microseconds counted while the block idled (log 1), the
stored registers, the result of the last register and window read, cache slices, miss tables, memory,
page map, networks, budgets, funnel, clusters, fabric, Lovage, host ports, dispatcher, Sorrel, module
flash, fuses, bring-up and check-value units. -/
structure Dev where
  cores  : SMap Core
  reqs   : List Req
  nextId : Nat
  free   : Nat
  now    : Nat
  regs   : SMap D64
  lastRead : D64
  win    : Nat × List Byte
  slices : SMap Slice
  miss   : List Miss
  thrash : SMap Thrash
  deadEv : SMap (Nat × Nat)
  mem    : List Host.Cell
  pmap   : SMap D64
  shoot  : Option Shoot
  btc    : List (Nat × D64)
  errs   : List ErrMark
  chk    : SMap (List (Nat × Bool))
  xts    : Option (BitVec 512)
  scrub  : Scrub
  banks  : SMap BankPort
  net    : Net
  expiry : SMap Nat
  fencedRes : List Nat
  unreach : List (Nat × Nat)
  budget : SMap Budget
  funnel : Funnel
  clusters : SMap Cluster
  fab    : Fab
  lov    : SMap LovCtx
  hpt    : Hpt
  disp   : Disp
  sor    : Sorrel
  flash  : Flash
  fuses  : Fuses
  boot   : Boot
  cvus   : SMap Cvu
deriving DecidableEq, Repr

/-- The state of the block: the device and the commands that wait, first in, first out. -/
structure State where
  dev     : Dev
  pending : List Instr
deriving DecidableEq, Repr

/-! ## Reset -/

/-- No pass has begun (09 R287). -/
def resetScrub : Scrub :=
  { running := false, again := false, cacheDone := true, memDone := true, cachePos := 0, memPos := 0 }

/-- The funnel with nothing in it (15 R451, R501). -/
def resetFunnel : Funnel :=
  { srcq := [], overflow := [], ring := [], seq := 0, mgmtq := [], escq := [],
    flashq := [], ce := [], sevs := [0, 0, 0, 0] }

/-- The fabric with every port DOWN and no route (11 R330, R339). -/
def resetFab : Fab :=
  { ports := [], routes := [], sticky := [], outs := [], nextTag := 0, arrived := [], seqs := [], filters := [],
    boxes := [], discards := 0, sink := none, members := [], fans := [], nextFan := 0, beats := 0,
    unacked := 0 }

/-- No session, handshake or frame (12 R366). -/
def resetHpt : Hpt :=
  { ports := [], sessions := [], shakes := [], nextShake := 0, boxes := [], heads := [] }

/-- No module, queue, signal, WAIT or descriptor (12 R390). -/
def resetDisp : Disp :=
  { modules := [], queues := [], rot := 0, signals := [], waits := [], nextWait := 0,
    engines := [], fencing := [] }

/-- Sorrel before it starts (16 R472). -/
def resetSorrel : Sorrel :=
  { running := false, rails := false, p54Ok := false, down := false, orderly := false,
    stopped := false, els := [], sensors := [], est := [], leak := 0, zones := [], levels := [], warns := [], comp := [],
    smbus := 0x62, mgmtOut := [],
    mgmtRead := 0 }

/-- Module flash of the model's machine: image version 0 in slot A of each component, nothing stored
(log 6). -/
def resetFlash : Flash :=
  { slots := [(0, { whole := true, part := false, rollback := 0, version := 0 }),
      (2, { whole := true, part := false, rollback := 0, version := 0 })],
    commit := [0, 0], owners := none, mode := 0, envelope := 0, ports := [], role := 0, ident := 0,
    rules := none, frames := [], banks := [], fences := [], log := [], zones := [] }

/-- Fuses of the model's machine: no core or bank retired, counter 0 (log 6). -/
def resetFuses : Fuses := { cores := [], banks := [], rollback := 0, fusedId := 0, masked := [] }

/-- Bring-up before step 1 (16 R471). -/
def resetBoot : Boot :=
  { waitRef := false, verified := false, selfFail := false, quiesce := false, base := false, queued := [],
    scan := 0, nonce := none, measured := [], fwVersion := 0, fwRollback := 0 }

/-- The device right after power-on reset: every register at its reset value, every memory empty,
bring-up not begun (16 R471, R480, R482). -/
def Dev.reset : Dev :=
  { cores := [], reqs := [], nextId := 1, free := 0, now := 0, regs := [], lastRead := 0, win := (0, []),
    slices := [], miss := [], thrash := [], deadEv := [], mem := [], pmap := [], shoot := none, btc := [],
    errs := [], chk := [], xts := none, scrub := resetScrub, banks := [], net := emptyNet, expiry := [], fencedRes := [], unreach := [],
    budget := [], funnel := resetFunnel, clusters := [], fab := resetFab, lov := [], hpt := resetHpt,
    disp := resetDisp, sor := resetSorrel, flash := resetFlash, fuses := resetFuses, boot := resetBoot,
    cvus := [] }

/-- The block right after power-on reset, with no command waiting. -/
def State.reset : State := { dev := Dev.reset, pending := [] }

end Sys2Proof.Machine
end

