-- ==== Sys2Proof/Machine/Regs.lean ====
section
/-! DEFINITION. The registers of the local address map held raw (00 R13 to R16): addresses, reset
values, reads and writes of the stored word. Views that show other state are composed in
`Machine/Registers.lean`. -/

namespace Sys2Proof.Machine

/-! ## Sparse maps -/

/-- What key `k` reads as, `dv` when it is not listed. -/
def mapGet {α : Type} (dv : α) : SMap α → Nat → α
  | [], _ => dv
  | (j, v) :: m, k => if j = k then v else mapGet dv m k

/-- The map without key `k`. -/
def mapDel {α : Type} (m : SMap α) (k : Nat) : SMap α := m.filter fun e => e.1 != k

/-- Insert into a list sorted by `le`, before the first element that is not below. -/
def insertBy {α : Type} (le : α → α → Bool) (a : α) : List α → List α
  | [] => [a]
  | b :: l => if le a b then a :: b :: l else b :: insertBy le a l

/-- A list sorted by `le`; elements that are equal under it keep their order. -/
def sortBy {α : Type} (le : α → α → Bool) : List α → List α
  | [] => []
  | a :: l => insertBy le a (sortBy le l)

/-- Insert an entry before the first larger key. -/
def mapIns {α : Type} (k : Nat) (v : α) : SMap α → SMap α
  | [] => [(k, v)]
  | e :: m => if k < e.1 then (k, v) :: e :: m else e :: mapIns k v m

/-- Give key `k` the value `v`, keeping the canonical form: an entry equal to `dv` is removed. -/
def mapPut {α : Type} [DecidableEq α] (dv : α) (m : SMap α) (k : Nat) (v : α) : SMap α :=
  if v = dv then mapDel m k else mapIns k v (mapDel m k)

/-! ## Bit fields -/

/-- Bits [lo + w - 1 : lo] of `x` as a number. -/
def bits {n : Nat} (x : BitVec n) (lo w : Nat) : Nat := x.toNat / 2 ^ lo % 2 ^ w

/-- Bit `i` of `x`. -/
def bit {n : Nat} (x : BitVec n) (i : Nat) : Bool := x.getLsbD i

/-- `x` with bits [lo + w - 1 : lo] replaced by the low bits of `v`. -/
def setBits {n : Nat} (x : BitVec n) (lo w v : Nat) : BitVec n :=
  (x &&& ~~~(BitVec.ofNat n ((2 ^ w - 1) * 2 ^ lo))) ||| BitVec.ofNat n (v % 2 ^ w * 2 ^ lo)

/-- A Boolean as a number. -/
def b2n (b : Bool) : Nat := if b then 1 else 0

/-! ## Addresses (captions of the register tables) -/

/-- CCW(n), the core control window (02 R67). -/
def ccw (n : Nat) : Nat := 0x7C0000000000 + n * 0x100000
/-- CDCW(h), the cache die control window (08 R258). -/
def cdcw (h : Nat) : Nat := 0x7D0000000000 + h * 0x100000
def aBarLimit (n : Nat) : Nat := ccw n + 0x40
def aRuCtrl (n : Nat) : Nat := ccw n + 0x110
def aSpxErr (n : Nat) : Nat := ccw n + 0x320
def aCdcCtrl (h : Nat) : Nat := cdcw h
def aCdcStatus (h : Nat) : Nat := cdcw h + 0x8
def aWbCtrl (h : Nat) : Nat := cdcw h + 0x10
def aWbStatus (h : Nat) : Nat := cdcw h + 0x18
def aThrashCfg (h k : Nat) : Nat := cdcw h + 0x80 + 8 * k
def aThrashStatus (h : Nat) : Nat := cdcw h + 0xC0
def aDeadLast (h : Nat) : Nat := cdcw h + 0xC8
def aCnt (h k e : Nat) : Nat := cdcw h + 0x1000 + 64 * k + 8 * e
def aPgmMode : Nat := 0x7B0000400000
def aShoot : Nat := 0x7B0000400010
def aScrubCtrl : Nat := 0x7B0000400020
def aScrubStatus : Nat := 0x7B0000400028
def aChan (c : Nat) : Nat := 0x7B0000400100 + 8 * c
def aClassPrio : Nat := 0x7E0000100000
def aWdogCfg : Nat := 0x7E0000100008
def aWdogStatus : Nat := 0x7E0000100010
def aWdogLast : Nat := 0x7E0000100018
def aWayMask (k : Nat) : Nat := 0x7E0000100040 + 8 * k
def aMissShare (k : Nat) : Nat := 0x7E0000100080 + 8 * k
def aMcqShare (k : Nat) : Nat := 0x7E00001000C0 + 8 * k
def aBw (k h : Nat) : Nat := 0x7E0000100200 + 16 * k + 8 * h
def aMbw (k : Nat) : Nat := 0x7E0000100300 + 8 * k
def aBudget (m : Nat) : Nat := 0x7E0000110000 + 8 * m
def aFabId : Nat := 0x7E0000140000
def aFabRole : Nat := 0x7E0000140008
def aFabCfg : Nat := 0x7E0000140010
def aRtIndex : Nat := 0x7E0000140020
def aRtData : Nat := 0x7E0000140028
def aLovCmd : Nat := 0x7E0000140030
def aLovStatus : Nat := 0x7E0000140038
def aFabPort (p : Nat) : Nat := 0x7E0000140100 + 8 * p
def aLovCtx (c : Nat) : Nat := 0x7E0000150000 + 64 * c
def aHptCfg (p : Nat) : Nat := 0x7E0000180000 + 0x100 * p
def aHptStatus (p : Nat) : Nat := 0x7E0000180008 + 0x100 * p
def aHptIpv4 (p : Nat) : Nat := 0x7E0000180010 + 0x100 * p
def aHptIpv6Hi (p : Nat) : Nat := 0x7E0000180018 + 0x100 * p
def aHptIpv6Lo (p : Nat) : Nat := 0x7E0000180020 + 0x100 * p
def aPwrInput : Nat := 0x7E0000080000
def aNoticeCfg : Nat := 0x7E0000080008
def aNoticeStatus : Nat := 0x7E0000080010
def aClkStatus : Nat := 0x7E0000080020
def aUsec : Nat := 0x7E0000080028
def aRail (r : Nat) : Nat := 0x7E0000080100 + 8 * r
def aCluster (c : Nat) : Nat := 0x7E0000080400 + 8 * c
def aEnv : Nat := 0x7E0000040008
def aThermalCfg : Nat := 0x7E0000040010
def aDroopCfg : Nat := 0x7E0000040018
def aAlertCfg : Nat := 0x7E0000040028
def aSensorClr : Nat := 0x7E0000040030
def aWearUp : Nat := 0x7E0000040100
def aWearLo : Nat := 0x7E0000040108
def aSorCluster (c : Nat) : Nat := 0x7E0000040400 + 8 * c
def aRuleLo (i : Nat) : Nat := 0x7E0000041000 + 16 * i
def aRuleHi (i : Nat) : Nat := 0x7E0000041008 + 16 * i
def aRuleState (i : Nat) : Nat := 0x7E0000041400 + 8 * i
def aSrc (v : Nat) : Nat := 0x7E0000042000 + 8 * v
def aTs (j : Nat) : Nat := 0x7E0000044000 + 8 * j
def aChervil (c : Nat) : Nat := 0x7E0000049000 + 8 * c
def aErrCfg : Nat := 0x7E000004A000
def aErrStatus : Nat := 0x7E000004A008
def aErrInject : Nat := 0x7E000004A010
def aCoreFence (w : Nat) : Nat := 0x7E000004A100 + 8 * w
def aErrRing : Nat := 0x7E0000050000
/-- CVUW(u), the window of a check-value unit (15 R470). -/
def cvuw (u : Nat) : Nat := 0x7E00000C0000 + 0x40 * u
def aSecBoot : Nat := 0x7E0000000000
def aResetCause : Nat := 0x7E0000000008
def aResetCtrl : Nat := 0x7E0000000010
def aRollback : Nat := 0x7E0000000018

/-- Whether `a` is one of `n` registers from `base`, `stride` bytes apart. -/
def inSeries (a base stride n : Nat) : Bool :=
  decide (base ≤ a) && decide ((a - base) % stride = 0) && decide ((a - base) / stride < n)

/-- The reset value of the register at local address `a`, as its table gives it; 0 for every
register whose table gives 0 and for addresses without a register. -/
def regReset (a : Nat) : D64 :=
  if 0x7C0000000000 ≤ a ∧ a < 0x7C0080000000 then
    let o := a % 0x100000
    if o = 0x40 then 0x1000000 else if o = 0x110 then 0x82 else 0
  else if 0x7D0000000000 ≤ a ∧ a < 0x7D0000200000 then
    let o := a % 0x100000
    if o = 0 then 0x41 else if inSeries o 0x80 8 8 then 0x8A8400C0 else 0
  else if a = aScrubCtrl then 0x315180
  else if a = aClassPrio then 0xC0A68644
  else if a = aWdogCfg then 0x300010000
  else if inSeries a (aWayMask 0) 8 8 then 0xFFFFFFFF
  else if inSeries a (aMissShare 0) 8 8 then 0x40000010000
  else if inSeries a (aMcqShare 0) 8 8 then 0x800000100
  else if inSeries a (aBudget 0) 8 2124 then 0x100000000
  else if a = aFabCfg then 0x00000A0A03E80010
  else if a = aLovStatus then 0x0001000000000000
  else if inSeries a (aHptCfg 0) 0x100 2 then 0xE600008088B5B996
  else if a = aNoticeCfg then 0x80070C1000500014
  else if inSeries a (aCluster 0) 8 64 then 0x000003E800000000
  else if a = aEnv then 0x0E10076C
  else if a = aThermalCfg then 0x14320C0A14000000
  else if a = aDroopCfg then 0x00003C9600640000
  else if a = aAlertCfg then 0x2
  else if a = aErrCfg then 0x02B00A0000000000
  else if 0x7E00000C0000 ≤ a ∧ a < 0x7E00000C0800 ∧ a % 0x40 = 0 then 0x4000000000000000
  else 0

/-- The stored word of the register at `a`. -/
def regGet (d : Dev) (a : Nat) : D64 := mapGet (regReset a) d.regs a

/-- Store a word in the register at `a`. -/
def regPut (d : Dev) (a : Nat) (v : D64) : Dev := { d with regs := mapPut (regReset a) d.regs a v }

/-- A field of a stored register. -/
def regField (d : Dev) (a lo w : Nat) : Nat := bits (regGet d a) lo w

/-- Write a field of a stored register. -/
def regSet (d : Dev) (a lo w v : Nat) : Dev := regPut d a (setBits (regGet d a) lo w v)

/-- Add to a counter field, saturating at its width. -/
def regSat (d : Dev) (a lo w n : Nat) : Dev :=
  regSet d a lo w (min (regField d a lo w + n) (2 ^ w - 1))

/-- Add to a counter field, wrapping at its width. -/
def regWrap (d : Dev) (a lo w n : Nat) : Dev := regSet d a lo w (regField d a lo w + n)

/-- Give every register of [lo, hi) its reset value (00 R16). -/
def regsReset (d : Dev) (lo hi : Nat) : Dev :=
  { d with regs := d.regs.filter fun e => e.1 < lo || hi ≤ e.1 }

end Sys2Proof.Machine
end

