-- ==== Sys2Proof/Machine/Ops.lean ====
section
/-! DEFINITION. The named operations over the state that the meanings share: answering an outcome,
cores and groups, the error funnel's source queues, taking a fault, barriers, and free values. -/

namespace Sys2Proof.Machine

/-! ## Outcomes -/

/-- The outcome of a command that always has its effect. -/
def ok (s : State) (d : Dev) : Host.Outcome State Fault Refusal := .next { s with dev := d }

/-- The outcome of an event: its effect, or a refusal by name where its conditions do not hold. -/
def gated (s : State) (m : String) (r : Option Dev) : Host.Outcome State Fault Refusal :=
  match r with
  | some d => .next { s with dev := d }
  | none => .refused (.notEnabled m)

/-- `r` when the conditions of an event hold. -/
def whenB {α : Type} (c : Bool) (r : α) : Option α := if c then some r else none

/-! ## Numbers -/

/-- A free 64-bit value and the state with the next one ahead (log 3). -/
def takeFree (d : Dev) : D64 × Dev := (Config.freeWord d.free, { d with free := d.free + 1 })

/-- The next number in issue order and the state after it. -/
def takeId (d : Dev) : Nat × Dev := (d.nextId, { d with nextId := d.nextId + 1 })

/-- Sign-extend the low `w` bits of `x`. -/
def signed (w x : Nat) : Int := if x % 2 ^ w < 2 ^ (w - 1) then (x % 2 ^ w : Nat) else (x % 2 ^ w : Nat) - (2 ^ w : Nat)

/-- The value of an integer modulo 2^w. -/
def wrap (w : Nat) (i : Int) : Nat := (i % (2 ^ w : Nat)).toNat

/-- An integer modulo 2^64 as a word. -/
def toD (i : Int) : D64 := BitVec.ofNat 64 (wrap 64 i)

/-- Round up a division. -/
def ceilDiv (a b : Nat) : Nat := (a + b - 1) / b

/-! ## Cores and clusters -/

def getCore (d : Dev) (n : Nat) : Core := mapGet freshCore d.cores n
def putCore (d : Dev) (n : Nat) (c : Core) : Dev := { d with cores := mapPut freshCore d.cores n c }
def getCluster (d : Dev) (c : Nat) : Cluster := mapGet freshCluster d.clusters c
def putCluster (d : Dev) (c : Nat) (k : Cluster) : Dev :=
  { d with clusters := mapPut freshCluster d.clusters c k }

/-- Whether core `n` is fenced (15 Table 15.21). -/
def coreFenced (d : Dev) (n : Nat) : Bool := bit (regGet d (aCoreFence (n / 64))) (n % 64)

/-- The throttle level in force on a cluster. -/
def levelOf (d : Dev) (c : Nat) : Nat := regField d (aSorCluster c) 61 3

/-- Whether core `n` runs: its cluster is AWAKE with a clock, which T7 stops, and it is neither fenced nor being fenced
(13 R420, 14 R432, 15 R461). -/
def coreUp (d : Dev) (n : Nat) : Bool :=
  decide ((getCluster d (n / 32)).st = .awake) && decide (levelOf d (n / 32) ≠ 7) && !coreFenced d n && !(getCore d n).fencing

def getGroup (c : Core) (g : Nat) : Option Group := mapGet none c.groups g
def putGroup (c : Core) (g : Nat) (o : Option Group) : Core :=
  { c with groups := mapPut none c.groups g o }

/-- The task at a position of a core (02 R63). -/
def getTask (c : Core) (pos : Bool) : Option Task := if pos then c.task1 else c.task0
def putTask (c : Core) (pos : Bool) (t : Option Task) : Core :=
  if pos then { c with task1 := t } else { c with task0 := t }

/-! ## Lanes and registers -/

/-- Thread `t` of a group (02 R42). -/
def laneOf (g : Group) (t : Nat) : Lane := g.lanes.getD t deadLane

/-- A value for each of the 32 lanes. -/
def perLane {α : Type} (f : Nat → α) : List α := (List.range 32).map f

/-- Replace the threads of a group lane by lane. -/
def mapLanes (g : Group) (f : Nat → Lane → Lane) : Group :=
  { g with lanes := perLane fun t => f t (laneOf g t) }

/-- The lanes of a set, ascending. -/
def lanesOf (m : List Bool) : List Nat := (List.range 32).filter fun t => m.getD t false

/-- Whether lane `t` is in a set. -/
def onLane (m : List Bool) (t : Nat) : Bool := m.getD t false

/-- A lane set as the 32-bit mask of a record or of BALLOT. -/
def laneMask (m : List Bool) : Nat :=
  (List.range 32).foldl (fun a t => if m.getD t false then a + 2 ^ t else a) 0

/-- The group register of a group with every lane 0 (02 R64). -/
def zeroRow : Row := List.replicate 32 0

/-- Thread register `r` of lane `t`; XZ reads as 0 (03 R70). -/
def readX (g : Group) (r t : Nat) : Word :=
  if r = 255 then 0 else (mapGet zeroRow g.x r).getD t 0

/-- Write thread register `r` in the lanes of `m`; XZ discards (03 R70). -/
def writeX (g : Group) (r : Nat) (m : List Bool) (v : Nat → Word) : Group :=
  if r = 255 then g
  else { g with x := mapPut zeroRow g.x r (perLane fun t => if onLane m t then v t else readX g r t) }

/-- A thread register pair as a number (03 R71); XZ as a pair reads as 0. -/
def readXPair (g : Group) (r t : Nat) : Nat :=
  if r = 255 then 0 else (readX g r t).toNat + 2 ^ 32 * (readX g (r + 1) t).toNat

/-- Write `n` consecutive registers, each 32 bits of the value, lowest first (03 R71). -/
def writeXs (g : Group) (r n : Nat) (m : List Bool) (v : Nat → Nat) : Group :=
  if r = 255 then g
  else (List.range n).foldl
    (fun g i => writeX g (r + i) m fun t => BitVec.ofNat 32 (v t / 2 ^ (32 * i))) g

/-- Uniform register `r` (03 R72). -/
def readU (g : Group) (r : Nat) : Word := mapGet 0 g.u r
def writeU (g : Group) (r : Nat) (v : Word) : Group := { g with u := mapPut 0 g.u r v }
/-- A uniform pair as a number (03 R71). -/
def readUPair (g : Group) (r : Nat) : Nat := (readU g r).toNat + 2 ^ 32 * (readU g (r + 1)).toNat
/-- A uniform quad as a 128-bit descriptor, Ua holding bits [31:0] (04 R127). -/
def readUQuad (g : Group) (r : Nat) : BitVec 128 :=
  BitVec.ofNat 128 (readUPair g r + 2 ^ 64 * readUPair g (r + 2))

/-- Predicate `p` of lane `t` (02 R42). -/
def readP (g : Group) (p t : Nat) : Bool := bit (laneOf g t).preds p

/-- Write predicate `p` in the lanes of `m`. -/
def writeP (g : Group) (p : Nat) (m : List Bool) (v : Nat → Bool) : Group :=
  mapLanes g fun t l => if onLane m t then { l with preds := setBits l.preds p 1 (b2n (v t)) } else l

/-! ## Lead selection (02 R44) -/

/-- Whether a thread is ACTIVE. -/
def isActive (l : Lane) : Bool := decide (l.st = .active)

/-- Whether a thread is live: not EXITED (02 R42). -/
def isLive (l : Lane) : Bool := decide (l.st ≠ .exited)

/-- The candidates of R44: ACTIVE threads with a clear yield bit. -/
def candidates (g : Group) : List Nat :=
  (List.range 32).filter fun t => isActive (laneOf g t) && !(laneOf g t).yld

/-- R44's clearing of the yield bits: when no candidate is left but some thread is ACTIVE. -/
def rejoin (g : Group) : Group :=
  if candidates g = [] ∧ (List.range 32).any (fun t => isActive (laneOf g t)) then
    mapLanes g fun _ l => { l with yld := false }
  else g

/-- The lead PC of a group whose yield bits have rejoined: the least PC of a candidate. -/
def leadPc (g : Group) : Option (BitVec 47) :=
  (candidates g).foldl
    (fun b t => match b with
      | none => some (laneOf g t).pc
      | some p => if (laneOf g t).pc.toNat < p.toNat then some (laneOf g t).pc else some p) none

/-- The active set (02 R44): the candidates at the lead PC. -/
def activeSet (g : Group) (pc : BitVec 47) : List Bool :=
  perLane fun t => isActive (laneOf g t) && !(laneOf g t).yld && decide ((laneOf g t).pc = pc)

/-- Advance the PCs of a lane set past `words` instruction words (02 R45, 03 R74). -/
def advance (g : Group) (m : List Bool) (words : Nat) : Group :=
  mapLanes g fun t l => if onLane m t then { l with pc := l.pc + BitVec.ofNat 47 (8 * words) } else l

/-! ## The error funnel's source queues (15 R451, R452) -/

/-- Severities (14 R448). -/
def sevInfo : Nat := 0
def sevWarning : Nat := 1
def sevError : Nat := 2
def sevCritical : Nat := 3

/-- SOURCE of Table 15.3. -/
def src (kind n : Nat) : Word := BitVec.ofNat 32 (kind * 2 ^ 28 + n)

/-- Put a record in its source's queue. A core's queue has no bound here because a core holds its
record until it is accepted; any other source discards the record when four wait (15 R452). -/
def post (d : Dev) (r : ErrRec) : Dev :=
  let q := mapGet [] d.funnel.srcq r.source.toNat
  let ovf := mapGet false d.funnel.overflow r.source.toNat
  if r.source.toNat / 2 ^ 28 ≠ 0 ∧ 4 ≤ q.length then
    regSat { d with funnel := { d.funnel with
      overflow := mapPut false d.funnel.overflow r.source.toNat true } } aErrStatus 0 16 1
  else
    { d with funnel := { d.funnel with
        srcq := mapPut [] d.funnel.srcq r.source.toNat
          (q ++ [if ovf then { r with flags := r.flags ||| 0x10 } else r]),
        overflow := mapPut false d.funnel.overflow r.source.toNat false } }

/-- A record before acceptance (15 Table 15.1). -/
def mkRec (source : Word) (cls code sev : Nat) (l0 l1 l2 det : D64) : ErrRec :=
  { seq := 0, usec := 0, code := BitVec.ofNat 16 code, cls := BitVec.ofNat 8 cls,
    flags := BitVec.ofNat 8 sev, source := source, count := 1, loc0 := l0, loc1 := l1, loc2 := l2,
    detail := det }

/-- Severity of an event (14 Table 14.11). -/
def evSeverity (code : Nat) : Nat :=
  if code ∈ [0x0103, 0x010C, 0x0111, 0x0207, 0x0304, 0x0305, 0x0403, 0x0605] then sevCritical
  else if code ∈ [0x0108, 0x010A, 0x010E, 0x0301, 0x0603] then sevInfo
  else if code ∈ [0x0102, 0x0105, 0x0106, 0x0107, 0x0202, 0x0203, 0x0204, 0x0206, 0x0209, 0x0401,
      0x0402, 0x0501, 0x0506, 0x0507, 0x0508, 0x0601, 0x0602, 0x0604] then sevError
  else sevWarning

/-- Raise an event (14 Table 14.11, 15 Table 15.2 class 0). -/
def event (d : Dev) (source : Word) (code : Nat) (l0 l1 l2 det : Nat) : Dev :=
  post d (mkRec source 0 code (evSeverity code) (BitVec.ofNat 64 l0) (BitVec.ofNat 64 l1)
    (BitVec.ofNat 64 l2) (BitVec.ofNat 64 det))

/-- Merge key of a corrected-error record: one interval per source, code and memory (15 R452). -/
def ceKey (source : Word) (code mem : Nat) : Nat := source.toNat * 2 ^ 16 + code * 2 ^ 8 + mem

/-- Send a record of a kind that is merged: at most one per CE_GAP_MS per source, code and memory;
occurrences in between add to the COUNT of the next (15 R452). -/
def postMerged (d : Dev) (mem : Nat) (r : ErrRec) : Dev :=
  let k := ceKey r.source r.code.toNat mem
  let e := mapGet (0, 0) d.funnel.ce k
  if e.1 = 0 then
    let gap := max 1 (regField d aErrCfg 40 8)
    post { d with funnel := { d.funnel with ce := mapPut (0, 0) d.funnel.ce k (gap, 0) } }
      { r with count := BitVec.ofNat 32 (e.2 + 1) }
  else { d with funnel := { d.funnel with ce := mapPut (0, 0) d.funnel.ce k (e.1, e.2 + 1) } }

/-- A MEMORY record (15 Table 15.2 class 2). Corrected errors are merged, the others are not. -/
def memRecord (d : Dev) (source : Word) (code mem unit : Nat) (l1 l2 det : Nat) (inj : Bool) : Dev :=
  let r0 := mkRec source 2 code (if code = 1 then sevInfo else sevError)
    (BitVec.ofNat 64 (mem * 2 ^ 56 + unit % 2 ^ 56)) (BitVec.ofNat 64 l1) (BitVec.ofNat 64 l2)
    (BitVec.ofNat 64 det)
  let r := { r0 with flags := r0.flags ||| (if code = 1 then 0 else 4) ||| (if inj then 8 else 0) }
  if code = 1 then postMerged d mem r else post d r

/-- Numbers of the internal transfer statuses in a record: the status codes of 11 Table 11.7. -/
def rstatusCode : RStatus → Nat
  | .ok => 0
  | .ue => 5
  | .abort => 8
  | .fenced => 9
  | .baseReset => 10

/-- A TRANSFER record (15 Table 15.2 class 3). -/
def transferRecord (d : Dev) (source : Word) (code master addr len tag : Nat) : Dev :=
  post d (mkRec source 3 code sevWarning (BitVec.ofNat 64 master) (BitVec.ofNat 64 addr)
    (BitVec.ofNat 64 len) (BitVec.ofNat 64 tag))

/-- The end of a transfer: UE, ABORT, FENCED and BASE_RESET write a TRANSFER record, other statuses reach only
the requester (15 Table 15.2). -/
def noteTransfer (d : Dev) (source : Word) (code master addr len tag : Nat) : Dev :=
  if [5, 8, 9, 10].contains code then transferRecord d source code master addr len tag else d

/-- A FIRMWARE record (15 Table 15.2 class 5): `cp` is the control processor core of R454. -/
def fwRecord (d : Dev) (cp code addr value opcode : Nat) : Dev :=
  post d (mkRec (src 8 cp) 5 code sevWarning (BitVec.ofNat 64 addr) (BitVec.ofNat 64 value)
    (BitVec.ofNat 64 opcode) 0)

/-! ## Barriers (02 R55 to R57) -/

/-- The live threads of a group are all PARKED at a group barrier (02 R56). -/
def grpBarDone (g : Group) : Bool :=
  (List.range 32).any (fun t => decide ((laneOf g t).st = .parked none)) &&
  (List.range 32).all (fun t => !isLive (laneOf g t) || decide ((laneOf g t).st = .parked none))

/-- Release the threads PARKED at barrier `b`, each to the instruction after its own (02 R57). -/
def releaseBar (b : Option (BitVec 3)) (g : Group) : Group :=
  let g' := mapLanes g fun _ l =>
    if l.st = .parked b then { l with st := .active, pc := l.pc + 8 } else l
  { g' with stall := 0 }

/-- Slots of a core in ascending order. -/
def slots : List Nat := List.range 32

/-- The resident groups of one task. -/
def taskGroups (c : Core) (pos : Bool) : List (Nat × Group) :=
  slots.filterMap fun s => match getGroup c s with
    | some g => if g.pos = pos then some (s, g) else none
    | none => none

/-- Every live thread of the task on this core is PARKED at core barrier `b` (02 R56). Groups that
are not yet admitted hold live threads that have not arrived. -/
def coreBarDone (c : Core) (pos : Bool) (b : BitVec 3) : Bool :=
  (match getTask c pos with
   | some t => decide (t.ngroups ≤ t.admitted)
   | none => true) &&
  (taskGroups c pos).any (fun e => (List.range 32).any fun t =>
    decide ((laneOf e.2 t).st = .parked (some b))) &&
  (taskGroups c pos).all fun e => (List.range 32).all fun t =>
    !isLive (laneOf e.2 t) || decide ((laneOf e.2 t).st = .parked (some b))

/-- Apply a function to every resident group of a task. -/
def mapTaskGroups (c : Core) (pos : Bool) (f : Group → Group) : Core :=
  (taskGroups c pos).foldl (fun c e => putGroup c e.1 (some (f e.2))) c

/-- Complete every barrier of a core that has completed (02 R57), group barriers first. -/
def settleBarriers (c : Core) (pos : Bool) : Core :=
  let c1 := mapTaskGroups c pos fun g => if grpBarDone g then releaseBar none g else g
  (List.range 8).foldl (fun c b =>
    if coreBarDone c pos (BitVec.ofNat 3 b) then
      mapTaskGroups c pos (fun g =>
        if (List.range 32).any (fun t => decide ((laneOf g t).st = .parked (some (BitVec.ofNat 3 b))))
        then releaseBar (some (BitVec.ofNat 3 b)) g else g)
    else c) c1

/-- Free the slots of groups with no live thread (02 R53), but for a group that its fault record holds
(15 R452). -/
def freeDead (c : Core) : Core :=
  slots.foldl (fun c s => match getGroup c s with
    | some g => if (List.range 32).all (fun t => !isLive (laneOf g t)) && decide (g.hold ≠ some .record) then putGroup c s none else c
    | none => c) c

/-- Everything that follows from threads parking or exiting: barriers complete, and slots of groups
whose last thread has exited are freed (02 R53, R57). -/
def settle (c : Core) (pos : Bool) : Core := freeDead (settleBarriers c pos)

/-! ## Faults (03 R106 to R109) -/

/-- Severity of a fault record (15 Table 15.2). -/
def faultSeverity (code : Nat) : Nat :=
  if code = 0x02 ∨ code = 0x11 ∨ code = 0x12 then sevError else sevWarning

/-- End the threads of one group. -/
def endGroupThreads (g : Group) : Group := mapLanes g fun _ l => { l with st := .exited }

/-- The requests of groups `uids` that have not been performed and were issued after `id` are
discarded: a faulting instruction's later stores and atomics are not performed (03 R107). -/
def dropLater (d : Dev) (core : Nat) (uids : List Nat) (id : Nat) : Dev :=
  { d with reqs := d.reqs.filter fun r =>
      !(decide (r.core = core) && uids.contains r.uid && decide (id < r.id) &&
        decide (r.st ≠ .performed)) }

/-- The record of a core fault (15 Table 15.2 class 1). DETAIL names the task's queue and item. R109 has the
records behind a task's first fault carry its fault status as their cause; class 1 has no field for it, and the
record carries none (DESIGN CHOICE, log 68). -/
def faultRecord (core slot code : Nat) (pc : Nat) (addr : Nat) (mask : Nat) (pos : Bool)
    (t : Option Task) : ErrRec :=
  let q := match t with | some t => t.queue | none => 0
  let i := match t with | some t => t.item | none => 0
  mkRec (src 0 core) 1 code (faultSeverity code) (BitVec.ofNat 64 pc) (BitVec.ofNat 64 addr)
    (BitVec.ofNat 64 (mask * 2 ^ 32 + slot * 2 ^ 27 + b2n pos * 2 ^ 26))
    (BitVec.ofNat 64 (q * 2 ^ 48 + i % 2 ^ 48))

/-- The faulting group: its threads end, and it is held until the funnel accepts its record (03 R108, 15 R452). -/
def holdFaulted (c : Core) (slot uid : Nat) : Core :=
  match getGroup c slot with
  | some g => if g.uid = uid then putGroup c slot (some { endGroupThreads g with hold := some .record }) else c
  | none => c

/-- The outstanding loads and atomics of groups that have ended: their returns are discarded (03 R108). -/
def endLoads (c : Core) (p : PendLoad → Bool) : Core :=
  { c with loads := c.loads.map fun l => if p l then { l with ended := true } else l }

/-- Take a core fault: the record goes to the funnel, and the task's fault policy ends the group or
every thread of the task on the core; under ABORT_TASK groups not yet admitted are not admitted
(03 R108). `id` is the issue number of the faulting instruction. -/
def takeFault (d : Dev) (core slot uid : Nat) (pos : Bool) (id code pc addr mask : Nat) : Dev :=
  let c := getCore d core
  let t := getTask c pos
  let d := post d (faultRecord core slot code pc addr mask pos t)
  let abort := match t with
    | some t => !t.endGroup
    | none => false
  let c := holdFaulted (if abort then mapTaskGroups c pos endGroupThreads else c) slot uid
  let c := endLoads c fun l => if abort then l.pos == pos else l.uid == uid
  let c := putTask c pos (t.map fun t =>
    { t with fault := some (t.fault.getD code), aborted := t.aborted || !t.endGroup })
  dropLater (putCore d core (settle c pos)) core [uid] id

end Sys2Proof.Machine
end

