-- ==== Sys2Proof/Machine/Operands.lean ====
section
/-! DEFINITION. Operand forms of the core instructions and the issue of one instruction: legality
(03 R70 to R75), readiness (02 R48), guards (03 R73) and the advance of the active set (02 R45). -/

namespace Sys2Proof.Machine

/-! ## Integer types (03 Table 3.8) -/

/-- TYPE of a format R instruction. -/
def tyOf (f : FmtR) : Nat := bits f.func 6 3
/-- FUNC[5:3]. -/
def midOf (f : FmtR) : Nat := bits f.func 3 3
/-- FUNC[2:0]. -/
def subOf (f : FmtR) : Nat := bits f.func 0 3
/-- Width in bits of an integer TYPE. -/
def tyWidth (ty : Nat) : Nat := if ty = 2 ∨ ty = 3 then 64 else 32
/-- Whether a TYPE is signed. -/
def tySigned (ty : Nat) : Bool := ty = 1 || ty = 3
/-- Registers of an operand of a TYPE. -/
def tyRegs (ty : Nat) : Nat := if ty = 2 ∨ ty = 3 then 2 else 1
/-- An operand of a TYPE read as an integer (03 R504 item 3). -/
def tyInt (ty v : Nat) : Int := if tySigned ty then signed (tyWidth ty) v else (v % 2 ^ tyWidth ty : Nat)

/-! ## Register references -/

/-- A register reference is legal for a kernel with `nregs` registers (03 R70, R71). -/
def regOk (nregs : Nat) : Reg → Bool
  | .x r n => r = 255 || (decide (r % n = 0) && decide (r + n ≤ nregs))
  | .u r n => decide (r % n = 0) && decide (r + n ≤ 64)
  | .xs r n => r = 255 || decide (r + n ≤ nregs)

/-- Two register ranges overlap. -/
def overlaps (a n b m : Nat) : Bool := decide (a < b + m) && decide (b < a + n)

/-- Two references share a register; XZ holds nothing (03 R70). -/
def sharesReg : Reg → Reg → Bool
  | .u r n, .u q m => overlaps r n q m
  | .u _ _, _ => false
  | _, .u _ _ => false
  | .x r n, .x q m | .x r n, .xs q m | .xs r n, .x q m | .xs r n, .xs q m =>
    r != 255 && q != 255 && overlaps r n q m

/-- The thread registers of a group with a write pending (02 R48 item 3): outstanding loads and
returning atomics, CACHE statuses and FFX results. -/
def pendingRegs (c : Core) (uid : Nat) : List (Nat × Nat) :=
  ((c.loads.filter fun p => decide (p.uid = uid)).map fun p => (p.dreg, p.dcnt)) ++
  ((c.ranges.filter fun p => decide (p.uid = uid)).map fun p => (p.dreg, 1)) ++
  ((c.ffx.q.filter fun p => decide (p.uid = uid) && !p.lds).map fun p => (p.dreg, p.nres))

/-- Whether a referenced register has a write pending. -/
def regBusy (c : Core) (uid : Nat) : Reg → Bool
  | .x r n | .xs r n => r != 255 && (pendingRegs c uid).any fun p => p.1 != 255 && overlaps p.1 p.2 r n
  | .u _ _ => false

/-! ## Guards (03 R73) -/

/-- Whether the GUARD field is defined (03 Table 3.1). -/
def guardOk (gd : BitVec 5) : Bool := bit gd 4 || decide (gd = 0)

/-- The lanes of an active set whose guard is true (03 Table 3.1). -/
def guarded (g : Group) (act : List Bool) (gd : BitVec 5) : List Bool :=
  perLane fun t => onLane act t &&
    (!bit gd 4 || (readP g (bits gd 0 3) t != bit gd 3))

/-- The predicate that a GUARD reads, as a mask (03 Table 3.1). -/
def guardPred (gd : BitVec 5) : Byte := if bit gd 4 then BitVec.ofNat 8 (2 ^ bits gd 0 3) else 0

/-- The predicate that bits [2:0] of a field name, as a mask (03 R75 item 4). -/
def predBit (b : Byte) : Byte := BitVec.ofNat 8 (2 ^ bits b 0 3)

/-! ## Words (03 Tables 3.2 to 3.7)

Each is the instruction word with OP 0; a format L instruction has its second word above bit 63. -/

/-- Format R. -/
def codeR (f : FmtR) : Nat :=
  f.guard.toNat * 2 ^ 51 + f.d.toNat * 2 ^ 43 + f.a.toNat * 2 ^ 35 + f.b.toNat * 2 ^ 27 + f.c.toNat * 2 ^ 19 +
    f.bsel.toNat * 2 ^ 17 + f.func.toNat * 2 ^ 8 + f.mod.toNat
/-- Format I. -/
def codeI (f : FmtI) : Nat :=
  f.guard.toNat * 2 ^ 51 + f.d.toNat * 2 ^ 43 + f.a.toNat * 2 ^ 35 + f.imm.toNat * 2 ^ 3 + f.func3.toNat
/-- Format M. -/
def codeM (f : FmtM) : Nat :=
  f.guard.toNat * 2 ^ 51 + f.d.toNat * 2 ^ 43 + f.a.toNat * 2 ^ 35 + f.ub.toNat * 2 ^ 29 + f.ube.toNat * 2 ^ 28 +
    f.size.toNat * 2 ^ 25 + f.hint.toNat * 2 ^ 21 + f.off.toNat
/-- Format A. -/
def codeA (f : FmtA) : Nat :=
  f.guard.toNat * 2 ^ 51 + f.d.toNat * 2 ^ 43 + f.a.toNat * 2 ^ 35 + f.b.toNat * 2 ^ 27 + f.c.toNat * 2 ^ 19 +
    f.ty.toNat * 2 ^ 16 + f.ord.toNat * 2 ^ 14 + f.off.toNat
/-- Format B. -/
def codeB (f : FmtB) : Nat := f.guard.toNat * 2 ^ 51 + f.l.toNat * 2 ^ 43 + f.off.toNat
/-- Format L, its immediate word above bit 63. -/
def codeL (f : FmtL) : Nat :=
  f.guard.toNat * 2 ^ 51 + f.d.toNat * 2 ^ 43 + f.rsv.toNat + f.imm.toNat * 2 ^ 64

/-- The OP values that the tables of 03 to 06 assign (03 R75, Tables 3.9 to 3.16; 04 Table 4.11; 05 Table 5.1;
06 Table 6.4), as first and last of each run. -/
def opRuns : List (Nat × Nat) :=
  [(0x10, 0x27), (0x30, 0x37), (0x40, 0x44), (0x48, 0x4B), (0x50, 0x55), (0x60, 0x6D), (0x80, 0x8A),
   (0x90, 0x9C), (0xA0, 0xA5), (0xA8, 0xAD), (0xB0, 0xB1)]

/-- An OP value is assigned (03 R75). -/
def opAssigned (op : Nat) : Bool := opRuns.any fun r => decide (r.1 ≤ op) && decide (op ≤ r.2)

/-! ## Issue -/

/-- What the issue stage gives an instruction: its core and slot, the group after the yield bits
have rejoined, the PC, the active set and the lanes whose guard is true, and what the issue leaves in the
core: the rotation of slot 0 and what slot 1 may take (02 R49, R50). -/
structure Lead where
  core : Nat
  slot : Nat
  g    : Group
  pc   : BitVec 47
  act  : List Bool
  run  : List Bool
  rr   : Nat
  pair : Option Pair
deriving DecidableEq, Repr

/-- What is checked of an instruction at issue: its guard, whether its fields are defined, the
registers it names and those it writes, its length in words, its word or words, its pipe and queue, the
predicates it names beside its guard and those it writes, whether it is a fence or an atomic with ORD
(`fence`) or can hold its group otherwise (`holds`: MX.WAIT, SPX.WAIT, SPX.HANDOVER), and the unit its task
must have been launched with (04 R113, 06 R186). -/
structure Form where
  guard   : BitVec 5
  legal   : Bool
  regs    : List Reg
  words   : Nat
  code    : Nat
  outs    : List Reg := []
  pipe    : Pipe := .fb
  pall    : Byte := 0
  pout    : Byte := 0
  fence   : Bool := false
  holds   : Bool := false
  needMx  : Bool := false
  needFfx : Bool := false
  spxq    : Bool := false

/-- A form with its OP value and its pipe. -/
def Form.op (f : Form) (op : Nat) (p : Pipe) : Form := { f with code := f.code + op * 2 ^ 56, pipe := p }

/-- Uniform instructions and fences are unguarded (03 R73). -/
def unguarded (gd : BitVec 5) : Bool := decide (gd = 0)

/-- Whether a fault record of the group's lead PC must be taken before the instruction is known:
outside the device address window or not 8-byte aligned (03 R84, R85, Table 3.18). -/
def pcBad (pc : BitVec 47) : Bool := decide (2 ^ 39 ≤ pc.toNat) || decide (pc.toNat % 8 ≠ 0)

/-- Requests of a core in flight (03 R90, 10 R317). -/
def inFlight (d : Dev) (core : Nat) : Nat := (d.reqs.filter fun r => decide (r.core = core)).length

/-- Which pipes and queues of a core can take an instruction: MEM below 256 requests (03 R90), the MX queue
of 16 (04 R134), the FFX queue of 8 (06 R185) and the SPX queue of 8 (07 R216). -/
def roomOf (d : Dev) (core : Nat) : List Bool :=
  let c := getCore d core
  [decide (inFlight d core < 256), decide (c.mx.q.length < 16), decide (c.ffx.q.length < 8),
   decide (c.spx.q.length < 8)]

/-- An instruction's pipe can accept it (02 R48 item 4). -/
def hasRoom (room : List Bool) (f : Form) : Bool :=
  (f.pipe != .mem || room.getD 0 true) && (f.pipe != .mx || room.getD 1 true) &&
  (!f.needFfx || room.getD 2 true) && (!f.spxq || room.getD 3 true)

/-- The instruction word at an address, when its line is in the instruction cache; bit 0 is the least
significant bit of the byte at the lowest address (03 R74). -/
def icWord (c : Core) (a : Nat) : Option Nat :=
  (c.ic.find? fun e => decide (e.1 = a / 128)).map fun e => bits e.2 (8 * (a % 128)) 64

/-- The words at a PC that stand in the instruction cache: 0, 1 or 2. -/
def icWords (c : Core) (pc : Nat) : Nat :=
  if icWord c pc = none then 0 else if icWord c (pc + 8) = none then 1 else 2

/-- The instruction at `pc` is in the instruction cache and is the one of form `f` (02 R48, 03 R74). -/
def spells (c : Core) (pc : BitVec 47) (f : Form) : Bool :=
  decide (icWord c pc.toNat = some (f.code % 2 ^ 64)) &&
  (decide (f.words = 1) || decide (icWord c (pc.toNat + 8) = some (f.code / 2 ^ 64)))

/-- Two pipes differ; an instruction that can run on FA or FB finds one beside any other (03 R78). -/
def otherPipe (p q : Pipe) : Bool := p = .fab || q = .fab || p != q

/-- What an issue in slot 0 leaves for slot 1 of its core cycle (02 R49, R50). -/
def pairOf (d : Dev) (l : Lead) (f : Form) : Pair :=
  { slot := l.slot, uid := l.g.uid, pc := l.pc + BitVec.ofNat 47 (8 * f.words), act := l.act,
    opens := decide (f.pipe ≠ .ctl) && !f.fence && !f.holds, pipe := f.pipe, regs := f.regs, outs := f.outs,
    pall := f.pall ||| guardPred f.guard, pout := f.pout,
    words := icWords (getCore d l.core) (l.pc.toNat + 8 * f.words), room := roomOf d l.core }

/-- The instruction of form `f` is pairable behind the one that left `p` (02 R50). -/
def pairable (p : Pair) (f : Form) : Bool :=
  p.opens && otherPipe p.pipe f.pipe && !f.fence &&
  !(f.regs.any fun r => p.outs.any (sharesReg r)) && !(f.outs.any fun r => p.regs.any (sharesReg r)) &&
  decide ((f.pall ||| guardPred f.guard) &&& p.pout = 0) && decide (f.pout &&& p.pall = 0) &&
  decide (f.words ≤ p.words) && hasRoom p.room f

/-- The lead of the group in a slot, when the group can issue at all: its core runs, it is resident
and not held, and it has an ACTIVE thread (02 R44, R48). -/
def leadOf (x : At) (gd : BitVec 5) (d : Dev) : Option Lead :=
  if coreUp d x.core.toNat then
    match getGroup (getCore d x.core.toNat) x.slot.toNat with
    | some g0 =>
      if g0.hold = none then
        let g := rejoin g0
        match leadPc g with
        | some pc => some { core := x.core.toNat, slot := x.slot.toNat, g := g, pc := pc,
                            act := activeSet g pc, run := guarded g (activeSet g pc) gd,
                            rr := (x.slot.toNat + 1) % 32, pair := none }
        | none => none
      else none
    | none => none
  else none

/-- The lanes of a pair still stand at its second instruction. -/
def pairStands (g : Group) (p : Pair) : Bool :=
  (lanesOf p.act).all fun t => isActive (laneOf g t) && decide ((laneOf g t).pc = p.pc)

/-- The lead of an issue of form `f` (02 R49): the second instruction of a pair issues in slot 1 for the
pair's active set; an instruction of another group whose pipe slot 0 did not take issues in slot 1 for its
own; every other issue is slot 0's, which moves the rotation past its group and opens slot 1. Which ready
group issues is the sender's choice (log 61). -/
def leadFor (x : At) (f : Form) (d : Dev) : Option Lead :=
  match leadOf x f.guard d with
  | none => none
  | some l =>
    let c := getCore d l.core
    match c.pair with
    | some p =>
      if p.slot = l.slot ∧ p.uid = l.g.uid ∧ pairable p f ∧ pairStands l.g p then
        some { l with pc := p.pc, act := p.act, run := guarded l.g p.act f.guard, rr := c.rr }
      else if p.slot ≠ l.slot ∧ otherPipe p.pipe f.pipe then some { l with rr := c.rr }
      else some { l with pair := some (pairOf d l f) }
    | none => some { l with pair := some (pairOf d l f) }

/-- The state with the group of a lead replaced, and the core's issue slots as the lead leaves them
(02 R49). -/
def putLead (d : Dev) (l : Lead) (g : Group) : Dev :=
  let c := getCore d l.core
  putCore d l.core { putGroup c l.slot (some g) with rr := l.rr, pair := l.pair }

/-- A fault that the issuing instruction takes (03 R107): nothing of it stands, and slot 1 of its pair has no
effect. -/
def issueFault (d : Dev) (l : Lead) (code addr : Nat) (lanes : List Bool) : Dev :=
  takeFault (putLead d { l with pair := none } l.g) l.core l.slot l.g.uid l.g.pos d.nextId code l.pc.toNat addr
    (laneMask lanes)

/-- The unit an instruction needs belongs to its task: USES_MX (04 R113), USES_FFX (06 R186). -/
def hasUnits (c : Core) (pos : Bool) (f : Form) : Bool :=
  match getTask c pos with
  | some t => (!f.needMx || t.usesMx) && (!f.needFfx || t.usesFfx)
  | none => !f.needMx && !f.needFfx

/-- Issue an instruction (02 R44 to R50, 03 R73 to R75, R106). The effect `body` receives the lead;
it answers `none` when the instruction's pipe cannot accept it. The faults of Table 3.18 up to
FAULT_ILLEGAL_OPERAND are taken here, in the table's order; the others belong to the body. A word whose OP
is unassigned takes FAULT_ILLEGAL_OPCODE whichever command carries the issue (log 66). -/
def issue (x : At) (f : Form) (body : Lead → Dev → Option Dev) (d : Dev) : Option Dev :=
  match leadFor x f d with
  | none => none
  | some l =>
    let c := getCore d l.core
    if pcBad l.pc then some (issueFault d l 0x01 l.pc.toNat l.act)
    else match icWord c l.pc.toNat with
    | none => none
    | some w =>
      if !opAssigned (w / 2 ^ 56) then some (issueFault d l 0x03 l.pc.toNat l.act)
      else if !(spells c l.pc f && hasRoom (roomOf d l.core) f) then none
      else if !(guardOk f.guard && f.legal && hasUnits c l.g.pos f) then
        some (issueFault d l 0x03 l.pc.toNat l.act)
      else if f.regs.any (fun r => !regOk l.g.nregs r) then
        some (issueFault d l 0x04 l.pc.toNat l.act)
      else if f.regs.any (regBusy c l.g.uid) then none
      else body l d

/-- The group after an instruction that changes only registers or predicates: its effect, then the
advance of the active set (02 R45). -/
def commit (d : Dev) (l : Lead) (words : Nat) (g : Group) : Dev := putLead d l (advance g l.act words)

/-- Whether the group of a lead has loads or atomics outstanding, those that return nothing among them: a
store into the scratchpad or a group operation waits for them (03 R107; log 12). -/
def loadsOut (d : Dev) (l : Lead) : Bool :=
  (getCore d l.core).loads.any (fun p => decide (p.uid = l.g.uid)) ||
  d.reqs.any (fun r => decide (r.core = l.core) && decide (r.uid = l.g.uid) && match r.op with
    | .atomic _ => true
    | _ => false) ||
  (getCore d l.core).ffx.q.any (fun p => decide (p.uid = l.g.uid) && !p.lds)

/-! ## Operands of format R (03 Table 3.8) -/

/-- B names a uniform register. -/
def bUni (f : FmtR) : Bool := f.bsel == 1

/-- BSEL is defined, and a uniform B has bits [7:6] 0 (03 Table 3.8). BSEL 0b01 is accepted also where the row
names no operand B or B is a U field anyway: no rule forbids it there (DESIGN CHOICE, log 68). -/
def bselOk (f : FmtR) : Bool := f.bsel == 0 || (f.bsel == 1 && decide (bits f.b 6 2 = 0))

/-- Register B as a reference of `n` registers. -/
def bReg (f : FmtR) (n : Nat) : Reg := if bUni f then .u f.b.toNat n else .x f.b.toNat n

/-- A thread register operand of `n` registers (1 or 2) in lane `t`. -/
def xVal (g : Group) (r n t : Nat) : Nat := if n = 2 then readXPair g r t else (readX g r t).toNat

/-- Operand B of `n` registers (1 or 2) in lane `t`. -/
def bVal (g : Group) (f : FmtR) (n t : Nat) : Nat :=
  if bUni f then (if n = 2 then readUPair g f.b.toNat else (readU g f.b.toNat).toNat)
  else xVal g f.b.toNat n t

/-- A field that names a predicate has bits [7:3] 0 (03 R75 item 4). -/
def predField (b : Byte) : Bool := decide (bits b 3 5 = 0)

/-- The MOD bits of the arithmetic layout (03 Table 3.8). -/
def modSat (m : Byte) : Bool := bit m 7
def modNegA (m : Byte) : Bool := bit m 6
def modNegB (m : Byte) : Bool := bit m 5
def modAbsA (m : Byte) : Bool := bit m 4
def modAbsB (m : Byte) : Bool := bit m 3
def modNegC (m : Byte) : Bool := bit m 2

/-- MOD has no bit outside `allowed` (03 R503). -/
def modOnly (m : Byte) (allowed : Nat) : Bool := m.toNat &&& (255 - allowed) = 0

/-- Integer modifiers: ABS, then NEG, modulo the width (03 R504 item 3). -/
def intMod (ty : Nat) (abs neg : Bool) (v : Nat) : Nat :=
  let w := tyWidth ty
  let a := if abs && tySigned ty then wrap w |signed w v| else v % 2 ^ w
  if neg then wrap w (-(a : Int)) else a

/-- Clamp an integer to the range of TYPE (03 R80). -/
def satTy (ty : Nat) (i : Int) : Nat :=
  let w := tyWidth ty
  if tySigned ty then wrap w (max (-(2 ^ (w - 1) : Nat)) (min i ((2 ^ (w - 1) : Nat) - 1)))
  else wrap w (max 0 (min i ((2 ^ w : Nat) - 1)))

/-- Wrap or clamp an integer result (03 R80, R504 item 4). -/
def finish (ty : Nat) (sat : Bool) (i : Int) : Nat := if sat then satTy ty i else wrap (tyWidth ty) i

/-- The issue of a register instruction that writes D in the lanes whose guard is true: `n`
registers, value `v g t` in lane `t` of the group as it stands at issue. -/
def issueX (x : At) (f : Form) (dreg n : Nat) (v : Group → Nat → Nat) (d : Dev) : Option Dev :=
  issue x f (fun l d => some (commit d l f.words (writeXs l.g dreg n l.run (v l.g)))) d

/-- The issue of an instruction that writes predicate P in the lanes whose guard is true. -/
def issueP (x : At) (f : Form) (p : Nat) (v : Group → Nat → Bool) (d : Dev) : Option Dev :=
  issue x f (fun l d => some (commit d l f.words (writeP l.g p l.run (v l.g)))) d

end Sys2Proof.Machine
end

