-- ==== Sys2Proof/Machine/Flags.lean ====
section
/-! DEFINITION. The predicate results of the compare instructions (03 R502): this hardware has
predicates in place of a status register. -/

namespace Sys2Proof.Machine

/-- The compare codes of Table 3.8 over an ordering: EQ, NE, LT, LE, GT, GE, NAN, NUM, for operands
that are ordered (`un` false) or unordered. -/
def cmpCode (code : Nat) (un eq lt : Bool) : Bool :=
  match code with
  | 0 => !un && eq
  | 1 => un || !eq
  | 2 => !un && lt
  | 3 => !un && (lt || eq)
  | 4 => !un && !(lt || eq)
  | 5 => !un && !lt
  | 6 => un
  | _ => !un

/-- IPRED's compare: no integer is unordered (R502). -/
def intCmp (code : Nat) (a b : Int) : Bool := cmpCode code false (decide (a = b)) (decide (a < b))

/-- MOD[1:0] of IPRED and FPRED: none, AND, OR, XOR with Pc (Table 3.9). -/
def predOp (op : Nat) (v pc : Bool) : Bool :=
  match op with
  | 0 => v
  | 1 => v && pc
  | 2 => v || pc
  | _ => v != pc

end Sys2Proof.Machine
end

