-- ==== Sys2Proof/Machine/Float.lean ====
section
/-! DEFINITION. Floating-point values as exact dyadic rationals, the formats of the device, and one
rounding function for all of them (03 R79, R82; 04 R115, R121). -/

namespace Sys2Proof.Machine

/-- A floating-point datum: NaN, an infinity, or (−1)^neg × m × 2^e. -/
inductive FV where
  | nan
  | inf (neg : Bool)
  | fin (neg : Bool) (m : Nat) (e : Int)
deriving DecidableEq, Repr

/-- Rounding codes of FUNC[5:3] (03 Table 3.8): RN, RZ, RD, RU. -/
inductive RMode where
  | rn | rz | rd | ru
deriving DecidableEq, Repr

/-- A binary format: exponent bits, mantissa bits, bias, how its top exponent is used (0 as IEEE
754, 1 as E4M3 with one NaN and no infinity, 2 without NaN or infinity) and its canonical NaN. -/
structure Fmt where
  eb   : Nat
  mb   : Nat
  bias : Int
  top  : Nat
  qnan : Nat
deriving DecidableEq, Repr

def fp32 : Fmt := { eb := 8, mb := 23, bias := 127, top := 0, qnan := 0x7FC00000 }
def fp16 : Fmt := { eb := 5, mb := 10, bias := 15, top := 0, qnan := 0x7E00 }
def bf16 : Fmt := { eb := 8, mb := 7, bias := 127, top := 0, qnan := 0x7FC0 }
def e4m3 : Fmt := { eb := 4, mb := 3, bias := 7, top := 1, qnan := 0x7F }
def e5m2 : Fmt := { eb := 5, mb := 2, bias := 15, top := 0, qnan := 0x7E }
def e2m1 : Fmt := { eb := 2, mb := 1, bias := 1, top := 2, qnan := 0 }
def e2m3 : Fmt := { eb := 2, mb := 3, bias := 1, top := 2, qnan := 0 }
def e3m2 : Fmt := { eb := 3, mb := 2, bias := 3, top := 2, qnan := 0 }

/-- Bits of a datum. -/
def fmtWidth (f : Fmt) : Nat := 1 + f.eb + f.mb

/-- The largest finite magnitude as bits. -/
def fmtMax (f : Fmt) : Nat :=
  if f.top = 0 then (2 ^ f.eb - 1) * 2 ^ f.mb - 1
  else if f.top = 1 then 2 ^ (f.eb + f.mb) - 2 else 2 ^ (f.eb + f.mb) - 1

/-- Read a datum (03 R82; 04 R115): subnormals at exponent field 0. -/
def decodeF (f : Fmt) (b : Nat) : FV :=
  let neg := b.testBit (f.eb + f.mb)
  let mag := b % 2 ^ (f.eb + f.mb)
  let ex := mag / 2 ^ f.mb
  let m := mag % 2 ^ f.mb
  if mag > fmtMax f then (if f.top = 0 ∧ m = 0 then .inf neg else .nan)
  else if ex = 0 then .fin neg m (1 - f.bias - f.mb)
  else .fin neg (2 ^ f.mb + m) (ex - f.bias - f.mb)

/-- Round m × 2^e (with sign `neg`) to a multiple of 2^q: the quotient as a number. -/
def roundAt (rm : RMode) (neg : Bool) (m : Nat) (e q : Int) : Nat :=
  if q ≤ e then m * 2 ^ (e - q).toNat
  else
    let s := (q - e).toNat
    let n := m / 2 ^ s
    let r := m % 2 ^ s
    let up := match rm with
      | .rn => decide (2 ^ s < 2 * r) || (decide (2 * r = 2 ^ s) && decide (n % 2 = 1))
      | .rz => false
      | .rd => neg && decide (0 < r)
      | .ru => !neg && decide (0 < r)
    if up then n + 1 else n

/-- The magnitude bits of m × 2^e rounded to a format with no bound on the exponent; a value above
`fmtMax` has overflowed (03 R82). -/
def magBits (f : Fmt) (rm : RMode) (neg : Bool) (m : Nat) (e : Int) : Nat :=
  if m = 0 then 0
  else
    let qmin := 1 - f.bias - f.mb
    let q := max qmin (e + m.log2 - f.mb)
    (q - qmin).toNat * 2 ^ f.mb + roundAt rm neg m e q

/-- Whether a rounding code rounds a value of this sign toward zero (03 R82 item 2). -/
def towardZero (rm : RMode) (neg : Bool) : Bool :=
  match rm with
  | .rn => false
  | .rz => true
  | .rd => !neg
  | .ru => neg

/-- Write a value in a format under a rounding code (03 R82). `sat` gives the largest finite value
on overflow. -/
def encodeF (f : Fmt) (rm : RMode) (sat : Bool) (v : FV) : Nat :=
  let sgn (neg : Bool) : Nat := if neg then 2 ^ (f.eb + f.mb) else 0
  match v with
  | .nan => f.qnan
  | .inf neg => if f.top = 0 then sgn neg + (2 ^ f.eb - 1) * 2 ^ f.mb else f.qnan
  | .fin neg m e =>
    let b := magBits f rm neg m e
    if b ≤ fmtMax f then sgn neg + b
    else if sat || towardZero rm neg then sgn neg + fmtMax f
    else if f.top = 0 then sgn neg + (2 ^ f.eb - 1) * 2 ^ f.mb
    else f.qnan

/-- A rounding code (03 Table 3.8). -/
def rmode (c : Nat) : RMode :=
  match c with
  | 0 => .rn
  | 1 => .rz
  | 2 => .rd
  | _ => .ru

/-- Round to FP32, ties to even. -/
def toF32 (v : FV) : Word := BitVec.ofNat 32 (encodeF fp32 .rn false v)
/-- Read FP32. -/
def ofF32 (w : Word) : FV := decodeF fp32 w.toNat

/-! ## Exact arithmetic -/

/-- (−1)^neg × m as an integer. -/
def sval (neg : Bool) (m : Nat) : Int := if neg then -(m : Int) else m

/-- An integer times 2^e; a zero has the given sign. -/
def ofInt (i e : Int) (zneg : Bool) : FV :=
  if i = 0 then .fin zneg 0 e else .fin (decide (i < 0)) i.natAbs e

/-- Exact sum of two finite values, as an integer and an exponent. -/
def addExact (n1 : Bool) (m1 : Nat) (e1 : Int) (n2 : Bool) (m2 : Nat) (e2 : Int) : Int × Int :=
  let e := min e1 e2
  (sval n1 m1 * 2 ^ (e1 - e).toNat + sval n2 m2 * 2 ^ (e2 - e).toNat, e)

/-- IEEE sum before rounding; an exact zero is +0 unless both operands are −0 (03 R79). -/
def fvAdd (a b : FV) : FV :=
  match a, b with
  | .nan, _ => .nan
  | _, .nan => .nan
  | .inf s, .inf t => if s = t then .inf s else .nan
  | .inf s, _ => .inf s
  | _, .inf t => .inf t
  | .fin n1 m1 e1, .fin n2 m2 e2 =>
    let r := addExact n1 m1 e1 n2 m2 e2
    ofInt r.1 r.2 (n1 && n2)

/-- IEEE product before rounding. -/
def fvMul (a b : FV) : FV :=
  match a, b with
  | .nan, _ => .nan
  | _, .nan => .nan
  | .inf s, .inf t => .inf (s != t)
  | .inf s, .fin t m _ => if m = 0 then .nan else .inf (s != t)
  | .fin s m _, .inf t => if m = 0 then .nan else .inf (s != t)
  | .fin s m e, .fin t n f => .fin (s != t) (m * n) (e + f)

/-- Negation, and absolute value: exact on every datum but NaN. -/
def fvNeg : FV → FV
  | .nan => .nan
  | .inf s => .inf (!s)
  | .fin s m e => .fin (!s) m e

/-- Sign of a datum. -/
def fvSign : FV → Bool
  | .nan => false
  | .inf s => s
  | .fin s _ _ => s

/-- Whether a datum is NaN. -/
def isNaN : FV → Bool
  | .nan => true
  | _ => false

/-- Whether a datum is ±0. -/
def isZero : FV → Bool
  | .fin _ m _ => m = 0
  | _ => false

/-- Whether a datum is finite. -/
def isFin : FV → Bool
  | .fin _ _ _ => true
  | _ => false

/-- a < b for ordered data, −0 and +0 equal (03 R502). -/
def fvLt (a b : FV) : Bool :=
  match a, b with
  | .nan, _ => false
  | _, .nan => false
  | .inf s, .inf t => s && !t
  | .inf s, .fin _ _ _ => s
  | .fin _ _ _, .inf t => !t
  | .fin n1 m1 e1, .fin n2 m2 e2 => decide ((addExact n1 m1 e1 (!n2) m2 e2).1 < 0)

/-- a = b for ordered data, −0 and +0 equal. -/
def fvEq (a b : FV) : Bool := !isNaN a && !isNaN b && !fvLt a b && !fvLt b a

/-- Minimum: the other operand when exactly one is NaN, and −0 below +0 (03 R79). -/
def fvMin (a b : FV) : FV :=
  if isNaN a then b else if isNaN b then a
  else if fvLt a b then a else if fvLt b a then b else if fvSign a then a else b

/-- Maximum: the other operand when exactly one is NaN, and −0 below +0 (03 R79). -/
def fvMax (a b : FV) : FV :=
  if isNaN a then b else if isNaN b then a
  else if fvLt a b then b else if fvLt b a then a else if fvSign a then b else a

/-- Sum of a list of exact values as one value: NaN for a NaN term or opposite infinities. An empty
or exactly zero sum of finite terms is −0 only when every term is −0. -/
def fvSum (l : List FV) : FV :=
  match l with
  | [] => .fin false 0 0
  | v :: vs => vs.foldl fvAdd v

/-- The integer nearest under a rounding code: the value of a finite datum rounded to an integer. -/
def roundInt (rm : RMode) (neg : Bool) (m : Nat) (e : Int) : Int := sval neg (roundAt rm neg m e 0)

/-- An integer as an exact datum. -/
def fvOfInt (i : Int) : FV := ofInt i 0 false

/-- Flush a magnitude below 2^−126 to 0 of its sign (04 R121, 05 R157), on FP32 bits. -/
def ftz (w : Word) : Word := if bits w 23 8 = 0 then setBits w 0 31 0 else w

end Sys2Proof.Machine
end

