-- ==== Sys2Proof/Machine/Integer.lean ====
section
/-! DEFINITION. The integer instructions (03 Table 3.9). -/

namespace Sys2Proof.Machine

/-! ## Results in one lane -/

/-- IADD: a + b (R80). -/
def addVal (ty : Nat) (sat : Bool) (a b : Nat) : Nat := finish ty sat (tyInt ty a + tyInt ty b)
/-- ISUB: a − b (R80). -/
def subVal (ty : Nat) (sat : Bool) (a b : Nat) : Nat := finish ty sat (tyInt ty a - tyInt ty b)
/-- IMUL: low bits of a × b. -/
def mulVal (ty a b : Nat) : Nat := wrap (tyWidth ty) (tyInt ty a * tyInt ty b)
/-- IMULHI: bits [63:32] of the 64-bit product. -/
def mulHiVal (ty a b : Nat) : Nat := wrap 64 (tyInt ty a * tyInt ty b) / 2 ^ 32
/-- IMAD: low bits of a × b + c (R80). -/
def madVal (ty : Nat) (sat : Bool) (a b c : Nat) : Nat :=
  finish ty sat (tyInt ty a * tyInt ty b + tyInt ty c)
/-- IMIN, signed or unsigned by TYPE. -/
def minVal (ty a b : Nat) : Nat := wrap (tyWidth ty) (min (tyInt ty a) (tyInt ty b))
/-- IMAX. -/
def maxVal (ty a b : Nat) : Nat := wrap (tyWidth ty) (max (tyInt ty a) (tyInt ty b))
/-- IABS: the most negative value maps to itself, or to the maximum under SAT. -/
def absVal (ty : Nat) (sat : Bool) (a : Nat) : Nat := finish ty sat |tyInt ty a|
/-- LMUX: bit i of the result, from the truth tables in MOD. -/
def lmuxBit (m : Byte) (a b c : Bool) : Bool :=
  bit m ((if c then 4 else 0) + 2 * b2n a + b2n b)
/-- LMUX over `w` bits. -/
def lmuxVal (w : Nat) (m : Byte) (a b c : Nat) : Nat :=
  (List.range w).foldl
    (fun s i => if lmuxBit m (a.testBit i) (b.testBit i) (c.testBit i) then s + 2 ^ i else s) 0
/-- SHL: a << (b mod width). -/
def shlVal (w a b : Nat) : Nat := a * 2 ^ (b % w) % 2 ^ w
/-- SHR: logical for U types, arithmetic for S types. -/
def shrVal (ty a b : Nat) : Nat :=
  let w := tyWidth ty
  wrap w (tyInt ty a / (2 ^ (b % w) : Nat))
/-- Bit `i` of BFE's field before extension (R81). -/
def bfeBit (ty a pos i : Nat) : Bool :=
  let w := tyWidth ty
  if pos + i < w then a.testBit (pos + i) else tySigned ty && a.testBit (w - 1)
/-- BFE with length b[15:8] and position b[7:0] (R81). -/
def bfeVal (ty a b : Nat) : Nat :=
  let w := tyWidth ty
  let len := b / 256 % 256
  let pos := b % 256
  if len = 0 then 0
  else (List.range w).foldl
    (fun s i =>
      let v := if i < len then bfeBit ty a pos i else tySigned ty && bfeBit ty a pos (len - 1)
      if v then s + 2 ^ i else s) 0
/-- BFI: bits pos to pos + len − 1 of c replaced by the low bits of a, none at or above the width
(R81). -/
def bfiVal (w a b c : Nat) : Nat :=
  let len := b / 256 % 256
  let pos := b % 256
  (List.range w).foldl
    (fun s i =>
      let v := if pos ≤ i ∧ i < pos + len then a.testBit (i - pos) else c.testBit i
      if v then s + 2 ^ i else s) 0
/-- POPC. -/
def popcVal (w a : Nat) : Nat := ((List.range w).filter fun i => a.testBit i).length
/-- CLZ; CLZ of 0 gives the width. -/
def clzVal (w a : Nat) : Nat := if a % 2 ^ w = 0 then w else w - 1 - (a % 2 ^ w).log2
/-- BREV. -/
def brevVal (w a : Nat) : Nat :=
  (List.range w).foldl (fun s i => if a.testBit i then s + 2 ^ (w - 1 - i) else s) 0
/-- The source lane of SHFL (R81). -/
def shflLane (mode b t : Nat) : Nat :=
  if mode = 0 then b % 32
  else if mode = 1 then (if b ≤ t then t - b else t)
  else if mode = 2 then (if t + b < 32 then t + b else t)
  else t ^^^ (b % 32)

/-! ## Legality (Table 3.19) -/

/-- Field use of an integer instruction: allowed TYPEs, FUNC[5:0] zero unless `fn`, MOD bits. -/
def intLegal (f : FmtR) (tys : List Nat) (mods : Nat) : Bool :=
  tys.contains (tyOf f) && decide (midOf f = 0) && decide (subOf f = 0) && modOnly f.mod mods &&
  bselOk f

/-- The form of a two-operand integer instruction: C is 0 (R75 item 3). -/
def form2 (f : FmtR) (tys : List Nat) (mods : Nat) : Form :=
  { guard := f.guard, code := codeR f, legal := intLegal f tys mods && decide (f.c = 0),
    regs := [.x f.d.toNat (tyRegs (tyOf f)), .x f.a.toNat (tyRegs (tyOf f)),
             bReg f (tyRegs (tyOf f))], outs := [.x f.d.toNat (tyRegs (tyOf f))], words := 1 }

/-- The form of a one-operand integer instruction whose result has `n` registers. -/
def form1 (f : FmtR) (tys : List Nat) (mods : Nat) : Form :=
  { guard := f.guard, code := codeR f, legal := intLegal f tys mods && decide (f.b = 0) && decide (f.c = 0),
    regs := [.x f.d.toNat (tyRegs (tyOf f)), .x f.a.toNat (tyRegs (tyOf f))], outs := [.x f.d.toNat (tyRegs (tyOf f))], words := 1 }

/-- The form of a three-operand integer instruction. -/
def form3 (f : FmtR) (tys : List Nat) (mods : Nat) : Form :=
  { guard := f.guard, code := codeR f, legal := intLegal f tys mods,
    regs := [.x f.d.toNat (tyRegs (tyOf f)), .x f.a.toNat (tyRegs (tyOf f)),
             bReg f (tyRegs (tyOf f)), .x f.c.toNat (tyRegs (tyOf f))], outs := [.x f.d.toNat (tyRegs (tyOf f))], words := 1 }

/-- The four integer TYPEs U32, S32, U64 and S64. -/
def allInt : List Nat := [0, 1, 2, 3]
/-- U32 and U64. -/
def unsInt : List Nat := [0, 2]

/-- Operand a of a lane, modified (R504). -/
def opA (f : FmtR) (g : Group) (t : Nat) : Nat :=
  intMod (tyOf f) (modAbsA f.mod) (modNegA f.mod) (xVal g f.a.toNat (tyRegs (tyOf f)) t)
/-- Operand b of a lane, modified (R504). -/
def opB (f : FmtR) (g : Group) (t : Nat) : Nat :=
  intMod (tyOf f) (modAbsB f.mod) (modNegB f.mod) (bVal g f (tyRegs (tyOf f)) t)
/-- Operand c of a lane, modified (R504). -/
def opC (f : FmtR) (g : Group) (t : Nat) : Nat :=
  intMod (tyOf f) false (modNegC f.mod) (xVal g f.c.toNat (tyRegs (tyOf f)) t)
/-- Operand a as it stands. -/
def rawA (f : FmtR) (g : Group) (t : Nat) : Nat := xVal g f.a.toNat (tyRegs (tyOf f)) t
/-- Operand b as it stands. -/
def rawB (f : FmtR) (g : Group) (t : Nat) : Nat := bVal g f (tyRegs (tyOf f)) t
/-- Operand c as it stands. -/
def rawC (f : FmtR) (g : Group) (t : Nat) : Nat := xVal g f.c.toNat (tyRegs (tyOf f)) t

/-! ## The effects -/

def iadd (x : At) (f : FmtR) : Dev → Option Dev :=
  issueX x ((form2 f allInt 0xF8).op 0x10 .fb) f.d.toNat (tyRegs (tyOf f)) fun g t =>
    addVal (tyOf f) (modSat f.mod) (opA f g t) (opB f g t)
def isub (x : At) (f : FmtR) : Dev → Option Dev :=
  issueX x ((form2 f allInt 0xF8).op 0x11 .fb) f.d.toNat (tyRegs (tyOf f)) fun g t =>
    subVal (tyOf f) (modSat f.mod) (opA f g t) (opB f g t)
def imul (x : At) (f : FmtR) : Dev → Option Dev :=
  issueX x ((form2 f allInt 0x78).op 0x12 .fb) f.d.toNat (tyRegs (tyOf f)) fun g t =>
    mulVal (tyOf f) (opA f g t) (opB f g t)
def imulhi (x : At) (f : FmtR) : Dev → Option Dev :=
  issueX x ((form2 f [0, 1] 0x78).op 0x13 .fb) f.d.toNat 1 fun g t =>
    mulHiVal (tyOf f) (opA f g t) (opB f g t)
def imad (x : At) (f : FmtR) : Dev → Option Dev :=
  issueX x ((form3 f allInt 0xFC).op 0x14 .fb) f.d.toNat (tyRegs (tyOf f)) fun g t =>
    madVal (tyOf f) (modSat f.mod) (opA f g t) (opB f g t) (opC f g t)
def imin (x : At) (f : FmtR) : Dev → Option Dev :=
  issueX x ((form2 f allInt 0x78).op 0x15 .fb) f.d.toNat (tyRegs (tyOf f)) fun g t =>
    minVal (tyOf f) (opA f g t) (opB f g t)
def imax (x : At) (f : FmtR) : Dev → Option Dev :=
  issueX x ((form2 f allInt 0x78).op 0x16 .fb) f.d.toNat (tyRegs (tyOf f)) fun g t =>
    maxVal (tyOf f) (opA f g t) (opB f g t)
def iabs (x : At) (f : FmtR) : Dev → Option Dev :=
  issueX x ((form1 f allInt 0x80).op 0x17 .fb) f.d.toNat (tyRegs (tyOf f)) fun g t =>
    absVal (tyOf f) (modSat f.mod) (rawA f g t)
def lmux (x : At) (f : FmtR) : Dev → Option Dev :=
  issueX x ((form3 f unsInt 0xFF).op 0x18 .fb) f.d.toNat (tyRegs (tyOf f)) fun g t =>
    lmuxVal (tyWidth (tyOf f)) f.mod (rawA f g t) (rawB f g t) (rawC f g t)
def shl (x : At) (f : FmtR) : Dev → Option Dev :=
  issueX x ((form2 f allInt 0).op 0x19 .fb) f.d.toNat (tyRegs (tyOf f)) fun g t =>
    shlVal (tyWidth (tyOf f)) (rawA f g t) (rawB f g t)
def shr (x : At) (f : FmtR) : Dev → Option Dev :=
  issueX x ((form2 f allInt 0).op 0x1A .fb) f.d.toNat (tyRegs (tyOf f)) fun g t =>
    shrVal (tyOf f) (rawA f g t) (rawB f g t)
def bfe (x : At) (f : FmtR) : Dev → Option Dev :=
  issueX x ((form2 f allInt 0).op 0x1B .fb) f.d.toNat (tyRegs (tyOf f)) fun g t =>
    bfeVal (tyOf f) (rawA f g t) (rawB f g t)
def bfi (x : At) (f : FmtR) : Dev → Option Dev :=
  issueX x ((form3 f unsInt 0).op 0x1C .fb) f.d.toNat (tyRegs (tyOf f)) fun g t =>
    bfiVal (tyWidth (tyOf f)) (rawA f g t) (rawB f g t) (rawC f g t)
def popc (x : At) (f : FmtR) : Dev → Option Dev :=
  issueX x ((form1 f unsInt 0).op 0x1D .fb) f.d.toNat (tyRegs (tyOf f)) fun g t =>
    popcVal (tyWidth (tyOf f)) (rawA f g t)
def clz (x : At) (f : FmtR) : Dev → Option Dev :=
  issueX x ((form1 f unsInt 0).op 0x1E .fb) f.d.toNat (tyRegs (tyOf f)) fun g t =>
    clzVal (tyWidth (tyOf f)) (rawA f g t)
def brev (x : At) (f : FmtR) : Dev → Option Dev :=
  issueX x ((form1 f unsInt 0).op 0x1F .fb) f.d.toNat (tyRegs (tyOf f)) fun g t =>
    brevVal (tyWidth (tyOf f)) (rawA f g t)

/-- The form of IPRED: D and C name predicates, MOD[1:0] is the op (R502, R503). -/
def ipredForm (f : FmtR) : Form :=
  { guard := f.guard, code := codeR f,
    legal := allInt.contains (tyOf f) && decide (subOf f = 0) && modOnly f.mod 3 && bselOk f &&
      predField f.d && predField f.c,
    regs := [.x f.a.toNat (tyRegs (tyOf f)), bReg f (tyRegs (tyOf f))],
    pall := predBit f.d ||| predBit f.c, pout := predBit f.d, words := 1 }

def ipred (x : At) (f : FmtR) : Dev → Option Dev :=
  issueP x ((ipredForm f).op 0x20 .fb) (bits f.d 0 3) fun g t =>
    predOp (bits f.mod 0 2) (intCmp (midOf f) (tyInt (tyOf f) (rawA f g t)) (tyInt (tyOf f) (rawB f g t)))
      (readP g (bits f.c 0 3) t)

/-- The form of SEL: C names a predicate. -/
def selForm (f : FmtR) : Form :=
  { guard := f.guard, code := codeR f, legal := intLegal f unsInt 0 && predField f.c,
    regs := [.x f.d.toNat (tyRegs (tyOf f)), .x f.a.toNat (tyRegs (tyOf f)),
             bReg f (tyRegs (tyOf f))], outs := [.x f.d.toNat (tyRegs (tyOf f))], pall := predBit f.c, words := 1 }

def sel (x : At) (f : FmtR) : Dev → Option Dev :=
  issueX x ((selForm f).op 0x21 .fb) f.d.toNat (tyRegs (tyOf f)) fun g t =>
    if readP g (bits f.c 0 3) t then rawA f g t else rawB f g t

/-- The form of MOV: A and C are 0. -/
def movForm (f : FmtR) : Form :=
  { guard := f.guard, code := codeR f, legal := intLegal f unsInt 0 && decide (f.a = 0) && decide (f.c = 0),
    regs := [.x f.d.toNat (tyRegs (tyOf f)), bReg f (tyRegs (tyOf f))], outs := [.x f.d.toNat (tyRegs (tyOf f))], words := 1 }

def mov (x : At) (f : FmtR) : Dev → Option Dev :=
  issueX x ((movForm f).op 0x22 .fb) f.d.toNat (tyRegs (tyOf f)) fun g t => rawB f g t

/-- The form of IADDI (Table 3.19). -/
def iaddiForm (f : FmtI) : Form :=
  { guard := f.guard, code := codeI f, legal := decide (f.func3 = 0), regs := [.x f.d.toNat 1, .x f.a.toNat 1],
    outs := [.x f.d.toNat 1], words := 1 }

def iaddi (x : At) (f : FmtI) : Dev → Option Dev :=
  issueX x ((iaddiForm f).op 0x23 .fb) f.d.toNat 1 fun g t =>
    addVal 0 false (readX g f.a.toNat t).toNat f.imm.toNat

/-- The form of MOVI (Table 3.19). -/
def moviForm (f : FmtI) : Form :=
  { guard := f.guard, code := codeI f, legal := decide (f.func3 = 0) && decide (f.a = 0), regs := [.x f.d.toNat 1],
    outs := [.x f.d.toNat 1], words := 1 }

def movi (x : At) (f : FmtI) : Dev → Option Dev :=
  issueX x ((moviForm f).op 0x24 .fb) f.d.toNat 1 fun _ _ => f.imm.toNat

/-- The form of MOVL (03 Table 3.7): two words. -/
def movlForm (f : FmtL) : Form :=
  { guard := f.guard, code := codeL f, legal := decide (f.rsv = 0), regs := [.x f.d.toNat 2],
    outs := [.x f.d.toNat 2], words := 2 }

def movl (x : At) (f : FmtL) : Dev → Option Dev :=
  issueX x ((movlForm f).op 0x25 .fb) f.d.toNat 2 fun _ _ => f.imm.toNat

/-- The form of SHFL (Table 3.19). -/
def shflForm (f : FmtR) : Form :=
  { guard := f.guard, code := codeR f,
    legal := decide (tyOf f = 0) && decide (midOf f = 0) && decide (subOf f ≤ 3) &&
      modOnly f.mod 0 && bselOk f && decide (f.c = 0),
    regs := [.x f.d.toNat 1, .x f.a.toNat 1, bReg f 1], outs := [.x f.d.toNat 1], words := 1 }

def shfl (x : At) (f : FmtR) : Dev → Option Dev :=
  issueX x ((shflForm f).op 0x26 .fb) f.d.toNat 1 fun g t =>
    (readX g f.a.toNat (shflLane (subOf f) (bVal g f 1 t) t)).toNat

/-- The form of RDSYS: the cycle counter is a pair. -/
def rdsysForm (f : FmtR) : Form :=
  { guard := f.guard, code := codeR f,
    legal := decide (tyOf f = 0) && decide (midOf f = 0) && decide (subOf f ≤ 3) &&
      modOnly f.mod 0 && bselOk f && decide (f.a = 0) && decide (f.b = 0) && decide (f.c = 0),
    regs := [.x f.d.toNat (if subOf f = 3 then 2 else 1)],
    outs := [.x f.d.toNat (if subOf f = 3 then 2 else 1)], words := 1 }

/-- The system value of RDSYS (R81): lane, group slot, core ID, core cycle counter. -/
def sysVal (d : Dev) (core slot sub t : Nat) : Nat :=
  if sub = 0 then t else if sub = 1 then slot else if sub = 2 then core
  else ((getCluster d (core / 32)).cycles - (getCore d core).cycleBase).toNat

def rdsys (x : At) (f : FmtR) (d : Dev) : Option Dev :=
  issueX x ((rdsysForm f).op 0x27 .fb) f.d.toNat (if subOf f = 3 then 2 else 1)
    (fun _ t => sysVal d x.core.toNat x.slot.toNat (subOf f) t) d

/-! ## The commands of this family -/

/-- IADD (03 R80). -/
def execIadd (x : At) (f : FmtR) (s : State) : Host.Outcome State Fault Refusal := gated s "IADD" (iadd x f s.dev)
/-- ISUB (03 R80). -/
def execIsub (x : At) (f : FmtR) (s : State) : Host.Outcome State Fault Refusal := gated s "ISUB" (isub x f s.dev)
/-- IMUL (03 R80). -/
def execImul (x : At) (f : FmtR) (s : State) : Host.Outcome State Fault Refusal := gated s "IMUL" (imul x f s.dev)
/-- IMULHI (03 R80). -/
def execImulhi (x : At) (f : FmtR) (s : State) : Host.Outcome State Fault Refusal :=
  gated s "IMULHI" (imulhi x f s.dev)
/-- IMAD (03 R80). -/
def execImad (x : At) (f : FmtR) (s : State) : Host.Outcome State Fault Refusal := gated s "IMAD" (imad x f s.dev)
/-- IMIN (03 R80). -/
def execImin (x : At) (f : FmtR) (s : State) : Host.Outcome State Fault Refusal := gated s "IMIN" (imin x f s.dev)
/-- IMAX (03 R80). -/
def execImax (x : At) (f : FmtR) (s : State) : Host.Outcome State Fault Refusal := gated s "IMAX" (imax x f s.dev)
/-- IABS (03 R504). -/
def execIabs (x : At) (f : FmtR) (s : State) : Host.Outcome State Fault Refusal := gated s "IABS" (iabs x f s.dev)
/-- LMUX (03 R75). -/
def execLmux (x : At) (f : FmtR) (s : State) : Host.Outcome State Fault Refusal := gated s "LMUX" (lmux x f s.dev)
/-- SHL (03 R80). -/
def execShl (x : At) (f : FmtR) (s : State) : Host.Outcome State Fault Refusal := gated s "SHL" (shl x f s.dev)
/-- SHR (03 R80). -/
def execShr (x : At) (f : FmtR) (s : State) : Host.Outcome State Fault Refusal := gated s "SHR" (shr x f s.dev)
/-- BFE (03 R81). -/
def execBfe (x : At) (f : FmtR) (s : State) : Host.Outcome State Fault Refusal := gated s "BFE" (bfe x f s.dev)
/-- BFI (03 R81). -/
def execBfi (x : At) (f : FmtR) (s : State) : Host.Outcome State Fault Refusal := gated s "BFI" (bfi x f s.dev)
/-- POPC (03 R80). -/
def execPopc (x : At) (f : FmtR) (s : State) : Host.Outcome State Fault Refusal := gated s "POPC" (popc x f s.dev)
/-- CLZ (03 R80). -/
def execClz (x : At) (f : FmtR) (s : State) : Host.Outcome State Fault Refusal := gated s "CLZ" (clz x f s.dev)
/-- BREV (03 R80). -/
def execBrev (x : At) (f : FmtR) (s : State) : Host.Outcome State Fault Refusal := gated s "BREV" (brev x f s.dev)
/-- IPRED (03 R502). -/
def execIpred (x : At) (f : FmtR) (s : State) : Host.Outcome State Fault Refusal := gated s "IPRED" (ipred x f s.dev)
/-- SEL (03 R75). -/
def execSel (x : At) (f : FmtR) (s : State) : Host.Outcome State Fault Refusal := gated s "SEL" (sel x f s.dev)
/-- MOV (03 R76). -/
def execMov (x : At) (f : FmtR) (s : State) : Host.Outcome State Fault Refusal := gated s "MOV" (mov x f s.dev)
/-- IADDI (03 R76). -/
def execIaddi (x : At) (f : FmtI) (s : State) : Host.Outcome State Fault Refusal := gated s "IADDI" (iaddi x f s.dev)
/-- MOVI (03 R76). -/
def execMovi (x : At) (f : FmtI) (s : State) : Host.Outcome State Fault Refusal := gated s "MOVI" (movi x f s.dev)
/-- MOVL (03 R74). -/
def execMovl (x : At) (f : FmtL) (s : State) : Host.Outcome State Fault Refusal := gated s "MOVL" (movl x f s.dev)
/-- SHFL (03 R81). -/
def execShfl (x : At) (f : FmtR) (s : State) : Host.Outcome State Fault Refusal := gated s "SHFL" (shfl x f s.dev)
/-- RDSYS (03 R81). -/
def execRdsys (x : At) (f : FmtR) (s : State) : Host.Outcome State Fault Refusal := gated s "RDSYS" (rdsys x f s.dev)

end Sys2Proof.Machine
end

