-- ==== Sys2Proof/Machine/FloatOps.lean ====
section
/-! DEFINITION. The FP32 and conversion instructions (03 Table 3.10) and the FP DOT instructions of
Table 3.11. -/

namespace Sys2Proof.Machine

/-! ## Results in one lane -/

/-- The format of an FP TYPE: F32, F16x2 or BF16x2. -/
def tyFmt (ty : Nat) : Fmt := if ty = 5 then fp16 else if ty = 6 then bf16 else fp32

/-- FP modifiers on one datum's bits: ABS clears the sign, then NEG inverts it (R504 item 2). -/
def fpMod (f : Fmt) (abs neg : Bool) (v : Nat) : Nat :=
  let s := 2 ^ (f.eb + f.mb)
  let a := if abs then v % s else v % (2 * s)
  if neg then (a + s) % (2 * s) else a

/-- SAT of R504 item 5 on rounded bits: the result clamped to +0.0 to 1.0, NaN to +0.0. -/
def fpSat (f : Fmt) (b : Nat) : Nat :=
  let v := decodeF f b
  let one := FV.fin false 1 0
  if isNaN v then 0 else if fvSign v then 0
  else if fvLt one v then encodeF f .rn false one else b

/-- One datum of a two-operand FP instruction: round, then SAT. -/
def fpFin (f : Fmt) (sat : Bool) (v : FV) : Nat :=
  let b := encodeF f .rn false v
  if sat then fpSat f b else b

/-- Apply a datum-wise operation to a word of an FP TYPE: once for F32, to each half for the packed
types (R79, R504). -/
def perHalf (ty : Nat) (op : Nat → Nat → Nat → Nat) (a b c : Nat) : Nat :=
  if ty = 5 ∨ ty = 6 then
    op (a % 2 ^ 16) (b % 2 ^ 16) (c % 2 ^ 16) +
      2 ^ 16 * op (a / 2 ^ 16 % 2 ^ 16) (b / 2 ^ 16 % 2 ^ 16) (c / 2 ^ 16 % 2 ^ 16)
  else op a b c

/-- One datum of FADD, FMUL, FFMA, FMIN, FMAX on modified operands. -/
def fpDatum (ty : Nat) (m : Byte) (k : FV → FV → FV → FV) (a b c : Nat) : Nat :=
  let f := tyFmt ty
  fpFin f (modSat m)
    (k (decodeF f (fpMod f (modAbsA m) (modNegA m) a)) (decodeF f (fpMod f (modAbsB m) (modNegB m) b))
       (decodeF f (fpMod f false (modNegC m) c)))

/-- The word result of FADD, FMUL, FFMA, FMIN or FMAX. -/
def fpVal (ty : Nat) (m : Byte) (k : FV → FV → FV → FV) (a b c : Nat) : Nat :=
  perHalf ty (fpDatum ty m k) a b c

/-- Whether `r` is within relative error 2^−12 of 1/a, for finite nonzero a: |r·a − 1| ≤ 2^−12. -/
def rcpWithin (a r : FV) : Bool :=
  match fvAdd (fvMul a r) (.fin true 1 0) with
  | .fin _ m e => !fvLt (.fin false 1 (-12)) (.fin false m e)
  | _ => false

/-- Whether `r` is within relative error 2^−12 of 1/√a, for a > 0: r > 0 and (1 − 2^−12)² ≤ r²·a ≤
(1 + 2^−12)². -/
def rsqWithin (a r : FV) : Bool :=
  let p := fvMul (fvMul r r) a
  isFin p && !fvSign r && !fvLt p (.fin false (4095 * 4095) (-24)) &&
    !fvLt (.fin false (4097 * 4097) (-24)) p

/-- An FP32 value near 1/a for a finite nonzero a: the quotient of the significands with 24 bits. -/
def rcpNear (a : FV) : FV :=
  match a with
  | .fin s m e => if m = 0 then .inf s else .fin s (2 ^ (m.log2 + 25) / m) (-(m.log2 + 25 : Nat) - e)
  | _ => .nan

/-- The integer square root of n < 2^(2k), bit by bit. -/
def isqrt (k n : Nat) : Nat :=
  (List.range k).foldl
    (fun r i => let s := r + 2 ^ (k - 1 - i); if s * s ≤ n then s else r) 0

/-- An FP32 value near 1/√a for a finite a > 0, by an integer square root. -/
def rsqNear (a : FV) : FV :=
  match a with
  | .fin _ m e =>
    if m = 0 then .inf false
    else
      let m' := if e % 2 = 0 then m else 2 * m
      let e' := if e % 2 = 0 then e else e - 1
      let k := m'.log2 / 2 + 26
      .fin false (isqrt (2 * k) (2 ^ (4 * k) / m')) (-(2 * k : Nat) - e' / 2)
  | _ => .nan

/-- FRCP.SEED (Table 3.10, R505): a fixed function of the argument within the bound. The bound binds
where 1/a is a normal FP32 value and, for a result beyond FP32, the seed is the rounded quotient
(log 7). -/
def rcpSeedVal (a : Word) : Word :=
  match ofF32 a with
  | .nan => 0x7FC00000
  | .inf s => if s then 0x80000000 else 0
  | .fin s m e =>
    if m = 0 then (if s then 0xFF800000 else 0x7F800000)
    else if rcpWithin (.fin s m e) (ofF32 (Config.rcpSeed a)) then Config.rcpSeed a
    else toF32 (rcpNear (.fin s m e))

/-- FRSQ.SEED (Table 3.10, R505). -/
def rsqSeedVal (a : Word) : Word :=
  match ofF32 a with
  | .nan => 0x7FC00000
  | .inf s => if s then 0x7FC00000 else 0
  | .fin s m e =>
    if m = 0 then (if s then 0xFF800000 else 0x7F800000)
    else if s then 0x7FC00000
    else if rsqWithin (.fin s m e) (ofF32 (Config.rsqSeed a)) then Config.rsqSeed a
    else toF32 (rsqNear (.fin s m e))

/-- F2I: an FP32 value to the integer TYPE; out of range saturates and NaN gives 0 (Table 3.10). -/
def f2iVal (ty : Nat) (rm : RMode) (a : Word) : Nat :=
  match ofF32 a with
  | .nan => 0
  | .inf s => satTy ty (if s then -(2 ^ 64 : Nat) else (2 ^ 64 : Nat))
  | .fin s m e => satTy ty (roundInt rm s m e)

/-- I2F: an integer of TYPE to FP32. -/
def i2fVal (ty : Nat) (rm : RMode) (a : Nat) : Nat :=
  encodeF fp32 rm false (fvOfInt (tyInt ty a))

/-- The narrow format of an F2F conversion (Table 3.20). -/
def f2fFmt (k : Nat) : Fmt :=
  if k % 4 = 0 then fp16 else if k % 4 = 1 then bf16 else if k % 4 = 2 then e4m3 else e5m2

/-- Bit position of the half or byte that MOD selects (R82). -/
def f2fPos (k : Nat) (m : Byte) : Nat := if k % 4 < 2 then 16 * bits m 0 1 else 8 * bits m 0 2

/-- Width of the half or byte. -/
def f2fWidth (k : Nat) : Nat := if k % 4 < 2 then 16 else 8

/-- F2F (R82, Table 3.20): narrowing into part of d, or widening. -/
def f2fVal (k : Nat) (rm : RMode) (m : Byte) (a d : Word) : Nat :=
  if k < 4 then
    (setBits d (f2fPos k m) (f2fWidth k) (encodeF (f2fFmt k) rm (modSat m) (ofF32 a))).toNat
  else encodeF fp32 .rn false (decodeF (f2fFmt k) (bits a (f2fPos k m) (f2fWidth k)))

/-- An FP DOT: products exact, the sum of all products and c rounded once to FP32 (R83). -/
def dotVal (fa fb : Fmt) (w n : Nat) (a b c : Word) : Nat :=
  encodeF fp32 .rn false (fvSum (ofF32 c :: (List.range n).map fun i =>
    fvMul (decodeF fa (bits a (w * i) w)) (decodeF fb (bits b (w * i) w))))

/-- An integer DOT: elements signed or unsigned by TYPE, sum with c wrapping or clamped (R80, R83). -/
def idotVal (ty : Nat) (sat : Bool) (w n : Nat) (a b c : Word) : Nat :=
  let el (v : Word) (i : Nat) : Int :=
    if tySigned ty then signed w (bits v (w * i) w) else (bits v (w * i) w : Nat)
  finish ty sat (tyInt ty c.toNat + ((List.range n).map fun i => el a i * el b i).sum)

/-! ## Legality (Table 3.19) -/

/-- The form of FADD, FMUL, FMIN, FMAX (`three` for FFMA). -/
def fpForm (f : FmtR) (mods : Nat) (three : Bool) : Form :=
  { guard := f.guard, code := codeR f,
    legal := [4, 5, 6].contains (tyOf f) && decide (midOf f = 0) && decide (subOf f = 0) &&
      modOnly f.mod mods && bselOk f && (three || decide (f.c = 0)),
    regs := [.x f.d.toNat 1, .x f.a.toNat 1, bReg f 1] ++ if three then [.x f.c.toNat 1] else [],
    outs := [.x f.d.toNat 1], words := 1 }

/-- Issue of an FP32 lane instruction. -/
def fpIssue (op : Nat) (x : At) (f : FmtR) (mods : Nat) (three : Bool) (k : FV → FV → FV → FV) :
    Dev → Option Dev :=
  issueX x ((fpForm f mods three).op op .fab) f.d.toNat 1 fun g t =>
    fpVal (tyOf f) f.mod k (readX g f.a.toNat t).toNat (bVal g f 1 t)
      (if three then (readX g f.c.toNat t).toNat else 0)

def fadd (x : At) (f : FmtR) : Dev → Option Dev := fpIssue 0x30 x f 0xF8 false fun a b _ => fvAdd a b
def fmul (x : At) (f : FmtR) : Dev → Option Dev := fpIssue 0x31 x f 0xF8 false fun a b _ => fvMul a b
def ffma (x : At) (f : FmtR) : Dev → Option Dev :=
  fpIssue 0x32 x f 0xFC true fun a b c => fvAdd (fvMul a b) c
def fmin (x : At) (f : FmtR) : Dev → Option Dev := fpIssue 0x33 x f 0xF8 false fun a b _ => fvMin a b
def fmax (x : At) (f : FmtR) : Dev → Option Dev := fpIssue 0x34 x f 0xF8 false fun a b _ => fvMax a b

/-- The form of FPRED (R502, R503). -/
def fpredForm (f : FmtR) : Form :=
  { guard := f.guard, code := codeR f,
    legal := decide (tyOf f = 4) && decide (subOf f = 0) && modOnly f.mod 3 && bselOk f &&
      predField f.d && predField f.c,
    regs := [.x f.a.toNat 1, bReg f 1], pall := predBit f.d ||| predBit f.c, pout := predBit f.d, words := 1 }

/-- FPRED's compare (R502). -/
def fpCmp (code : Nat) (a b : FV) : Bool := cmpCode code (isNaN a || isNaN b) (fvEq a b) (fvLt a b)

def fpred (x : At) (f : FmtR) : Dev → Option Dev :=
  issueP x ((fpredForm f).op 0x35 .fab) (bits f.d 0 3) fun g t =>
    predOp (bits f.mod 0 2)
      (fpCmp (midOf f) (ofF32 (readX g f.a.toNat t)) (ofF32 (BitVec.ofNat 32 (bVal g f 1 t))))
      (readP g (bits f.c 0 3) t)

/-- The form of a one-operand FP32 instruction: `ty`, rounding code and sub-operation checked by the
caller; the source has `n` registers and the result `m`. -/
def cvtForm (f : FmtR) (n m : Nat) (legal : Bool) : Form :=
  { guard := f.guard, code := codeR f, legal := legal && bselOk f && decide (f.b = 0) && decide (f.c = 0),
    regs := [.x f.d.toNat m, .x f.a.toNat n], outs := [.x f.d.toNat m], words := 1 }

/-- Field use of the seed instructions (Table 3.19). -/
def seedLegal (f : FmtR) : Bool :=
  decide (tyOf f = 4) && decide (midOf f = 0) && decide (subOf f = 0) && modOnly f.mod 0

def frcpSeed (x : At) (f : FmtR) : Dev → Option Dev :=
  issueX x ((cvtForm f 1 1 (seedLegal f)).op 0x36 .fb) f.d.toNat 1 fun g t =>
    (rcpSeedVal (readX g f.a.toNat t)).toNat
def frsqSeed (x : At) (f : FmtR) : Dev → Option Dev :=
  issueX x ((cvtForm f 1 1 (seedLegal f)).op 0x37 .fb) f.d.toNat 1 fun g t =>
    (rsqSeedVal (readX g f.a.toNat t)).toNat

/-- The form of F2I: the integer TYPE of the result in FUNC[2:0]. -/
def f2iForm (f : FmtR) : Form :=
  cvtForm f 1 (tyRegs (subOf f))
    (decide (tyOf f = 0) && decide (midOf f ≤ 3) && decide (subOf f ≤ 3) && modOnly f.mod 0)

def f2i (x : At) (f : FmtR) : Dev → Option Dev :=
  issueX x ((f2iForm f).op 0x40 .fb) f.d.toNat (tyRegs (subOf f)) fun g t =>
    f2iVal (subOf f) (rmode (midOf f)) (readX g f.a.toNat t)

/-- The form of I2F: an integer TYPE. -/
def i2fForm (f : FmtR) : Form :=
  cvtForm f (tyRegs (tyOf f)) 1
    (decide (tyOf f ≤ 3) && decide (midOf f ≤ 3) && decide (subOf f = 0) && modOnly f.mod 0)

def i2f (x : At) (f : FmtR) : Dev → Option Dev :=
  issueX x ((i2fForm f).op 0x41 .fb) f.d.toNat 1 fun g t =>
    i2fVal (tyOf f) (rmode (midOf f)) (xVal g f.a.toNat (tyRegs (tyOf f)) t)

/-- Field use of F2F (Table 3.20): MOD[1] is 0 for a 16-bit format, SAT only when narrowing. -/
def f2fLegal (f : FmtR) : Bool :=
  decide (tyOf f = 0) && decide (midOf f ≤ 3) &&
    modOnly f.mod ((if subOf f < 4 then 0x80 else 0) + if subOf f % 4 < 2 then 1 else 3)

def f2f (x : At) (f : FmtR) : Dev → Option Dev :=
  issueX x ((cvtForm f 1 1 (f2fLegal f)).op 0x42 .fb) f.d.toNat 1 fun g t =>
    f2fVal (subOf f) (rmode (midOf f)) f.mod (readX g f.a.toNat t) (readX g f.d.toNat t)

/-- The form of PACK: two FP32 operands, TYPE F16x2 or BF16x2. -/
def packForm (f : FmtR) : Form :=
  { guard := f.guard, code := codeR f,
    legal := [5, 6].contains (tyOf f) && decide (midOf f ≤ 3) && decide (subOf f = 0) &&
      modOnly f.mod 0 && bselOk f && decide (f.c = 0),
    regs := [.x f.d.toNat 1, .x f.a.toNat 1, bReg f 1], outs := [.x f.d.toNat 1], words := 1 }

/-- PACK: the halves b (high) and a (low). -/
def packVal (ty : Nat) (rm : RMode) (a b : Word) : Nat :=
  encodeF (tyFmt ty) rm false (ofF32 a) + 2 ^ 16 * encodeF (tyFmt ty) rm false (ofF32 b)

def pack (x : At) (f : FmtR) : Dev → Option Dev :=
  issueX x ((packForm f).op 0x43 .fb) f.d.toNat 1 fun g t =>
    packVal (tyOf f) (rmode (midOf f)) (readX g f.a.toNat t) (BitVec.ofNat 32 (bVal g f 1 t))

/-- The form of UNPACK: FUNC[0] selects the half. -/
def unpackForm (f : FmtR) : Form :=
  cvtForm f 1 1
    ([5, 6].contains (tyOf f) && decide (midOf f = 0) && decide (subOf f ≤ 1) && modOnly f.mod 0)

def unpack (x : At) (f : FmtR) : Dev → Option Dev :=
  issueX x ((unpackForm f).op 0x44 .fb) f.d.toNat 1 fun g t =>
    encodeF fp32 .rn false (decodeF (tyFmt (tyOf f)) (bits (readX g f.a.toNat t) (16 * subOf f) 16))

/-- The form of a DOT instruction: D, A, B and C (Table 3.19). -/
def dotForm (f : FmtR) (tys : List Nat) (mods sub : Nat) : Form :=
  { guard := f.guard, code := codeR f,
    legal := tys.contains (tyOf f) && decide (midOf f = 0) && decide (subOf f ≤ sub) &&
      modOnly f.mod mods && bselOk f,
    regs := [.x f.d.toNat 1, .x f.a.toNat 1, bReg f 1, .x f.c.toNat 1], outs := [.x f.d.toNat 1], words := 1 }

/-- Issue of a DOT instruction. -/
def dotIssue (op : Nat) (x : At) (f : FmtR) (tys : List Nat) (mods sub : Nat) (v : Word → Word → Word → Nat) :
    Dev → Option Dev :=
  issueX x ((dotForm f tys mods sub).op op .fb) f.d.toNat 1 fun g t =>
    v (readX g f.a.toNat t) (BitVec.ofNat 32 (bVal g f 1 t)) (readX g f.c.toNat t)

def dot4I8 (x : At) (f : FmtR) : Dev → Option Dev :=
  dotIssue 0x50 x f [0, 1] 0x80 0 (idotVal (tyOf f) (modSat f.mod) 8 4)
def dot8I4 (x : At) (f : FmtR) : Dev → Option Dev :=
  dotIssue 0x51 x f [0, 1] 0x80 0 (idotVal (tyOf f) (modSat f.mod) 4 8)
def dot2F16 (x : At) (f : FmtR) : Dev → Option Dev := dotIssue 0x52 x f [0] 0 0 (dotVal fp16 fp16 16 2)
def dot2Bf16 (x : At) (f : FmtR) : Dev → Option Dev := dotIssue 0x53 x f [0] 0 0 (dotVal bf16 bf16 16 2)
def dot4F8 (x : At) (f : FmtR) : Dev → Option Dev :=
  dotIssue 0x54 x f [0] 0 3 (dotVal (if (subOf f).testBit 1 then e5m2 else e4m3)
    (if (subOf f).testBit 0 then e5m2 else e4m3) 8 4)
def dot8F4 (x : At) (f : FmtR) : Dev → Option Dev := dotIssue 0x55 x f [0] 0 0 (dotVal e2m1 e2m1 4 8)

/-! ## The commands of this family -/

/-- FADD (03 R79). -/
def execFadd (x : At) (f : FmtR) (s : State) : Host.Outcome State Fault Refusal := gated s "FADD" (fadd x f s.dev)
/-- FMUL (03 R79). -/
def execFmul (x : At) (f : FmtR) (s : State) : Host.Outcome State Fault Refusal := gated s "FMUL" (fmul x f s.dev)
/-- FFMA (03 R79). -/
def execFfma (x : At) (f : FmtR) (s : State) : Host.Outcome State Fault Refusal := gated s "FFMA" (ffma x f s.dev)
/-- FMIN (03 R79). -/
def execFmin (x : At) (f : FmtR) (s : State) : Host.Outcome State Fault Refusal := gated s "FMIN" (fmin x f s.dev)
/-- FMAX (03 R79). -/
def execFmax (x : At) (f : FmtR) (s : State) : Host.Outcome State Fault Refusal := gated s "FMAX" (fmax x f s.dev)
/-- FPRED (03 R502). -/
def execFpred (x : At) (f : FmtR) (s : State) : Host.Outcome State Fault Refusal := gated s "FPRED" (fpred x f s.dev)
/-- FRCP_SEED (03 R505). -/
def execFrcpSeed (x : At) (f : FmtR) (s : State) : Host.Outcome State Fault Refusal :=
  gated s "FRCP_SEED" (frcpSeed x f s.dev)
/-- FRSQ_SEED (03 R505). -/
def execFrsqSeed (x : At) (f : FmtR) (s : State) : Host.Outcome State Fault Refusal :=
  gated s "FRSQ_SEED" (frsqSeed x f s.dev)
/-- F2I (03 R76). -/
def execF2i (x : At) (f : FmtR) (s : State) : Host.Outcome State Fault Refusal := gated s "F2I" (f2i x f s.dev)
/-- I2F (03 R76). -/
def execI2f (x : At) (f : FmtR) (s : State) : Host.Outcome State Fault Refusal := gated s "I2F" (i2f x f s.dev)
/-- F2F (03 R82). -/
def execF2f (x : At) (f : FmtR) (s : State) : Host.Outcome State Fault Refusal := gated s "F2F" (f2f x f s.dev)
/-- PACK (03 R76). -/
def execPack (x : At) (f : FmtR) (s : State) : Host.Outcome State Fault Refusal := gated s "PACK" (pack x f s.dev)
/-- UNPACK (03 R76). -/
def execUnpack (x : At) (f : FmtR) (s : State) : Host.Outcome State Fault Refusal :=
  gated s "UNPACK" (unpack x f s.dev)
/-- DOT4_I8 (03 R83). -/
def execDot4I8 (x : At) (f : FmtR) (s : State) : Host.Outcome State Fault Refusal :=
  gated s "DOT4_I8" (dot4I8 x f s.dev)
/-- DOT8_I4 (03 R83). -/
def execDot8I4 (x : At) (f : FmtR) (s : State) : Host.Outcome State Fault Refusal :=
  gated s "DOT8_I4" (dot8I4 x f s.dev)
/-- DOT2_F16 (03 R83). -/
def execDot2F16 (x : At) (f : FmtR) (s : State) : Host.Outcome State Fault Refusal :=
  gated s "DOT2_F16" (dot2F16 x f s.dev)
/-- DOT2_BF16 (03 R83). -/
def execDot2Bf16 (x : At) (f : FmtR) (s : State) : Host.Outcome State Fault Refusal :=
  gated s "DOT2_BF16" (dot2Bf16 x f s.dev)
/-- DOT4_F8 (03 R83). -/
def execDot4F8 (x : At) (f : FmtR) (s : State) : Host.Outcome State Fault Refusal :=
  gated s "DOT4_F8" (dot4F8 x f s.dev)
/-- DOT8_F4 (03 R83). -/
def execDot8F4 (x : At) (f : FmtR) (s : State) : Host.Outcome State Fault Refusal :=
  gated s "DOT8_F4" (dot8F4 x f s.dev)

end Sys2Proof.Machine
end

