-- ==== Sys2Proof/Machine/Control.lean ====
section
/-! DEFINITION. The predicate instructions (03 Table 3.11) and the control and uniform instructions
(03 Table 3.12). -/

namespace Sys2Proof.Machine

/-! ## Predicates -/

/-- The form of PLMUX: four predicates, and the truth tables in MOD. -/
def plmuxForm (f : FmtR) : Form :=
  { guard := f.guard, code := codeR f,
    legal := decide (f.func = 0) && bselOk f && predField f.d && predField f.a && predField f.b &&
      predField f.c,
    regs := [], pall := predBit f.d ||| predBit f.a ||| predBit f.b ||| predBit f.c, pout := predBit f.d, words := 1 }

/-- PLMUX: f1 or f0 of Pa and Pb by Pc, from MOD as for LMUX. -/
def plmux (x : At) (f : FmtR) : Dev → Option Dev :=
  issueP x ((plmuxForm f).op 0x48 .fb) (bits f.d 0 3) fun g t =>
    lmuxBit f.mod (readP g (bits f.a 0 3) t) (readP g (bits f.b 0 3) t) (readP g (bits f.c 0 3) t)

/-- The mask of the voting lanes with Pa = 1 (R83). -/
def ballot (g : Group) (run : List Bool) (p : Nat) : List Bool :=
  perLane fun t => onLane run t && readP g p t

/-- The form of VOTE: BALLOT names a register, ANY and ALL a predicate. -/
def voteForm (f : FmtR) : Form :=
  { guard := f.guard, code := codeR f,
    legal := decide (tyOf f = 0) && decide (midOf f = 0) && decide (subOf f ≤ 2) &&
      modOnly f.mod 0 && bselOk f && decide (f.b = 0) && decide (f.c = 0) &&
      predField f.a && (decide (subOf f = 2) || predField f.d),
    regs := if subOf f = 2 then [.x f.d.toNat 1] else [], outs := if subOf f = 2 then [.x f.d.toNat 1] else [],
    pall := predBit f.a ||| (if subOf f = 2 then 0 else predBit f.d),
    pout := if subOf f = 2 then 0 else predBit f.d, words := 1 }

/-- VOTE: ANY, ALL into a predicate, BALLOT into a register (R83). -/
def vote (x : At) (f : FmtR) : Dev → Option Dev :=
  issue x ((voteForm f).op 0x49 .fb) fun l d =>
    let m := ballot l.g l.run (bits f.a 0 3)
    some (commit d l 1
      (if subOf f = 2 then writeX l.g f.d.toNat l.run fun _ => BitVec.ofNat 32 (laneMask m)
       else writeP l.g (bits f.d 0 3) l.run fun _ =>
         if subOf f = 0 then decide (lanesOf m ≠ []) else decide (lanesOf m = lanesOf l.run)))

/-- The form of PPACK. -/
def ppackForm (f : FmtR) : Form :=
  { guard := f.guard, code := codeR f,
    legal := decide (f.func = 0) && modOnly f.mod 0 && bselOk f && decide (f.a = 0) &&
      decide (f.b = 0) && decide (f.c = 0),
    regs := [.x f.d.toNat 1], outs := [.x f.d.toNat 1], pall := 0xFF, words := 1 }

/-- PPACK: d[7:0] = P7 to P0. -/
def ppack (x : At) (f : FmtR) : Dev → Option Dev :=
  issueX x ((ppackForm f).op 0x4A .fb) f.d.toNat 1 fun g t => (laneOf g t).preds.toNat

/-- The form of PUNPACK. -/
def punpackForm (f : FmtR) : Form :=
  { guard := f.guard, code := codeR f,
    legal := decide (f.func = 0) && modOnly f.mod 0 && bselOk f && decide (f.d = 0) &&
      decide (f.b = 0) && decide (f.c = 0),
    regs := [.x f.a.toNat 1], pall := 0xFF, pout := 0xFF, words := 1 }

/-- PUNPACK: P7 to P0 = a[7:0]. -/
def punpack (x : At) (f : FmtR) : Dev → Option Dev :=
  issue x ((punpackForm f).op 0x4B .fb) fun l d =>
    some (commit d l 1 (mapLanes l.g fun t ln =>
      if onLane l.run t then { ln with preds := BitVec.ofNat 8 (readX l.g f.a.toNat t).toNat } else ln))

/-! ## Branches (R84) -/

/-- OFF43 × 8 as a change of PC. -/
def branchOff (f : FmtB) : BitVec 47 := BitVec.ofNat 47 (wrap 47 (8 * signed 43 f.off.toNat))

/-- The PC that a register pair holds, and whether its bits above 46 are all 0. A target outside the
47 bits of a PC is held as an address outside the device address window (log 10). -/
def pcOfPair (v : Nat) : BitVec 47 :=
  if v < 2 ^ 47 then BitVec.ofNat 47 v else BitVec.ofNat 47 (v % 2 ^ 39 + 2 ^ 39)

/-- Move the lanes of `run` to their targets and the rest of the active set past the instruction. -/
def branchTo (l : Lead) (g : Group) (tgt : Nat → BitVec 47) : Group :=
  mapLanes g fun t ln =>
    if onLane l.run t then { ln with pc := tgt t }
    else if onLane l.act t then { ln with pc := ln.pc + 8 } else ln

/-- The form of BRA: L is 0. -/
def braForm (f : FmtB) : Form := { guard := f.guard, code := codeB f, legal := decide (f.l = 0), regs := [], words := 1 }

def bra (x : At) (f : FmtB) : Dev → Option Dev :=
  issue x ((braForm f).op 0x60 .ctl) fun l d =>
    some (putLead d l (branchTo l l.g fun _ => l.pc + branchOff f))

/-- The form of BRX: OFF43 is 0. -/
def brxForm (f : FmtB) : Form :=
  { guard := f.guard, code := codeB f, legal := decide (f.off = 0), regs := [.x f.l.toNat 2], words := 1 }

def brx (x : At) (f : FmtB) : Dev → Option Dev :=
  issue x ((brxForm f).op 0x61 .ctl) fun l d => some (putLead d l (branchTo l l.g fun t => pcOfPair (readXPair l.g f.l.toNat t)))

/-- The return address in pair L. -/
def saveReturn (l : Lead) (f : FmtB) : Group :=
  writeXs l.g f.l.toNat 2 l.run fun _ => (l.pc + 8).toNat

/-- The form of CALL. -/
def callForm (f : FmtB) : Form := 
  { guard := f.guard, code := codeB f, legal := true, regs := [.x f.l.toNat 2],
    outs := [.x f.l.toNat 2], words := 1 }

def call (x : At) (f : FmtB) : Dev → Option Dev :=
  issue x ((callForm f).op 0x62 .ctl) fun l d =>
    some (putLead d l (branchTo l (saveReturn l f) fun _ => l.pc + branchOff f))

/-- The register of pair L + 2; XZ when L is XZ, whose successor the spec does not name (DESIGN CHOICE,
log 68). -/
def callxSrc (f : FmtB) : Nat := if f.l = 255 then 255 else f.l.toNat + 2

/-- The form of CALLX: OFF43 is 0. -/
def callxForm (f : FmtB) : Form :=
  { guard := f.guard, code := codeB f, legal := decide (f.off = 0), regs := [.x f.l.toNat 2, .x (callxSrc f) 2],
    outs := [.x f.l.toNat 2], words := 1 }

def callx (x : At) (f : FmtB) : Dev → Option Dev :=
  issue x ((callxForm f).op 0x63 .ctl) fun l d =>
    some (putLead d l (branchTo l (saveReturn l f) fun t =>
      pcOfPair (readXPair l.g (callxSrc f) t)))

/-! ## Yield, barriers, exit, trap -/

/-- The legality of YIELD, BAR.GRP, EXIT and NOP: every field but GUARD is 0. -/
def bareForm (f : FmtR) : Form :=
  { guard := f.guard, code := codeR f,
    legal := decide (f.func = 0) && modOnly f.mod 0 && bselOk f && decide (f.d = 0) &&
      decide (f.a = 0) && decide (f.b = 0) && decide (f.c = 0), regs := [], words := 1 }

/-- YIELD (02 R46): under a guard only the lanes whose guard is true yield (03 R73). -/
def yield (x : At) (f : FmtR) : Dev → Option Dev :=
  issue x ((bareForm f).op 0x64 .ctl) fun l d =>
    some (commit d l 1 (mapLanes l.g fun t ln => if onLane l.run t then { ln with yld := true } else ln))

/-- The group after lanes park at barrier `b`: parked lanes keep their PC (02 R55), the others of
the active set advance. -/
def park (l : Lead) (b : Option (BitVec 3)) : Group :=
  mapLanes l.g fun t ln =>
    if onLane l.run t then { ln with st := .parked b }
    else if onLane l.act t then { ln with pc := ln.pc + 8 } else ln

/-- Put back a lead's group, then complete what its parking or exiting completes (02 R57). -/
def settleLead (d : Dev) (l : Lead) (g : Group) : Dev :=
  let d := putLead d l g
  putCore d l.core (settle (getCore d l.core) g.pos)

def barGrp (x : At) (f : FmtR) : Dev → Option Dev :=
  issue x ((bareForm f).op 0x65 .ctl) fun l d => some (settleLead d l (park l none))

/-- The form of BAR.CORE: the barrier in FUNC3. -/
def barCoreForm (f : FmtI) : Form :=
  { guard := f.guard, code := codeI f, legal := decide (f.d = 0) && decide (f.a = 0) && decide (f.imm = 0), regs := [], words := 1 }

def barCore (x : At) (f : FmtI) : Dev → Option Dev :=
  issue x ((barCoreForm f).op 0x66 .ctl) fun l d => some (settleLead d l (park l (some f.func3)))

/-- EXIT: lanes whose guard is true become EXITED and count as arrived (02 R57, R62). -/
def exitOp (x : At) (f : FmtR) : Dev → Option Dev :=
  issue x ((bareForm f).op 0x67 .ctl) fun l d => some (settleLead d l (mapLanes l.g fun t ln =>
    if onLane l.run t then { ln with st := .exited }
    else if onLane l.act t then { ln with pc := ln.pc + 8 } else ln))

/-- The form of TRAP. IMM32[31:16] is not looked at: the code is IMM32[15:0], and no rule says what the rest
holds (DESIGN CHOICE, log 68). -/
def trapForm (f : FmtI) : Form :=
  { guard := f.guard, code := codeI f, legal := decide (f.d = 0) && decide (f.a = 0) && decide (f.func3 = 0), regs := [], words := 1 }

/-- TRAP: FAULT_TRAP with IMM32[15:0] as code; without a lane whose guard is true it only advances
(03 R73, R106). -/
def trap (x : At) (f : FmtI) : Dev → Option Dev :=
  issue x ((trapForm f).op 0x68 .ctl) fun l d =>
    some (if lanesOf l.run = [] then commit d l 1 l.g
      else issueFault d l 0x10 (bits f.imm 0 16) l.run)

def nop (x : At) (f : FmtR) : Dev → Option Dev :=
  issue x ((bareForm f).op 0x69 .ctl) fun l d => some (commit d l 1 l.g)

/-! ## Uniform instructions (R72) -/

/-- A U field uses bits [5:0], with bits [7:6] 0 (R76). -/
def uField (b : Byte) : Bool := decide (bits b 6 2 = 0)

/-- UALU's operation on 32 bits (Table 3.12). -/
def ualuVal (sub : Nat) (a b : Word) : Word :=
  match sub with
  | 0 => a + b
  | 1 => a - b
  | 2 => a * b
  | 3 => a &&& b
  | 4 => a ||| b
  | 5 => a ^^^ b
  | 6 => a <<< (b.toNat % 32)
  | _ => a >>> (b.toNat % 32)

/-- The issue of a uniform instruction: the register is written once per issue (R72). -/
def issueU (x : At) (f : Form) (g : Lead → Group) : Dev → Option Dev :=
  issue x f fun l d => some (commit d l f.words (g l))

/-- The form of UALU. -/
def ualuForm (f : FmtR) : Form :=
  { guard := f.guard, code := codeR f,
    legal := unguarded f.guard && decide (tyOf f = 0) && decide (midOf f = 0) &&
      modOnly f.mod 0 && decide (f.bsel.toNat ≤ 1) && decide (f.c = 0) && uField f.d &&
      uField f.a && uField f.b,
    regs := [.u f.d.toNat 1, .u f.a.toNat 1, .u f.b.toNat 1], outs := [.u f.d.toNat 1], words := 1 }

def ualu (x : At) (f : FmtR) : Dev → Option Dev :=
  issueU x ((ualuForm f).op 0x6A .ctl) fun l =>
    writeU l.g f.d.toNat (ualuVal (subOf f) (readU l.g f.a.toNat) (readU l.g f.b.toNat))

/-- The form of UMOVI. -/
def umoviForm (f : FmtI) : Form :=
  { guard := f.guard, code := codeI f,
    legal := unguarded f.guard && decide (f.a = 0) && decide (f.func3 = 0) && uField f.d,
    regs := [.u f.d.toNat 1], outs := [.u f.d.toNat 1], words := 1 }

def umovi (x : At) (f : FmtI) : Dev → Option Dev :=
  issueU x ((umoviForm f).op 0x6B .ctl) fun l => writeU l.g f.d.toNat f.imm

/-- The form of UMOVL: two words, a pair. -/
def umovlForm (f : FmtL) : Form :=
  { guard := f.guard, code := codeL f, legal := unguarded f.guard && decide (f.rsv = 0) && uField f.d,
    regs := [.u f.d.toNat 2], outs := [.u f.d.toNat 2], words := 2 }

def umovl (x : At) (f : FmtL) : Dev → Option Dev :=
  issueU x ((umovlForm f).op 0x6C .ctl) fun l =>
    writeU (writeU l.g f.d.toNat (BitVec.ofNat 32 (bits f.imm 0 32))) (f.d.toNat + 1)
      (BitVec.ofNat 32 (bits f.imm 32 32))

/-- The form of URDL. -/
def urdlForm (f : FmtR) : Form :=
  { guard := f.guard, code := codeR f,
    legal := unguarded f.guard && decide (f.func = 0) && modOnly f.mod 0 && bselOk f &&
      decide (f.b = 0) && decide (f.c = 0) && uField f.d,
    regs := [.u f.d.toNat 1, .x f.a.toNat 1], outs := [.u f.d.toNat 1], words := 1 }

/-- URDL: Xa of the lowest-numbered lane of the active set. -/
def urdl (x : At) (f : FmtR) : Dev → Option Dev :=
  issueU x ((urdlForm f).op 0x6D .ctl) fun l =>
    writeU l.g f.d.toNat (readX l.g f.a.toNat ((lanesOf l.act).headD 0))

/-! ## The commands of this family -/

/-- PLMUX (03 R75). -/
def execPlmux (x : At) (f : FmtR) (s : State) : Host.Outcome State Fault Refusal := gated s "PLMUX" (plmux x f s.dev)
/-- VOTE (03 R83). -/
def execVote (x : At) (f : FmtR) (s : State) : Host.Outcome State Fault Refusal := gated s "VOTE" (vote x f s.dev)
/-- PPACK (03 R76). -/
def execPpack (x : At) (f : FmtR) (s : State) : Host.Outcome State Fault Refusal := gated s "PPACK" (ppack x f s.dev)
/-- PUNPACK (03 R76). -/
def execPunpack (x : At) (f : FmtR) (s : State) : Host.Outcome State Fault Refusal :=
  gated s "PUNPACK" (punpack x f s.dev)
/-- BRA (03 R84). -/
def execBra (x : At) (f : FmtB) (s : State) : Host.Outcome State Fault Refusal := gated s "BRA" (bra x f s.dev)
/-- BRX (03 R84). -/
def execBrx (x : At) (f : FmtB) (s : State) : Host.Outcome State Fault Refusal := gated s "BRX" (brx x f s.dev)
/-- CALL (03 R84). -/
def execCall (x : At) (f : FmtB) (s : State) : Host.Outcome State Fault Refusal := gated s "CALL" (call x f s.dev)
/-- CALLX (03 R84). -/
def execCallx (x : At) (f : FmtB) (s : State) : Host.Outcome State Fault Refusal := gated s "CALLX" (callx x f s.dev)
/-- YIELD (02 R46). -/
def execYield (x : At) (f : FmtR) (s : State) : Host.Outcome State Fault Refusal := gated s "YIELD" (yield x f s.dev)
/-- BAR_GRP (02 R56). -/
def execBarGrp (x : At) (f : FmtR) (s : State) : Host.Outcome State Fault Refusal :=
  gated s "BAR_GRP" (barGrp x f s.dev)
/-- BAR_CORE (02 R56). -/
def execBarCore (x : At) (f : FmtI) (s : State) : Host.Outcome State Fault Refusal :=
  gated s "BAR_CORE" (barCore x f s.dev)
/-- EXIT (02 R57). -/
def execExit (x : At) (f : FmtR) (s : State) : Host.Outcome State Fault Refusal := gated s "EXIT" (exitOp x f s.dev)
/-- TRAP (03 R106). -/
def execTrap (x : At) (f : FmtI) (s : State) : Host.Outcome State Fault Refusal := gated s "TRAP" (trap x f s.dev)
/-- NOP (03 R74). -/
def execNop (x : At) (f : FmtR) (s : State) : Host.Outcome State Fault Refusal := gated s "NOP" (nop x f s.dev)
/-- UALU (03 R72). -/
def execUalu (x : At) (f : FmtR) (s : State) : Host.Outcome State Fault Refusal := gated s "UALU" (ualu x f s.dev)
/-- UMOVI (03 R72). -/
def execUmovi (x : At) (f : FmtI) (s : State) : Host.Outcome State Fault Refusal := gated s "UMOVI" (umovi x f s.dev)
/-- UMOVL (03 R72). -/
def execUmovl (x : At) (f : FmtL) (s : State) : Host.Outcome State Fault Refusal := gated s "UMOVL" (umovl x f s.dev)
/-- URDL (03 R72). -/
def execUrdl (x : At) (f : FmtR) (s : State) : Host.Outcome State Fault Refusal := gated s "URDL" (urdl x f s.dev)

end Sys2Proof.Machine
end

