-- ==== Sys2Proof/Machine/Memory.lean ====
section
/-! DEFINITION. External memory, the page map and translation (09), and error injection (15 R459). -/

namespace Sys2Proof.Machine

/-! ## Lines as bytes -/

/-- Byte `i` of a line. -/
def lineByte (l : Line) (i : Nat) : Byte := BitVec.ofNat 8 (bits l (8 * i) 8)

/-- The line whose byte `i` is `f i`. -/
def mkLine (f : Nat → Byte) : Line :=
  BitVec.ofNat 1024 ((List.range 128).foldl (fun s i => s + (f i).toNat * 2 ^ (8 * i)) 0)

/-- The mask of a byte range of a line. -/
def maskOf (off n : Nat) : LMask := BitVec.ofNat 128 ((2 ^ n - 1) * 2 ^ off)

/-- A byte mask that covers the whole line (08 R236). -/
def fullMask : LMask := BitVec.allOnes 128

/-- The bytes of `new` where the mask is 1, the bytes of `old` elsewhere. -/
def merge (old new : Line) (m : LMask) : Line :=
  mkLine fun i => if bit m i then lineByte new i else lineByte old i

/-- `n` bytes of a line from `off`, little-endian. -/
def lineBits (l : Line) (off n : Nat) : Nat := bits l (8 * off) (8 * n)

/-- A line with `n` bytes from `off` replaced. -/
def setLine (l : Line) (off n v : Nat) : Line := setBits l (8 * off) (8 * n) v

/-! ## Injection and error marks (15 R455, R459) -/

/-- The mark of a word, if its check bits are in error. -/
def markOf (d : Dev) (mem unit index : Nat) : Option ErrMark :=
  d.errs.find? fun e => e.mem = mem && e.unit = unit && e.index = index

/-- Remove the mark of a word. -/
def clearMark (d : Dev) (mem unit index : Nat) : Dev :=
  { d with errs := d.errs.filter fun e => !(e.mem = mem && e.unit = unit && e.index = index) }

/-- Add a mark, replacing one of the same word. -/
def addMark (d : Dev) (e : ErrMark) : Dev :=
  let d := clearMark d e.mem e.unit e.index
  { d with errs := d.errs ++ [e] }

/-- The marks of a unit's words in [lo, hi) that satisfy `p`. -/
def marksIn (d : Dev) (mem unit lo hi : Nat) (p : Nat → Bool) : List ErrMark :=
  d.errs.filter fun e => decide (e.mem = mem) && decide (e.unit = unit) && decide (lo ≤ e.index) &&
    decide (e.index < hi) && p e.index

/-- Read words of a core's memory that corrects on read: every error is recorded, and the answer is whether one
is uncorrectable (15 Table 15.4). `loc` gives LOC1 and LOC2 of a word. -/
def readMarks (d : Dev) (n mem lo hi : Nat) (p : Nat → Bool) (loc : Nat → Nat × Nat) : Bool × Dev :=
  let ms := marksIn d mem n lo hi p
  (ms.any fun e => e.dbl,
   ms.foldl (fun d e => memRecord d (src 0 n) (if e.dbl then 2 else 1) mem n (loc e.index).1 (loc e.index).2 0 e.inj) d)

/-- Words of a range that are written: their check bits become valid. -/
def dropMarks (d : Dev) (mem unit lo hi : Nat) (p : Nat → Bool) : Dev :=
  { d with errs := d.errs.filter fun e => !(decide (e.mem = mem) && decide (e.unit = unit) && decide (lo ≤ e.index) &&
      decide (e.index < hi) && p e.index) }

/-- The write of a word to memory `mem` (TARGET `target`) by `unit`: its check bits become valid,
unless an armed injection names the unit (15 R459). -/
def writeWord (d : Dev) (target mem unit index : Nat) : Dev :=
  let d := clearMark d mem unit index
  let r := regGet d aErrInject
  if bit r 62 ∧ bits r 56 4 = target ∧ (bits r 32 11 = unit ∨ target = 5) then
    addMark (regSet d aErrInject 62 1 0)
      { mem := mem, unit := unit, index := index, dbl := bit r 55, inj := true, seen := false }
  else d

/-! ## External memory (09 R273 to R286) -/

/-- Memory mode in force: Protected when 1 (09 Table 9.9). -/
def protectedMode (d : Dev) : Bool := bit (regGet d aPgmMode) 0

/-- Frames of the memory mode (09 Table 9.7). -/
def frameCount (d : Dev) : Nat := if protectedMode d then 368640 else 393216

/-- Channel of byte offset `o` of frame `f` (09 R276). -/
def chanOf (f o : Nat) : Nat := (o / 128 % 32) ^^^ (f % 32)

/-- Channel address of a byte (09 R276). -/
def chanAddr (f o : Nat) : Nat := f * 32768 + o / 4096 * 128 + o % 128

/-- Unit number of a byte (09 R276). -/
def unitOf (f o : Nat) : Nat := chanAddr f o / 64

/-- A byte of external memory by frame and offset. -/
def memByte (d : Dev) (f o : Nat) : Byte := mapGet 0 d.mem (f * 2 ^ 20 + o)

/-- The form of the memory's cells: addresses strictly rising, and no cell equal to what an unlisted
address reads as (log 4). -/
def Memory.wf : List Host.Cell → Bool
  | [] => true
  | [c] => decide (c.2 ≠ 0)
  | c :: e :: m => decide (c.2 ≠ 0) && decide (c.1 < e.1) && Memory.wf (e :: m)

/-- Write `n` bytes of a line at offset `o` of frame `f`, where the mask is 1. -/
def memStore (m : List Host.Cell) (base : Nat) (data : Line) (mask : LMask) : List Host.Cell :=
  (List.range 128).foldl
    (fun m i => if bit mask i then mapPut 0 m (base + i) (lineByte data i) else m) m

/-- Table 15.4's code of the code that guards external memory in the mode in force. -/
def memCode (d : Dev) : Nat := if protectedMode d then 0x0E else 0x0D

/-- Count 64 B of class `k` in each controller access (10 R316). -/
def countMbw (d : Dev) (k units : Nat) : Dev := regWrap d (aMbw k) 0 48 (64 * units)

/-- A unit's check line enters the front of its controller's check cache, dirty when its check word is written; of 257
lines the one least recently used leaves, written back (09 R280; the order is the model's, log 62). -/
def checkTouch (d : Dev) (c u : Nat) (write : Bool) : Dev :=
  if protectedMode d then
    let l := mapGet [] d.chk c
    let dirty := write || l.any fun x => decide (x.1 = u / 16) && x.2
    { d with chk := mapPut [] d.chk c (((u / 16, dirty) :: l.filter fun x => x.1 != u / 16).take 256) }
  else d

/-- What a device reports of a burst in Protected mode, where the controller's own code decides: a correction is
counted (09 R281). -/
def deviceReport (d : Dev) (c u : Nat) : Dev :=
  match (if protectedMode d then markOf d 0x0D c u else none) with
  | some e => if e.dbl then d else regSat (clearMark d 0x0D c u) (aChan c) 16 16 1
  | none => d

/-- Read one unit: a single error is corrected and written back; a double one, a location mismatch, POISON or a
reserved bit of 1 in its check word give UE, and stand as one mark (09 R279, R281, R286). -/
def readUnit (d0 : Dev) (f o dev : Nat) : Bool × Dev :=
  let c := chanOf f o
  let u := unitOf f o
  let d := checkTouch (deviceReport d0 c u) c u ((markOf d0 (memCode d0) c u).any fun e => !e.dbl)
  match markOf d (memCode d) c u with
  | none => (true, d)
  | some e =>
    if e.dbl then
      (false, memRecord (regSat d (aChan c) 0 8 1) (src 2 c) 2 (memCode d) u u f dev e.inj)
    else
      let d1 := if protectedMode d then regSat d (aChan c) 8 8 1 else regSat d (aChan c) 16 16 1
      (true, memRecord (clearMark d1 (memCode d) c u) (src 2 c) 1 (memCode d) u u f dev e.inj)

/-- Read line `idx` of frame `f` in class `k`: its bytes, and whether both units read without UE. -/
def readMemLine (d : Dev) (k f idx dev : Nat) : (Bool × Line) × Dev :=
  let o := 128 * idx
  let (a, d) := readUnit d f o dev
  let (b, d) := readUnit d f (o + 64) dev
  ((a && b, mkLine fun i => memByte d f (o + i)), countMbw d k 2)

/-- Write the bytes of a line that the mask selects, in class `k`. A unit that is covered in part is
read, merged and written as one operation, two units in the counters (10 R316); when that read ends in UE the write
is discarded (08 R237). -/
def writeMemLine (d : Dev) (k f idx dev : Nat) (data : Line) (mask : LMask) : Dev :=
  (List.range 2).foldl (fun d h =>
    let part := bits mask (64 * h) 64
    let o := 128 * idx + 64 * h
    if part = 0 then d
    else
      let whole := decide (part = 2 ^ 64 - 1)
      let (good, d) := if whole then (true, d) else
        let r := readUnit d f o dev
        (r.1, countMbw r.2 k 1)
      if good then
        let d := { d with mem := memStore d.mem (f * 2 ^ 20 + 128 * idx) data
                                    (mask &&& maskOf (64 * h) 64) }
        countMbw (checkTouch (writeWord d 4 (memCode d) (chanOf f o) (unitOf f o)) (chanOf f o) (unitOf f o) true) k 1
      else d) d

/-! ## The page map (09 R265, R266) -/

/-- The fields of an entry (09 Table 9.3). -/
def pteValid (e : D64) : Bool := bit e 63
def pteEnc (e : D64) : Bool := bit e 62
def pteRetired (e : D64) : Bool := bit e 61
def pteRo (e : D64) : Bool := bit e 60
def pteCacheable (e : D64) : Bool := bit e 59
def pteCompress (e : D64) : Bool := bit e 58
def pteHome (e : D64) : Nat := bits e 56 2
def pteLslice (e : D64) : Nat := bits e 45 11
def ptePinClass (e : D64) : Nat := bits e 43 2
def pteFrame (e : D64) : Nat := bits e 0 19

/-- An entry maps a frame (09 R266 item 1, without its check bits). -/
def pteMaps (d : Dev) (e : D64) : Bool :=
  pteValid e && pteEnc e && decide (bits e 19 24 = 0) && decide (pteFrame e < frameCount d)

/-- Outcome of a translation (09 R266). -/
inductive Tx where
  | invalid
  | retired
  | entry (e : D64)
deriving DecidableEq, Repr

/-- The stored entry of page `p`. -/
def pmapEntry (d : Dev) (p : Nat) : D64 := mapGet 0 d.pmap p

/-- Read entry `p` (09 R265, R266; 15 Table 15.4 code 0x0C): a single error is corrected and written
back, an uncorrectable one makes the entry not valid and is logged. -/
def readPage (d : Dev) (p : Nat) : Tx × Dev :=
  let go (d : Dev) : Tx × Dev :=
    let e := pmapEntry d p
    if !pteMaps d e then (.invalid, d)
    else if pteRetired e then (.retired, d) else (.entry e, d)
  match markOf d 0x0C 0 p with
  | none => go d
  | some m =>
    if m.dbl then (.invalid, memRecord d (src 13 0) 2 0x0C p p 0 (p * 2 ^ 20) m.inj)
    else go (memRecord (clearMark d 0x0C 0 p) (src 13 0) 1 0x0C p p 0 (p * 2 ^ 20) m.inj)

/-- Write entry `p` whole (09 R265). -/
def writePage (d : Dev) (p : Nat) (e : D64) : Dev :=
  writeWord { d with pmap := mapPut 0 d.pmap p e } 5 0x0C 0 p

/-- Put an entry at the front of a translation cache of `cap` entries: least recently used leaves
(09 R269). -/
def cacheEntry (l : List (Nat × D64)) (cap p : Nat) (e : D64) : List (Nat × D64) :=
  ((p, e) :: l.filter fun x => x.1 != p).take cap

/-- Translate a page of core `n` through its TLB, filling it on a miss (03 R88, 09 R269). -/
def coreTx (d : Dev) (n p : Nat) : Tx × Dev :=
  let c := getCore d n
  match c.tlb.find? fun x => x.1 = p with
  | some x => (.entry x.2, putCore d n { c with tlb := cacheEntry c.tlb 256 p x.2 })
  | none =>
    match readPage d p with
    | (.entry e, d) =>
      let c := getCore d n
      (.entry e, putCore d n { c with tlb := cacheEntry c.tlb 256 p e })
    | (r, d) => (r, d)

/-- Translate a page for a base die master through the base translation cache (09 R269). -/
def baseTx (d : Dev) (p : Nat) : Tx × Dev :=
  match d.btc.find? fun x => x.1 = p with
  | some x => (.entry x.2, { d with btc := cacheEntry d.btc 4096 p x.2 })
  | none =>
    match readPage d p with
    | (.entry e, d) => (.entry e, { d with btc := cacheEntry d.btc 4096 p e })
    | (r, d) => (r, d)

/-! ## The home of a line (08 R227, R233, R234) -/

/-- h10 of R234. -/
def h10 (l : Nat) : Nat := (l % 1024) ^^^ (l / 2 ^ 10 % 1024) ^^^ (l / 2 ^ 20 % 1024) ^^^ (l / 2 ^ 30 % 4)
/-- h11 of R234. -/
def h11 (l : Nat) : Nat := (l % 2048) ^^^ (l / 2 ^ 11 % 2048) ^^^ (l / 2 ^ 22 % 1024)

/-- Home slice of line `l` under an entry (08 Table 8.2). -/
def homeOf (e : D64) (l : Nat) : Nat :=
  match pteHome e with
  | 0 => h10 l
  | 1 => 1024 + h10 l
  | 2 => h11 l
  | _ => pteLslice e

/-- The device page and the line's index in its frame. -/
def pageOfLine (l : Nat) : Nat := l / 8192
def lineIdx (l : Nat) : Nat := l % 8192

end Sys2Proof.Machine
end

