-- ==== Sys2Proof/Machine/Cache.lean ====
section
/-! DEFINITION. The cache die: placement and encoding of lines, replacement, pins, dead marks and
tombstones, and one access at a home slice (08). -/

namespace Sys2Proof.Machine

/-! ## Encodings (Table 8.1) -/

/-- The signed 64-bit deltas of a line's words from its first fit in `n` bits. -/
def deltasFit (l : Line) (n : Nat) : Bool :=
  (List.range 16).all fun i =>
    let dl := signed 64 (bits l (64 * i) 64 + 2 ^ 64 - bits l 0 64)
    decide (-(2 ^ (n - 1) : Nat) ≤ dl) && decide (dl < (2 ^ (n - 1) : Nat))

/-- Bits [lo + w − 1 : lo] are equal in all 64 elements of 16 bits. -/
def sameExp (l : Line) (lo w : Nat) : Bool :=
  (List.range 64).all fun i => decide (bits l (16 * i + lo) w = bits l lo w)

/-- Encoding code and sectors of a line (R228): the fewest sectors, ties to the lower code. -/
def encOf (l : Line) : Nat × Nat :=
  if l = 0 then (1, 0)
  else if (List.range 16).all (fun i => decide (bits l (64 * i) 64 = bits l 0 64)) then (2, 1)
  else if deltasFit l 8 then (3, 1)
  else if deltasFit l 16 then (4, 2)
  else if deltasFit l 32 then (5, 3)
  else if sameExp l 10 5 then (6, 3)
  else if sameExp l 7 8 then (7, 3)
  else (0, 4)

/-- The half of a slice (R225, 00 R10). -/
def halfOf (s : Nat) : Nat := s / 1024

/-- Encoding of a line stored now in slice `s` under entry `e` (R229). -/
def storeEnc (d : Dev) (s : Nat) (e : D64) (l : Line) : Nat × Nat :=
  if pteCompress e && bit (regGet d (aCdcCtrl (halfOf s))) 0 then encOf l else (0, 4)

/-! ## Slices and sets -/

def getSlice (d : Dev) (s : Nat) : Slice := mapGet freshSlice d.slices s
def putSlice (d : Dev) (s : Nat) (v : Slice) : Dev := { d with slices := mapPut freshSlice d.slices s v }
/-- The set of a line (R227). -/
def setOf (l : Nat) : Nat := l % 3072
def getSet (d : Dev) (s i : Nat) : List CLine := mapGet [] (getSlice d s).sets i
def putSet (d : Dev) (s i : Nat) (ls : List CLine) : Dev :=
  let v := getSlice d s
  putSlice d s { v with sets := mapPut [] v.sets i ls }

/-- A way that no line lies in: where a poisoned line stands (R253). -/
def noWay : Nat := 31

/-- Way `w` is in service (R226). -/
def wayIn (v : Slice) (w : Nat) : Bool := decide (w < 16) && !bit v.out w
/-- Ways in service. -/
def waysOf (v : Slice) : Nat := ((List.range 16).filter fun w => wayIn v w).length
/-- Sectors of a mask. -/
def sectCount (m : BitVec 4) : Nat := ((List.range 4).filter fun i => bit m i).length
/-- The sectors in use in a way. -/
def usedSect (ls : List CLine) (w : Nat) : BitVec 4 :=
  (ls.filter fun c => decide (c.way = w)).foldl (fun m c => m ||| c.sect) 0
/-- Free sectors of a way. -/
def freeSect (ls : List CLine) (w : Nat) : Nat := 4 - sectCount (usedSect ls w)
/-- The lowest `n` free sectors of a way. -/
def takeSect (ls : List CLine) (w n : Nat) : BitVec 4 :=
  (((List.range 4).filter fun i => !bit (usedSect ls w) i).take n).foldl
    (fun m i => m ||| BitVec.ofNat 4 (2 ^ i)) 0
/-- A way holds a pinned line. -/
def wayHasPin (ls : List CLine) (w : Nat) : Bool := ls.any fun c => c.pinned && decide (c.way = w)
/-- A pinned way: it holds pinned lines and nothing else (R241). -/
def pinnedWay (ls : List CLine) (w : Nat) : Bool :=
  wayHasPin ls w && ls.all fun c => c.pinned || !decide (c.way = w)
/-- Ways of a set that hold pinned lines, and its pinned tags (R241). -/
def pinWays (ls : List CLine) : Nat := ((List.range 16).filter fun w => wayHasPin ls w).length
def pinTags (ls : List CLine) : Nat := (ls.filter fun c => c.pinned).length

/-- The way mask of class `k` in the half of slice `s` (10 R311). -/
def wayMask (d : Dev) (s k : Nat) : Nat :=
  if halfOf s = 0 then regField d (aWayMask k) 0 16 else regField d (aWayMask k) 16 16

/-- Ways eligible for class `k` in a set (R238), with the exception of 10 R311. -/
def eligible (d : Dev) (s k : Nat) (ls : List CLine) : List Nat :=
  let v := getSlice d s
  let free := (List.range 16).filter fun w => wayIn v w && !wayHasPin ls w
  let m := free.filter fun w => (wayMask d s k).testBit w
  if m.length < 4 then free else m

/-! ## Counters (R254) -/

/-- Add to counter `e` of class `k` in the half of slice `s`. -/
def count (d : Dev) (s k e : Nat) : Dev := regWrap d (aCnt (halfOf s) k e) 0 48 1

/-- A valid line of a set by number. -/
def findLine (d : Dev) (s line : Nat) : Option CLine :=
  (getSet d s (setOf line)).find? fun c => decide (c.line = line)

/-- Remove a line from its set. -/
def dropLine (d : Dev) (s line : Nat) : Dev :=
  putSet d s (setOf line) ((getSet d s (setOf line)).filter fun c => c.line != line)

/-- Replace a line in its set. -/
def putLine (d : Dev) (s : Nat) (c : CLine) : Dev :=
  putSet d s (setOf c.line) ((getSet d s (setOf c.line)).map fun x => if x.line = c.line then c else x)

/-- The home unpins a pinned line without a request (R244): it stays cached, and EV_PIN_EVICTED
carries slice, set and line number. The slice counts it. -/
def pinEvicted (d : Dev) (s line : Nat) : Dev :=
  let v := getSlice d s
  event (putSlice d s { v with pinEvents := v.pinEvents + 1 }) (src 1 s) 0x0303 s (setOf line) line 0

/-! ## Check bits (R253) -/

/-- Poison a present line (R253 item 1): it keeps its tag and dirty state, releases its sectors and
loses its pin. -/
def poisonLine (d : Dev) (s : Nat) (c : CLine) : Dev :=
  let d := putLine d s { c with poison := true, pinned := false, sect := 0, way := noWay, data := 0 }
  if c.pinned then pinEvicted d s c.line else d

/-- Check the data of a line as it is used (R253): the line as it stands after. -/
def checkData (d : Dev) (s line : Nat) (c : CLine) : CLine × Dev :=
  match markOf d 0x0A s line with
  | none => (c, d)
  | some m =>
    let d := clearMark d 0x0A s line
    let loc (d : Dev) (code : Nat) : Dev := memRecord d (src 1 s) code 0x0A s (setOf line) c.way (line * 128) m.inj
    if c.poison then (c, d)
    else if m.dbl then
      ({ c with poison := true, pinned := false, sect := 0, way := noWay, data := 0 }, loc (poisonLine d s c) 2)
    else (c, loc (regSat d (aCdcStatus (halfOf s)) 0 32 1) 1)

/-- Check the tag and data of a line as it is used (R253): the line as it stands after, if any. -/
def checkLine (d : Dev) (s line : Nat) : Option CLine × Dev :=
  match findLine d s line with
  | none => (none, d)
  | some c =>
    match markOf d 0x0B s line with
    | none => let r := checkData d s line c; (some r.1, r.2)
    | some m =>
      let loc (d : Dev) (code : Nat) : Dev := memRecord d (src 1 s) code 0x0B s (setOf line) c.way (line * 128) m.inj
      if m.dbl then (none, loc (dropLine (clearMark (clearMark d 0x0B s line) 0x0A s line) s line) 4)
      else
        let r := checkData (loc (regSat (clearMark d 0x0B s line) (aCdcStatus (halfOf s)) 0 32 1) 1) s line c
        (some r.1, r.2)

/-! ## Eviction (R238) -/

/-- Bytes counted for a request accepted at a home (10 R316). -/
def countBw (d : Dev) (s k : Nat) : Dev := regWrap d (aBw k (halfOf s)) 0 48 128

/-- External memory write of a dirty line, in the class of its tag (R254, 10 Table 10.6). -/
def writeBack (d : Dev) (k : Nat) (c : CLine) : Dev :=
  if c.dirty then writeMemLine d k (pteFrame c.pte) (lineIdx c.line) (c.line * 128) c.data fullMask else d

/-- Write a present line back if it is dirty. The read that this takes checks it, and a line that it poisons or whose
tag it loses is not written (R253): the line as it stands after, if any. -/
def readBack (d : Dev) (s k : Nat) (c : CLine) : Option CLine × Dev :=
  if !c.dirty || c.poison then (some c, d)
  else if (markOf d 0x0A s c.line).isNone && (markOf d 0x0B s c.line).isNone then (some c, writeBack d k c)
  else match checkLine d s c.line with
    | (some x, d) => (some x, if x.poison then d else writeBack d k x)
    | (none, d) => (none, d)

/-- Evict a line: written back if dirty, counted in the class of its tag (R238, R254). A line that the eviction's
read poisons stays (R253). -/
def evict (d : Dev) (s : Nat) (c : CLine) : Dev :=
  match readBack d s c.cls c with
  | (some x, d) => if x.poison then d else count (dropLine d s c.line) s c.cls 5
  | (none, d) => d

/-- Lines of a set in eligible ways that may be evicted (R238). -/
def victims (ws : List Nat) (ls : List CLine) : List CLine :=
  ls.filter fun c => !c.pinned && !c.poison && ws.contains c.way

/-- First sector of a line; a line of no sectors comes after the others of its way (log 11). -/
def firstSect (c : CLine) : Nat := ((List.range 4).find? fun i => bit c.sect i).getD 4

/-- Of two lines, the one in the lower way, then with the lower first sector (R238). -/
def lowerLine (a b : CLine) : CLine :=
  if b.way < a.way ∨ (b.way = a.way ∧ firstSect b < firstSect a) then b else a

/-- The victim of R238 among candidates of age 3. -/
def victim (ws : List Nat) (ls : List CLine) : Option CLine :=
  match (victims ws ls).filter fun c => decide (c.age = 3) with
  | [] => none
  | c :: cs => some (cs.foldl lowerLine c)

/-- Age every unpinned line below 3 by one (R238). -/
def ageSet (ls : List CLine) : List CLine :=
  ls.map fun c => if !c.pinned && c.age < 3 then { c with age := c.age + 1 } else c

/-- The lowest way of `ws` with `need` free sectors. -/
def roomIn (ls : List CLine) (ws : List Nat) (need : Nat) : Option Nat :=
  ws.find? fun w => decide (need ≤ freeSect ls w)

/-- R238's allocation of `c` (which needs `need` sectors) in class `k`, with fuel for its loop: the
state and whether the line was placed. -/
def allocate : Nat → Dev → Nat → Nat → CLine → Nat → Bool × Dev
  | 0, d, _, _, _, _ => (false, d)
  | fuel + 1, d, s, k, c, need =>
    let i := setOf c.line
    let ls := getSet d s i
    let ws := eligible d s k ls
    match (if ls.length < 32 then roomIn ls ws need else none) with
    | some w => (true, putSet d s i (ls ++ [{ c with way := w, sect := takeSect ls w need }]))
    | none =>
      if victims ws ls = [] then (false, d)
      else match victim ws ls with
        | none => allocate fuel (putSet d s i (ageSet ls)) s k c need
        | some v => allocate fuel (evict d s v) s k c need

/-- Enough fuel for every eviction and ageing of a set of 32 lines. -/
def allocFuel : Nat := 160

/-- A line about to be stored. -/
def newLine (k line : Nat) (e : D64) (data : Line) (enc : Nat) (dirty : Bool) (age : Nat) : CLine :=
  { line := line, data := data, way := 0, sect := 0, enc := enc, dirty := dirty, age := age,
    pinned := false, cls := k, poison := false, pte := e }

/-! ## Pins (R240 to R244) -/

/-- Convert the lowest way in service that holds no pinned line to a pinned way: its lines are
evicted (R241). Poisoned lines lie in no way (R253). -/
def convertWay (d : Dev) (s i : Nat) : Option (Nat × Dev) :=
  let v := getSlice d s
  let ls := getSet d s i
  if pinWays ls < waysOf v - 4 then
    match (List.range 16).find? fun w => wayIn v w && !wayHasPin ls w with
    | some w => some (w, (ls.filter fun c => decide (c.way = w)).foldl (fun d c => evict d s c) d)
    | none => none
  else none

/-- Make a tag free by the evictions of R238 when all 32 are in use, with fuel for its loop. -/
def freeTag : Nat → Dev → Nat → Nat → Nat → Dev
  | 0, d, _, _, _ => d
  | fuel + 1, d, s, k, i =>
    let ls := getSet d s i
    let ws := eligible d s k ls
    if ls.length < 32 ∨ victims ws ls = [] then d
    else match victim ws ls with
      | some v => freeTag fuel (evict d s v) s k i
      | none => freeTag fuel (putSet d s i (ageSet ls)) s k i

/-- Place a line as pinned (R241): in a pinned way with room, or in a way converted for it; `none`
when it fits under neither limit. -/
def placePinned (d : Dev) (s k : Nat) (c : CLine) (need : Nat) : Option Dev :=
  let i := setOf c.line
  let ls := getSet d s i
  if pinTags ls < 24 then
    let d := freeTag allocFuel d s k i
    let ls := getSet d s i
    if 32 ≤ ls.length then none
    else match roomIn ls ((List.range 16).filter fun w => wayIn (getSlice d s) w && pinnedWay ls w) need with
      | some w => some (putSet d s i (ls ++ [{ c with way := w, sect := takeSect ls w need, pinned := true }]))
      | none =>
        match convertWay d s i with
        | some (w, d) =>
          let ls := getSet d s i
          some (putSet d s i (ls ++ [{ c with way := w, sect := takeSect ls w need, pinned := true }]))
        | none => none
  else none

/-! ## Tombstones and dead marks (R245 to R249) -/

/-- Whether a line has a tombstone, and its STALE bit. -/
def tombOf (d : Dev) (s line : Nat) : Option Bool :=
  ((getSlice d s).tombs.find? fun t => t.1 = line).map fun t => t.2

/-- Remove a line's tombstone (R248). -/
def clearTomb (d : Dev) (s line : Nat) : Dev :=
  let v := getSlice d s
  putSlice d s { v with tombs := v.tombs.filter fun t => t.1 != line }

/-- Add a tombstone; the filter keeps the last 4,096 (R246). -/
def addTomb (d : Dev) (s line : Nat) (stale : Bool) : Dev :=
  let v := getSlice d s
  let ts := (v.tombs.filter fun t => t.1 != line) ++ [(line, stale)]
  putSlice d s { v with tombs := ts.drop (ts.length - 4096) }

/-- A dead mark of class `k` takes effect (R245, R249): a present unpinned line, poisoned or not, is dropped
without write-back and leaves a tombstone. -/
def dropDead (d : Dev) (k : Nat) (e : D64) (line : Nat) : Dev :=
  let s := homeOf e line
  match findLine d s line with
  | some c => if c.pinned then d
              else count (addTomb (dropLine d s line) s line c.dirty) s k 2
  | none => d

/-- A dead mark arrives at its home: behind a fill of the line in flight it waits for the fill (Table 8.3). -/
def deadMark (d : Dev) (k : Nat) (e : D64) (line : Nat) : Dev :=
  let d := countBw d (homeOf e line) k
  if !pteCacheable e then d
  else match d.miss.find? fun m => decide (m.line = line) && decide (m.home = homeOf e line) with
    | some m =>
      { d with miss := d.miss.map fun x => if x.id = m.id then { x with marks := x.marks ++ [(x.reqs.length, k)] } else x }
    | none => dropDead d k e line

/-- A dead re-read (R247): counted, recorded in CDC_DEAD_LAST, its tombstone removed, and
EV_DEAD_REREAD raised at most once per gap of 1.5 GHz cycles; `deadEv` holds the re-reads since the last one
and the microsecond after it. -/
def deadReread (d : Dev) (s k line : Nat) (stale : Bool) : Dev :=
  let h := halfOf s
  let d := count (clearTomb d s line) s k 3
  let d := regPut d (aDeadLast h)
    (BitVec.ofNat 64 (2 ^ 63 + b2n stale * 2 ^ 62 + k * 2 ^ 59 + s % 1024 * 2 ^ 49 + line * 2 ^ 7))
  let n := mapGet (0, 0) d.deadEv h
  if bit (regGet d (aCdcCtrl h)) 1 ∧
      (n.2 = 0 ∨ 2 ^ (16 + regField d (aCdcCtrl h) 4 4) ≤ 1500 * (d.now + 1 - n.2)) then
    event { d with deadEv := mapPut (0, 0) d.deadEv h (0, d.now + 1) }
      (src 1 s) 0x0301 line (b2n stale) (n.1 + 1) 0
  else { d with deadEv := mapPut (0, 0) d.deadEv h (n.1 + 1, n.2) }

/-! ## Writing a present line (R229, R232) -/

/-- The `n` lowest sectors of a mask. -/
def lowSectors (m : BitVec 4) (n : Nat) : BitVec 4 :=
  (((List.range 4).filter fun i => bit m i).take n).foldl (fun m i => m ||| BitVec.ofNat 4 (2 ^ i)) 0

/-- A line with new contents. -/
def mergedLine (c : CLine) (e : D64) (data : Line) (enc : Nat) : CLine :=
  { c with data := data, enc := enc, dirty := true, age := 0, pte := e }

/-- Place a line whose pin is lost, or write it to memory when no way takes it (R232). -/
def storeUnpinned (d : Dev) (s k : Nat) (c : CLine) (need : Nat) : Dev :=
  let a := allocate allocFuel d s k { c with pinned := false } need
  if a.1 then a.2
  else count (writeMemLine a.2 k (pteFrame c.pte) (lineIdx c.line) (c.line * 128) c.data fullMask) s c.cls 5

/-- Move a line that has left its place: within its way, else as an allocation, or a pin, of R238 or R241 (R232). -/
def storeMoved (d : Dev) (s k : Nat) (c : CLine) (need : Nat) : Dev :=
  if need ≤ freeSect (getSet d s (setOf c.line)) c.way then
    putSet d s (setOf c.line) (getSet d s (setOf c.line) ++
      [{ c with sect := takeSect (getSet d s (setOf c.line)) c.way need }])
  else if c.pinned then
    match placePinned d s k c need with
    | some d => d
    | none => storeUnpinned (pinEvicted d s c.line) s k c need
  else storeUnpinned d s k c need

/-- Store the merged contents of a present line, moving it within its set when it needs more sectors
(R232). -/
def storeMerged (d : Dev) (s k : Nat) (c : CLine) (e : D64) (data : Line) : Dev :=
  if (storeEnc d s e data).2 ≤ sectCount c.sect then
    putLine d s { mergedLine c e data (storeEnc d s e data).1 with
                  sect := lowSectors c.sect (storeEnc d s e data).2 }
  else storeMoved (dropLine d s c.line) s k (mergedLine c e data (storeEnc d s e data).1) (storeEnc d s e data).2

/-- Allocate a line with contents `data`: whether it was placed (R236, R238). -/
def placeNew (d : Dev) (s k line : Nat) (e : D64) (data : Line) (dirty : Bool) : Bool × Dev :=
  allocate allocFuel d s k (newLine k line e data (storeEnc d s e data).1 dirty 2) (storeEnc d s e data).2

/-! ## One access at a home -/

/-- What an access returns: the line as the access found it, a status, and the old values of the
lanes of an atomic. -/
structure Access where
  line   : Line
  status : RStatus
  olds   : List (Nat × Nat)
deriving DecidableEq, Repr

/-- Width in bytes of an atomic's TYPE (03 Table 3.16). -/
def atomBytes (ty : Nat) : Nat := if ty = 2 ∨ ty = 3 then 8 else 4

/-- The value an atomic leaves at a location that holds `m` (03 Table 3.16). -/
def atomVal (op : AtomOp) (ty m b c : Nat) : Nat :=
  let w := 8 * atomBytes ty
  match op with
  | .add => if ty = 4 then encodeF fp32 .rn false (fvAdd (decodeF fp32 m) (decodeF fp32 b))
            else (m + b) % 2 ^ w
  | .min => wrap w (min (tyInt ty m) (tyInt ty b))
  | .max => wrap w (max (tyInt ty m) (tyInt ty b))
  | .and => m &&& b
  | .or => m ||| b
  | .xor => m ^^^ b
  | .exch => b % 2 ^ w
  | .cas => if m = c % 2 ^ w then b % 2 ^ w else m

/-- A combined atomic on a line (03 R96): the lanes' updates one after another in ascending lane
order; each lane receives the value it found. -/
def runCombined (a : Combined) (l : Line) : Line × List (Nat × Nat) :=
  let n := atomBytes a.ty
  let r := a.lanes.foldl
    (fun s x => (atomVal a.op a.ty s.1 x.2.1 x.2.2, s.2 ++ [(x.1, s.1)])) (lineBits l a.off n, [])
  (setLine l a.off n r.1, r.2)

/-- The bytes an access writes, given the line it finds: none for a read. -/
def opResult (op : ReqOp) (l : Line) : Option (Line × LMask) × List (Nat × Nat) :=
  match op with
  | .read => (none, [])
  | .write data m => (some (data, m), [])
  | .atomic a => let r := runCombined a l; (some (r.1, maskOf a.off (atomBytes a.ty)), r.2)

/-- Whether an operation writes the whole line without reading it (R236). -/
def isFullWrite (op : ReqOp) : Bool :=
  match op with
  | .write _ m => decide (m = fullMask)
  | _ => false

/-- An access that the home serves without allocating: CACHEABLE 0 (R237) or R239. -/
def uncached (d : Dev) (k : Nat) (e : D64) (line : Nat) (op : ReqOp) : Access × Dev :=
  let f := pteFrame e
  let i := lineIdx line
  match op with
  | .write data m =>
    ({ line := 0, status := .ok, olds := [] }, writeMemLine d k f i (line * 128) data m)
  | _ =>
    let (r, d) := readMemLine d k f i (line * 128)
    if !r.1 then ({ line := 0, status := .ue, olds := [] }, d)
    else
      let (w, olds) := opResult op r.2
      let d := match w with
        | some (data, m) => writeMemLine d k f i (line * 128) data m
        | none => d
      ({ line := r.2, status := .ok, olds := olds }, d)

/-- Injection into a slice's data and tag arrays at a write of the line (15 R459). -/
def injectLine (d : Dev) (s line : Nat) : Dev := writeWord (writeWord d 0 0x0A s line) 1 0x0B s line

/-- What a write answers. -/
def doneAccess : Access := { line := 0, status := .ok, olds := [] }
/-- What an access to a poisoned line or an uncorrectable word answers: a write is performed or discarded, a read and
an atomic end in UE (R253, 15 R456). -/
def badAccess (op : ReqOp) : Access :=
  match op with
  | .write _ _ => doneAccess
  | _ => { line := 0, status := .ue, olds := [] }

/-- Store a whole line that is not present: allocated, or written to memory (R236, R239). -/
def storeWhole (d : Dev) (s k : Nat) (e : D64) (line : Nat) (data : Line) : Access × Dev :=
  let p := placeNew d s k line e data true
  if p.1 then (doneAccess, injectLine p.2 s line) else uncached p.2 k e line (.write data fullMask)

/-- An access performed on a present line (R236, R253, 15 R456). -/
def onLine (d : Dev) (s k : Nat) (e : D64) (c : CLine) (op : ReqOp) : Access × Dev :=
  if c.poison then
    match op with
    | .write data m =>
      if m = fullMask then storeWhole (dropLine d s c.line) s k e c.line data else (doneAccess, d)
    | _ => (badAccess op, d)
  else
    let w := opResult op c.data
    ({ line := c.data, status := .ok, olds := w.2 },
      match w.1 with
      | some x => injectLine (storeMerged d s k c e (merge c.data x.1 x.2)) s c.line
      | none => putLine d s { c with age := 0 })

/-- An access that hits: counted, then performed (R254). -/
def hitAccess (d : Dev) (s k : Nat) (e : D64) (c : CLine) (op : ReqOp) : Access × Dev :=
  let d := count d s k 0
  onLine (if c.pinned then count d s k 4 else d) s k e c op

/-- A poisoned line stands where a fill met UE; its tag is made free as for any line stored (R238, R253, 09 R282). -/
def poisonNew (d0 : Dev) (s k line : Nat) (e : D64) : Dev :=
  let d := freeTag allocFuel d0 s k (setOf line)
  if (getSet d s (setOf line)).length < 32 then
    putSet d s (setOf line) (getSet d s (setOf line) ++
      [{ newLine k line e 0 0 false 2 with poison := true, way := noWay }])
  else d

/-- An absent line has been read from memory as `found`: it is allocated with the access performed, or the access is
served without allocating (R236, R238, R239). -/
def fillAccess (d : Dev) (s k : Nat) (e : D64) (line : Nat) (op : ReqOp) (found : Line) : Access × Dev :=
  let w := opResult op found
  let p := placeNew d s k line e (match w.1 with
    | some x => merge found x.1 x.2
    | none => found) w.1.isSome
  ({ line := found, status := .ok, olds := w.2 },
    if p.1 then injectLine p.2 s line
    else match w.1 with
      | some x => writeMemLine p.2 k (pteFrame e) (lineIdx line) (line * 128) x.1 x.2
      | none => p.2)

/-- A line fetched or written by class `k` that is absent: allocate it (R236, R238), or serve the
access without allocating (R239). A fill that meets UE poisons the line (09 R282). -/
def missAccess (d : Dev) (s k : Nat) (e : D64) (line : Nat) (op : ReqOp) : Access × Dev :=
  if isFullWrite op then
    match op with
    | .write data _ => storeWhole d s k e line data
    | _ => uncached d k e line op
  else
    let r := readMemLine d k (pteFrame e) (lineIdx line) (line * 128)
    if r.1.1 then fillAccess r.2 s k e line op r.1.2
    else (badAccess op, poisonNew r.2 s k line e)

/-- A read of an absent tombstoned line is a dead re-read, and a write or an atomic removes the tombstone (R247,
R248). -/
def noteTomb (d : Dev) (s k line : Nat) (op : ReqOp) : Dev :=
  match tombOf d s line with
  | none => d
  | some stale =>
    match op with
    | .read => deadReread d s k line stale
    | _ => clearTomb d s line

/-- What the home does before a miss: it is counted (R254), and looked up in the tombstone filter. -/
def noteMiss (d : Dev) (s k line : Nat) (op : ReqOp) : Dev := noteTomb (count d s k 1) s k line op

/-- Perform one access of class `k` to a line whose translation is `e`, whole, at its home. -/
def accessHome (d : Dev) (k : Nat) (e : D64) (line : Nat) (op : ReqOp) : Access × Dev :=
  let s := homeOf e line
  let d := countBw d s k
  if !pteCacheable e then uncached d k e line op
  else match checkLine d s line with
    | (some c, d) => hitAccess d s k e c op
    | (none, d) => missAccess (noteMiss d s k line op) s k e line op

/-- PIN of a present line under entry `e`, whose PIN_CLASS it is counted in (R242): it is pinned in its way where that
is a pinned way, else placed as one (R241). -/
def pinPresent (d : Dev) (s : Nat) (e : D64) (c0 : CLine) : Bool × Dev :=
  let c := { c0 with pte := e }
  let rest := (getSet d s (setOf c.line)).filter fun x => x.line != c.line
  if c.poison then (true, d)
  else if c.pinned then (false, putLine d s { c with age := 0 })
  else if pinnedWay rest c.way ∧ pinTags rest < 24 then (false, putLine d s { c with pinned := true, age := 0 })
  else match placePinned (dropLine d s c.line) s 1 { c with age := 0 } (sectCount c.sect) with
    | some d => (false, d)
    | none => (true, putLine d s { c with age := 0 })

/-- PIN of an absent line: it is fetched and placed (R240, R241). -/
def pinAbsent (d : Dev) (s line : Nat) (e : D64) : Bool × Dev :=
  let r := readMemLine d 1 (pteFrame e) (lineIdx line) (line * 128)
  let c := newLine 1 line e r.1.2 (storeEnc r.2 s e r.1.2).1 false 2
  if r.1.1 then
    match placePinned r.2 s 1 c (storeEnc r.2 s e r.1.2).2 with
    | some d => (false, injectLine d s line)
    | none => (true, (allocate allocFuel r.2 s 1 c (storeEnc r.2 s e r.1.2).2).2)
  else (true, poisonNew r.2 s 1 line e)

/-- PIN of one line (R240, R241) in class TC1: whether it was left unpinned. -/
def pinLine (d : Dev) (e : D64) (line : Nat) : Bool × Dev :=
  let s := homeOf e line
  let d := countBw d s 1
  if !pteCacheable e then (true, d)
  else match checkLine d s line with
    | (some c, d) => pinPresent (if c.pinned then count (count d s 1 0) s 1 4 else count d s 1 0) s e c
    | (none, d) => pinAbsent (noteMiss d s 1 line .read) s line e

/-- UNPIN of one line (R243) in class TC1: the line stays cached with age 3. -/
def unpinLine (d : Dev) (e : D64) (line : Nat) : Dev :=
  let s := homeOf e line
  let d := countBw d s 1
  if !pteCacheable e then d
  else match findLine d s line with
    | some c =>
      if c.pinned then putLine (count (count d s 1 0) s 1 4) s { c with pinned := false, age := 3 } else count d s 1 0
    | none => count d s 1 1

/-- PREF of one line (R250): fetched into its home with age 2. -/
def prefLine (d : Dev) (e : D64) (line : Nat) : Dev :=
  let s := homeOf e line
  let d := countBw d s 0
  if !pteCacheable e then d
  else match checkLine d s line with
    | (some c, d) => count (putLine d s { c with age := 0 }) s 0 0
    | (none, d) => (missAccess (noteMiss d s 0 line .read) s 0 e line .read).2

end Sys2Proof.Machine
end

