-- ==== Sys2Proof/Machine/Mesh.lean ====
section
/-! DEFINITION. The networks on the dies (10 R294 to R301, R305, R306): routes, the packets on them, and the grants of
mesh output ports, bridge links, down-channels and the base die crossbar. -/

namespace Sys2Proof.Machine

/-! ## Requests -/

/-- A request by number. -/
def getReq (d : Dev) (id : Nat) : Option Req := d.reqs.find? fun r => decide (r.id = id)

/-- Replace a request. -/
def putReq (d : Dev) (r : Req) : Dev :=
  { d with reqs := d.reqs.map fun x => if x.id = r.id then r else x }

/-- The home slice and half of a request. -/
def reqHome (r : Req) : Nat := homeOf r.pte r.line
def reqHalf (r : Req) : Nat := halfOf (reqHome r)

/-- A request writes its line. -/
def isWrite (r : Req) : Bool := match r.op with
  | .read => false
  | _ => true

/-- A request has not been performed. -/
def unperformed (r : Req) : Bool := decide (r.st ≠ .performed)

/-! ## Reaching a home (10 R297, R309) -/

/-- Mesh coordinates of a slice's router (10 R295). -/
def meshX (s : Nat) : Nat := 8 * (s % 1024 / 32 % 4) + s % 32 % 8
def meshY (s : Nat) : Nat := 4 * (s % 1024 / 32 / 4) + s % 32 / 8
/-- The slice whose router stands at coordinates of a half. -/
def sliceAt (h x y : Nat) : Nat := h * 1024 + (4 * (y / 4) + x / 8) * 32 + (y % 4) * 8 + x % 8
/-- Resource ID of a mesh output port: 0 N, 1 S, 2 E, 3 W (10 Table 10.4). -/
def meshPort (s p : Nat) : Nat := 1 * 2 ^ 28 + s * 2 ^ 16 + p
/-- The output ports from x1 to x2 along row y, then, from y1 to y2 along column x. -/
def rowPorts (h y x1 x2 : Nat) : List Nat :=
  if x1 ≤ x2 then (List.range (x2 - x1)).map fun i => meshPort (sliceAt h (x1 + i) y) 2
  else (List.range (x1 - x2)).map fun i => meshPort (sliceAt h (x1 - i) y) 3
def colPorts (h x y1 y2 : Nat) : List Nat :=
  if y1 ≤ y2 then (List.range (y2 - y1)).map fun i => meshPort (sliceAt h x (y1 + i)) 1
  else (List.range (y1 - y2)).map fun i => meshPort (sliceAt h x (y1 - i)) 0
/-- XY and YX routes between two routers of one half (10 R297). -/
def xyRoute (h x1 y1 x2 y2 : Nat) : List Nat := rowPorts h y1 x1 x2 ++ colPorts h x2 y1 y2
def yxRoute (h x1 y1 x2 y2 : Nat) : List Nat := colPorts h x1 y1 y2 ++ rowPorts h y2 x1 x2
/-- A route uses no fenced link (10 R309). -/
def routeOk (d : Dev) (r : List Nat) : Bool := r.all fun p => !d.fencedRes.contains p
/-- Two routers of one half reach each other. -/
def meshReach (d : Dev) (h x1 y1 x2 y2 : Nat) : Bool :=
  routeOk d (xyRoute h x1 y1 x2 y2) || routeOk d (yxRoute h x1 y1 x2 y2)
/-- Resource ID of a bridge link in a direction, 0 West to East. -/
def bridgeId (dir l : Nat) : Nat := 2 * 2 ^ 28 + dir * 64 + l
/-- Rows whose bridge links in one direction are not both fenced, nearest to `y`, the lower on a tie
(10 Table 10.5). Direction 0 is West to East. -/
def bridgeRow (d : Dev) (dir y : Nat) : Option Nat :=
  let live (r : Nat) : Bool := (List.range 2).any fun i =>
    !d.fencedRes.contains (bridgeId dir (2 * r + i))
  ((List.range 32).flatMap fun k => [y - k, y + k]).find? fun r => decide (r < 32) && live r
/-- The bridge link of a row that a packet takes by bit 20 of its device address, 2y + A[20], or the other of its row
when that one is fenced; when both are, a link of the nearest row with one in service. The row, the link, and
whether it is another row (10 R297, Table 10.5). -/
def bridgeLink (d : Dev) (dir y a20 : Nat) : Option (Nat × Nat × Bool) :=
  let live (l : Nat) : Bool := !d.fencedRes.contains (bridgeId dir l)
  let pick (r : Nat) : Nat := if live (2 * r + a20) then 2 * r + a20 else 2 * r + 1 - a20
  if live (2 * y) || live (2 * y + 1) then some (y, pick y, false)
  else (bridgeRow d dir y).map fun r => (r, pick r, true)

/-- The edge column of a half that faces the bridge. -/
def edgeX (h : Nat) : Nat := if h = 0 then 31 else 0

/-- The route of a packet from the router of slice `a` to that of slice `b`: whether it takes the YX channels, and
the output ports it passes; none when its routes use fenced links (10 R297, R309). -/
def routeOf (d : Dev) (a b a20 : Nat) : Option (Bool × List Nat) :=
  let ha := halfOf a
  let hb := halfOf b
  let leg (yx : Bool) (h x1 y1 x2 y2 : Nat) : List Nat := if yx then yxRoute h x1 y1 x2 y2 else xyRoute h x1 y1 x2 y2
  if ha = hb then
    ([false, true].find? fun yx => routeOk d (leg yx ha (meshX a) (meshY a) (meshX b) (meshY b))).map fun yx =>
      (yx, leg yx ha (meshX a) (meshY a) (meshX b) (meshY b))
  else
    match bridgeLink d ha (meshY a) a20 with
    | none => none
    | some (r, l, other) =>
      let whole (yx : Bool) : List Nat :=
        leg yx ha (meshX a) (meshY a) (edgeX ha) r ++ [bridgeId ha l] ++ leg yx hb (edgeX hb) r (meshX b) (meshY b)
      ((if other then [true] else [false, true]).find? fun yx => routeOk d (whole yx)).map fun yx => (yx, whole yx)

/-- Bit 20 of the device address of a line. -/
def bit20 (line : Nat) : Nat := line / 2 ^ 13 % 2

/-- Whether requests from the router of slice `a` reach the home slice `b` and responses return
(10 R297, R309). -/
def reaches (d : Dev) (a b : Nat) : Bool := (routeOf d a b 0).isSome && (routeOf d b a 0).isSome

/-- The slice under whose router a down-channel lands, and the down-channel of a home (10 R299). -/
def landing (c : Nat) : Nat := 16 * c + 4
def ownChannel (s : Nat) : Nat := s / 16
/-- Resource ID of a down-channel's sending port, direction 0 downward (10 Table 10.4). -/
def channelId (dir c : Nat) : Nat := 3 * 2 ^ 28 + dir * 128 + c
/-- A down-channel whose sending port in a direction (0 downward) is in service (10 Table 10.4). -/
def channelLive (d : Dev) (dir c : Nat) : Bool := !d.fencedRes.contains (channelId dir c)
/-- Mesh distance of the routers of two slices of one half. -/
def meshDist (a b : Nat) : Nat :=
  (meshX a - meshX b) + (meshX b - meshX a) + (meshY a - meshY b) + (meshY b - meshY a)
/-- The down-channel that carries a home's traffic in a direction: its own, its partner, or the nearest in
service of its half, the lower number on a tie (10 Table 10.5; log 62). -/
def downChannel (d : Dev) (dir s : Nat) : Option Nat :=
  let p := ownChannel s
  let q := p + 1 - 2 * (p % 2)
  if channelLive d dir p then some p else if channelLive d dir q then some q
  else (((List.range 64).map fun i => 64 * halfOf s + i).filter fun c => channelLive d dir c).foldl (fun b c =>
    match b with
    | none => some c
    | some x => if meshDist (landing c) (landing p) < meshDist (landing x) (landing p) then some c else some x) none
/-- Whether requests between the base die and a home, and their responses, arrive (10 R299, R309). -/
def baseReaches (d : Dev) (s : Nat) : Bool :=
  match downChannel d 1 s, downChannel d 0 s with
  | some a, some b =>
    meshReach d (halfOf s) (meshX (landing a)) (meshY (landing a)) (meshX s) (meshY s) &&
      meshReach d (halfOf s) (meshX s) (meshY s) (meshX (landing b)) (meshY (landing b))
  | _, _ => false

/-- EV_MESH_UNREACHABLE once per pair (10 Table 10.5). -/
def noteUnreach (d : Dev) (a b : Nat) : Dev :=
  if d.unreach.contains (a, b) then d
  else event { d with unreach := d.unreach ++ [(a, b)] } (src 9 0) 0x0403 a b 0 0

/-! ## Packets and grants (10 R296, R297, R305, R306) -/

/-- Base priority of a class (R318, Table 10.9). -/
def basePrio (d : Dev) (k : Nat) : Nat := regField d aClassPrio (4 * k) 4

/-- The receiving port of a router behind its slice: what the core port and the slice send enters there (a number of
the model's own, log 61). -/
def entryId (s : Nat) : Nat := 5 * 2 ^ 28 + s * 2 ^ 16
/-- The output port of the base die crossbar to a memory controller (a number of the model's own, log 61). -/
def xbarId (m : Nat) : Nat := 4 * 2 ^ 28 + m

/-- Cycles that a packet occupies a link (10 R296). -/
def linkCycles (port beats : Nat) : Nat := if port / 2 ^ 28 = 2 then max 1 (2 * beats) else max 1 beats

/-- The number of the input VC behind a receiving port: its port, N S E W first, then the slice, a bridge link and a
down-channel, and its VC (the order is the model's, log 61). -/
def inputIx (p : Packet) : Nat :=
  let port := match p.place / 2 ^ 28 with
    | 1 => p.place % 2 ^ 16
    | 2 => 5
    | 3 => 6 + p.place % 2 ^ 16
    | _ => 4
  4 * port + p.vc

/-- Two packets are one. -/
def samePacket (p q : Packet) : Bool := p.kind == q.kind && p.id == q.id

/-- The packets of one VC at one receiving port. -/
def inBuffer (n : Net) (place vc : Nat) : List Packet :=
  n.pkts.filter fun p => decide (p.place = place) && decide (p.vc = vc)

/-- A packet is the head of its input VC. -/
def isHeadPacket (n : Net) (p : Packet) : Bool := ((inBuffer n p.place p.vc).head?.map (samePacket p)).getD false

/-- A packet is still passing the port behind it. -/
def passing (n : Net) (p : Packet) : Bool := (mapGet idleOut n.ports p.place).cur == some (p.kind, p.id)

/-- A port has a credit of the next buffer, which holds 4 packets of a VC; the end of a route takes every packet. -/
def hasCredit (n : Net) (port : Nat) (p : Packet) : Bool :=
  decide (p.route.length ≤ 1) || decide ((inBuffer n port p.vc).length < 4)

/-- The candidates of an output port: heads that route to it and hold a credit. A request at its home's router leaves
the network when it arrives there (HOME_READ, HOME_WRITE, HOME_ATOMIC). -/
def portCands (n : Net) (port : Nat) : List Packet :=
  n.pkts.filter fun p => decide (p.route.head? = some port) && isHeadPacket n p && !passing n p && hasCredit n port p &&
    !(decide (p.kind = .request) && decide (p.route.length = 1))

/-- The first candidate in rotation order from `rot` with the largest priority. -/
def packetWinner (cs : List Packet) (rot : Nat) : Option Packet :=
  let top := cs.foldl (fun m p => max m (p.prio.getD 0)) 0
  (cs.filter fun p => decide (p.prio.getD 0 = top)).foldl (fun b p =>
    let far (q : Packet) : Nat := (inputIx q + 2 ^ 10 - rot) % 2 ^ 10
    match b with
    | none => some p
    | some q => if far p < far q then some p else some q) none

/-- A packet passes a port: it enters the next buffer, or leaves the network. -/
def passPort (n : Net) (port : Nat) (w : Packet) : Net :=
  let rest := n.pkts.filter fun p => !samePacket p w
  { n with pkts := if w.route.length ≤ 1 then rest
                   else rest ++ [{ w with place := port, route := w.route.tail, prio := none }] }

/-- A packet boundary of an output port: the winner is sent whole, and every other candidate rises by one (10 R305).
The candidates are those of the start of the cycle, `n0`. -/
def grantPort (n0 n : Net) (port : Nat) : Net :=
  let o := mapGet idleOut n0.ports port
  if o.cur.isSome then n
  else
    let cs := portCands n0 port
    match packetWinner cs o.rot with
    | none => n
    | some w =>
      let lose (p : Packet) : Packet :=
        if cs.any (samePacket p) && !samePacket p w then { p with prio := some (min 15 (p.prio.getD 0 + 1)) } else p
      let n := passPort { n with pkts := n.pkts.map lose } port w
      { n with ports := mapPut idleOut n.ports port
                          { cur := some (w.kind, w.id), left := linkCycles port w.beats, rot := inputIx w + 1 } }

/-- A cycle passes on the links: a packet in progress nears its end. -/
def linkPass (o : OutPort) : OutPort := if o.left ≤ 1 then { o with cur := none, left := 0 } else { o with left := o.left - 1 }

/-- The priorities of new heads: the base priority of their class. -/
def headPackets (d : Dev) (n : Net) : Net :=
  { n with pkts := n.pkts.map fun p =>
      if (isHeadPacket n p) then { p with prio := some (p.prio.getD (basePrio d p.cls)) } else p }

/-- One cycle of every output port. -/
def linkCycle (d : Dev) (n : Net) : Net :=
  let n := headPackets d n
  let n := ((n.pkts.filterMap fun p => p.route.head?).eraseDups).foldl (grantPort n) n
  { n with ports := n.ports.filterMap fun e =>
      if linkPass e.2 = idleOut then none else some (e.1, linkPass e.2) }

/-- A packet enters the network behind a receiving port, in the order sent. -/
def sendPacket (n : Net) (p : Packet) : Net := { n with pkts := n.pkts ++ [{ p with seq := n.seq }], seq := n.seq + 1 }

/-- Remove the packet of a request or a miss. -/
def takePacket (n : Net) (kind : PktKind) (id : Nat) : Net :=
  { n with pkts := n.pkts.filter fun p => !(p.kind == kind && p.id == id) }

/-! ## Bank ports -/

def portIx (s b : Nat) : Nat := 32 * s + b
def getPort (d : Dev) (s b : Nat) : BankPort := mapGet idlePort d.banks (portIx s b)
def putPort (d : Dev) (s b : Nat) (p : BankPort) : Dev := { d with banks := mapPut idlePort d.banks (portIx s b) p }


end Sys2Proof.Machine
end

