-- ==== Sys2Proof/Machine/Home.lean ====
section
/-! DEFINITION. Requests in flight and the events at their homes: hits, misses, retries, fills, and
the miss tables (08 R236, R252; 10 R312 to R314, R317). -/

namespace Sys2Proof.Machine

/-! ## Shares of the miss tables (10 R312) -/

/-- MIN and MAX of a class; a MAX below MIN acts as MIN. -/
def missMin (d : Dev) (k : Nat) : Nat := regField d (aMissShare k) 32 17
def missMax (d : Dev) (k : Nat) : Nat := max (missMin d k) (regField d (aMissShare k) 0 17)

/-- Slots class `k` holds in half `h`. -/
def missUsed (d : Dev) (h k : Nat) : Nat :=
  (d.miss.filter fun m => decide (m.half = h) && decide (m.cls = k)).length

/-- Whether class `k` may take a new slot in half `h` (10 R312). -/
def mayMiss (d : Dev) (h k : Nat) : Bool :=
  let total := (d.miss.filter fun m => decide (m.half = h)).length
  let reserve := (((List.range 8).filter fun j => j != k).map fun j => missMin d j - missUsed d h j).sum
  decide (total < 65536) &&
    (decide (missUsed d h k < missMin d k) ||
     (decide (missUsed d h k < missMax d k) && decide (reserve + total < 65536)))

/-! ## Budgets (10 R314, R315) -/

/-- The budget configuration in force for master `m`. -/
def budgetOf (d : Dev) (m : Nat) : Budget := mapGet freshBudget d.budget m

/-- Whether master `m` may send now. -/
def budgetOk (d : Dev) (m : Nat) : Bool :=
  let b := budgetOf d m
  !bit b.cfg 63 || decide (b.used < max 1 (bits b.cfg 0 32) * 64)

/-- Count the bytes of one line for master `m`. -/
def spend (d : Dev) (m : Nat) : Dev :=
  let b := budgetOf d m
  { d with budget := mapPut freshBudget d.budget m { b with used := b.used + 128 } }

/-! ## Command slots of the memory controllers (10 R312) -/

/-- The controller of a line (09 R276). -/
def controllerOf (e : D64) (line : Nat) : Nat := chanOf (pteFrame e) (128 * lineIdx line)

/-- MIN and MAX of a class; a MAX below MIN acts as MIN. -/
def mcqMin (d : Dev) (k : Nat) : Nat := regField d (aMcqShare k) 32 9
def mcqMax (d : Dev) (k : Nat) : Nat := max (mcqMin d k) (regField d (aMcqShare k) 0 9)

/-- Whether a miss of class `k` may take a command slot of controller `c`. -/
def mayCommand (d : Dev) (c k : Nat) : Bool :=
  let held := d.miss.filter fun m => m.cmd && decide (controllerOf m.pte m.line = c)
  let used (j : Nat) : Nat := (held.filter fun m => decide (m.cls = j)).length
  let reserve := (((List.range 8).filter fun j => j != k).map fun j => mcqMin d j - used j).sum
  decide (held.length < 256) &&
    (decide (used k < mcqMin d k) || (decide (used k < mcqMax d k) && decide (reserve + held.length < 256)))

/-! ## Performing a request -/

/-- Whether a half serves requests: READY of CDC_STATUS (08 Table 8.7; 16 R487 item 2). -/
def halfReady (d : Dev) (h : Nat) : Bool := bit (regGet d (aCdcStatus h)) 63

/-- Whether an access goes on to external memory: its line is not cacheable, or absent and not written
whole (08 R236, R237). -/
def needsMemory (d : Dev) (e : D64) (line : Nat) (op : ReqOp) : Bool :=
  !pteCacheable e || ((checkLine d (homeOf e line) line).1.isNone && !isFullWrite op)

/-- Why an access of a core (`some`) or a base die master (`none`) ends before its home performs it: 9 FENCED
when its home, or the memory behind it, cannot be reached (10 Table 10.5), 8 ABORT when the home's half is being
reset (16 R487), else 0. -/
def serveStop (d : Dev) (who : Option Nat) (e : D64) (line : Nat) (op : ReqOp) : Nat :=
  let s := homeOf e line
  let there := match who with
    | some n => reaches d n s
    | none => baseReaches d s
  if !there || (needsMemory d e line op && !baseReaches d s) then 9
  else if !halfReady d (halfOf s) then 8 else 0

/-- Record a FENCED end of an access: EV_MESH_UNREACHABLE for the pair that cannot reach each other. -/
def noteStop (d : Dev) (who : Option Nat) (e : D64) (line st : Nat) : Dev :=
  let s := homeOf e line
  let land (dir : Nat) : Nat := landing ((downChannel d dir s).getD (ownChannel s))
  if st ≠ 9 then d
  else match who with
    | some n => if reaches d n s then noteUnreach d s (land 0) else noteUnreach d n s
    | none => noteUnreach d (land 1) s

/-- The holds on a request at its core's port: its group's earlier loads and FFX have not returned
(03 R107), an ORD .REL waits for the writes of earlier instructions (03 R103), an earlier write of the core to the line
has not been performed (03 R98), a read waits for the core's earlier reads and atomics of the line
(03 R99), an earlier request of its class to its half is a held retry or a retry sent again (10 R313), or its master's
budget is spent and it is not yet counted (10 R313, R314). -/
def reqHeld (d : Dev) (r : Req) : Bool :=
  let c := getCore d r.core
  let mine := d.reqs.filter fun x => decide (x.core = r.core) && decide (x.id < r.id)
  (isWrite r && ((c.loads.any fun p => decide (p.uid = r.uid) && decide (p.id < r.ins)) ||
      (mine.any fun x => decide (x.uid = r.uid) && decide (x.ins < r.ins) && match x.op with
        | .atomic _ => true
        | _ => false) ||
      (c.ffx.q.any fun p => decide (p.uid = r.uid) && !p.lds && decide (p.id < r.id)))) ||
  (r.rel && mine.any fun x => decide (x.uid = r.uid) && isWrite x && decide (x.ins < r.ins)) ||
  (mine.any fun x => decide (x.line = r.line) && unperformed x &&
    (if isWrite r then isWrite x else match x.op with
      | .write _ _ => false
      | _ => true)) ||
  (mine.any fun x => (decide (x.st = .retried) || (decide (x.st = .waiting) && x.spent)) && decide (x.cls = r.cls) &&
    decide (reqHalf x = reqHalf r)) ||
  (!r.spent && !budgetOk d r.core)

/-- What the core's stores issued before request `r` that have not been performed give its line, in issue order
(03 R93, R101). -/
def overlay (d : Dev) (r : Req) : Line × LMask :=
  d.reqs.foldl (fun s x => match x.op with
    | .write v m =>
      if x.core = r.core ∧ x.line = r.line ∧ x.id < r.id ∧ unperformed x then (merge s.1 v m, s.2 ||| m) else s
    | _ => s) (0, 0)

/-- A request whose access is done. A read through L1 or at the home returns, where an earlier store of its core
still waits, that store's bytes (03 R93, R101); a read of class TC5 does not look in that buffer (03 R104). -/
def finishReq (d : Dev) (r : Req) (a : Access) : Req :=
  let o := if r.op = .read ∧ r.cls = 0 then overlay d r else (0, 0)
  { r with st := .performed, status := a.status, result := merge a.line o.1 o.2, olds := a.olds }

/-- A request is done: it stands until its core takes the answer, or is gone when nobody waits for it, its core having
been reset (01 R31). -/
def settleReq (d : Dev) (r : Req) : Dev :=
  if r.op = .read ∧ !r.ret then { d with reqs := d.reqs.filter fun x => x.id != r.id } else putReq d r

/-- The dead mark of an LD.LAST follows its read with nothing between (08 R245). -/
def markAfter (d : Dev) (r : Req) : Dev :=
  if r.mark && pteCacheable r.pte then dropDead (countBw d (reqHome r) r.cls) r.cls r.pte r.line else d

/-! ## From the core's port to the home (01 R22, R29; 10 R297, R298, R302) -/

/-- Entries of 64 B that a request takes in the write-data group's crossing FIFO; an atomic's operands fill a line's
worth (log 61). -/
def dataEntries (r : Req) : Nat := match r.op with
  | .read => 0
  | .write _ m => b2n (bits m 0 64 != 0) + b2n (bits m 64 64 != 0)
  | .atomic _ => 2

/-- The requests in a core port's crossing, oldest first. -/
def fifoOf (d : Dev) (n : Nat) : List Nat := mapGet [] d.net.fifo n
def putFifo (d : Dev) (n : Nat) (l : List Nat) : Dev := { d with net := { d.net with fifo := mapPut [] d.net.fifo n l } }

/-- The crossing FIFOs of request control and write data, of 8 entries each, have room (01 R29). -/
def fifoRoom (d : Dev) (r : Req) : Bool :=
  let f := (fifoOf d r.core).filterMap (getReq d)
  decide (f.length < 8) && decide ((f.map dataEntries).sum + dataEntries r ≤ 8)

/-- Count a request against its core's budget when it is first sent (10 R313, R314). -/
def spendReq (d : Dev) (r : Req) : Dev := if r.spent then d else spend d r.core

/-- The core port's crossing accepts a request (01 R29): it is sent (15 R461). -/
def sendReq (d : Dev) (r : Req) : Dev :=
  putFifo (putReq (spendReq d r) { r with st := .crossing, spent := true }) r.core (fifoOf d r.core ++ [r.id])

/-- Two requests of one class leave one core port for one home. -/
def sameWay (x r : Req) : Bool :=
  decide (x.core = r.core) && decide (x.cls = r.cls) && decide (reqHome x = reqHome r)

/-- The packet of a request. -/
def packetOf (d : Dev) (id : Nat) : Option Packet := d.net.pkts.find? fun p => decide (p.kind = .request) && decide (p.id = id)

/-- A request that was sent earlier in the class of `r` from its port to its home is still on its way
(10 R298). -/
def overtakes (d : Dev) (r : Req) : Bool :=
  d.net.pkts.any fun p => decide (p.kind = .request) && (getReq d p.id).any (sameWay · r) &&
    match r.st, packetOf d r.id with
    | .moving, none => false
    | _, some q => decide (p.seq < q.seq)
    | _, none => true

/-- A request may arrive at its home: its port may send it and its crossing is empty, or it is the oldest in its
crossing, or it has left it; and it overtakes none of its way. -/
def mayArrive (d : Dev) (r : Req) : Bool :=
  (match r.st with
   | .waiting => !reqHeld d r && decide (fifoOf d r.core = [])
   | .crossing => decide ((fifoOf d r.core).head? = some r.id)
   | .moving => true
   | _ => false) && !overtakes d r

/-- A request leaves its port, its crossing and the networks. -/
def leaveNet (d : Dev) (r : Req) : Dev :=
  putFifo { d with net := takePacket d.net .request r.id } r.core ((fifoOf d r.core).filter fun i => i != r.id)

/-- The requester of a bank port through which a request comes (10 R302). -/
def whoOf (d : Dev) (r : Req) : Nat :=
  if reqHome r = r.core then 0
  else match routeOf d r.core (reqHome r) (bit20 r.line) with
    | some (true, _) => 2
    | _ => 1

/-- The bank that holds a line that lies in a way (08 R226). -/
def lineBank (d : Dev) (s line : Nat) : Option Nat :=
  match findLine d s line with
  | some c => if c.poison then none else some (if (getSlice d s).spareFor = c.way then 16 else c.way)
  | none => none

/-- A request on a line that its home holds is granted the line's bank, which nothing else holds or waits for
(10 R302): the rotation passes its requester. A request that others wait beside is an arrival of
BANK_ACCESS_PERFORM. -/
def takeBank (d : Dev) (r : Req) : Option Dev :=
  match lineBank d (reqHome r) r.line with
  | none => some d
  | some b =>
    let p := getPort d (reqHome r) b
    if p.holder.isSome || !p.waits.isEmpty then none
    else some (putPort d (reqHome r) b { p with ended := false, rot := (whoOf d r + 1) % 6 })

/-- A request arrives at its home (08 R236, R252; 10 R313): it is performed on a line that is
present or needs no fetch, joins a fill in flight, takes a miss table slot, or is returned as a
retry. A request to a half that is being reset ends with ABORT (16 R487). `none` when the request may not arrive,
or its half holds misses (08 Table 8.7). -/
def performReq (d : Dev) (id : Nat) : Option Dev :=
  match getReq d id with
  | none => none
  | some r0 =>
    let r := { r0 with spent := true }
    if !mayArrive d r0 then none
    else if serveStop d (some r.core) r.pte r.line r.op = 9 then
      some (settleReq (noteStop (leaveNet d r) (some r.core) r.pte r.line 9) { r with st := .performed, status := .fenced })
    else if serveStop d (some r.core) r.pte r.line r.op = 8 then
      some (settleReq (leaveNet d r) { r with st := .performed, status := .abort })
    else
      let s := reqHome r
      let h := halfOf s
      let d := spendReq (leaveNet d r0) r0
      match d.miss.find? fun m => decide (m.line = r.line) && decide (m.home = s) with
      | some m =>
        let d := noteMiss (countBw d s r.cls) s r.cls r.line r.op
        some (putReq { d with miss := d.miss.map fun x =>
          if x.id = m.id then { x with reqs := x.reqs ++ [id] } else x } { r with st := .missed })
      | none =>
        let present := match (checkLine d s r.line).1 with
          | some _ => true
          | none => false
        if needsMemory d r.pte r.line r.op && bit (regGet d (aCdcStatus h)) 62 then none
        else if !pteCacheable r.pte || present || isFullWrite r.op then
          let (a, d) := accessHome d r.cls r.pte r.line r.op
          some (settleReq (markAfter d r) (finishReq d r a))
        else if mayMiss d h r.cls then
          let d := noteMiss (countBw (checkLine d s r.line).2 s r.cls) s r.cls r.line r.op
          let m : Miss := { id := id, half := h, cls := r.cls, home := s, line := r.line,
                            pte := r.pte, sent := false, cmd := false, reqs := [id], marks := [] }
          some (putReq { d with miss := d.miss ++ [m] } { r with st := .missed })
        else some (putReq d { r with st := .retried })

/-- HOME_READ, HOME_WRITE and HOME_ATOMIC: the request of that kind arrives at its home. -/
def homeKind (want : ReqOp → Bool) (d : Dev) (id : Nat) : Option Dev :=
  match getReq d id with
  | some r => if want r.op then (takeBank d r).bind fun d => performReq d id else none
  | none => none

def homeRead (id : Nat) (d : Dev) : Option Dev :=
  homeKind (fun o => match o with | .read => true | _ => false) d id
def homeWrite (id : Nat) (d : Dev) : Option Dev :=
  homeKind (fun o => match o with | .write _ _ => true | _ => false) d id
def homeAtomic (id : Nat) (d : Dev) : Option Dev :=
  homeKind (fun o => match o with | .atomic _ => true | _ => false) d id

/-- One request of a fill, after the line stands (or is served without allocating). -/
def afterFill (m : Miss) (d : Dev) (id : Nat) : Dev :=
  match getReq d id with
  | none => d
  | some r => if r.st ≠ .missed then d else
    let (a, d) := match checkLine d m.home m.line with
      | (some c, d) => onLine d m.home r.cls m.pte c r.op
      | (none, d) => missAccess (noteTomb d m.home r.cls m.line r.op) m.home r.cls m.pte m.line r.op
    settleReq (markAfter d r) (finishReq d r a)

/-- The dead marks that arrived behind `i` requests of a fill (08 Table 8.3). -/
def marksAt (m : Miss) (i : Nat) (d : Dev) : Dev :=
  (m.marks.filter fun x => decide (x.1 = i)).foldl (fun d x => dropDead d x.2 m.pte m.line) d

/-- LINE_FILL: a miss's data returns and fills the line, or poisons it; the requests that wait for
it are performed in arrival order (08 R236, R252, R253; 09 R282). A miss that finds no command slot of its controller
waits (10 R312). -/
def lineFill (id : Nat) (d : Dev) : Option Dev :=
  match d.miss.find? fun m => decide (m.id = id) with
  | none => none
  | some m =>
    if bit (regGet d (aCdcStatus m.half)) 62 || !(m.cmd || mayCommand d (controllerOf m.pte m.line) m.cls) then none
    else
      let d := { d with net := takePacket d.net .miss id, miss := d.miss.filter fun x => x.id != id }
      some (marksAt m m.reqs.length
        ((m.reqs.zip (List.range m.reqs.length)).foldl (fun d x => afterFill m (marksAt m x.2 d) x.1) d))

/-- MISS_SLOT_FREED: the held retries of a class to a half are sent again in their original order
(10 R313). -/
def missSlotFreed (h : BitVec 1) (k : BitVec 3) (d : Dev) : Option Dev :=
  let again (r : Req) : Bool :=
    decide (r.st = .retried) && decide (r.cls = k.toNat) && decide (reqHalf r = h.toNat)
  if mayMiss d h.toNat k.toNat ∧ d.reqs.any again then
    some { d with reqs := d.reqs.map fun r => if again r then { r with st := .waiting } else r }
  else none

/-! ## Accesses by base die masters and engines, whole in one step -/

/-- Count a line for the core that asks, and for the control processor complex in class TC7 (10 R315); the other base
die masters count their requests themselves. -/
def spendWho (d : Dev) (who : Option Nat) (k : Nat) : Dev := match who with
  | some n => spend d n
  | none => if k = 7 then spend d 2123 else d

/-- Copy `n` bytes of device memory from `addr` for a master in class `k`, translating each page with
`tx`: the bytes, or the first failing status (09 R266; 11 Table 11.7). `who` is the core, if one asks. -/
def readBytesWith (who : Option Nat) (tx : Dev → Nat → Tx × Dev) (k : Nat) : Nat → Dev → Nat → Nat →
    (Nat × List Byte) × Dev
  | 0, d, _, _ => ((0, []), d)
  | fuel + 1, d, addr, n =>
    if n = 0 then ((0, []), d)
    else
      let take := min n (128 - addr % 128)
      match tx d (addr / 2 ^ 20) with
      | (.invalid, d) => ((2, []), d)
      | (.retired, d) => ((3, []), d)
      | (.entry e, d) =>
        let st := serveStop d who e (addr / 128) .read
        if st ≠ 0 then ((st, []), noteStop d who e (addr / 128) st)
        else
          let (a, d) := accessHome (spendWho d who k) k e (addr / 128) .read
          if a.status ≠ .ok then ((5, []), d)
          else
            let (r, d) := readBytesWith who tx k fuel d (addr + take) (n - take)
            ((r.1, ((List.range take).map fun i => lineByte a.line (addr % 128 + i)) ++ r.2), d)

/-- Write bytes to device memory line by line: the first failing status, or 0. Bytes before a failing
page stand (09 R266, 15 R457). -/
def writeBytesWith (who : Option Nat) (tx : Dev → Nat → Tx × Dev) (k : Nat) : Nat → Dev → Nat → List Byte → Nat × Dev
  | 0, d, _, _ => (0, d)
  | fuel + 1, d, addr, bs =>
    if bs = [] then (0, d)
    else
      let off := addr % 128
      let take := min bs.length (128 - off)
      match tx d (addr / 2 ^ 20) with
      | (.invalid, d) => (2, d)
      | (.retired, d) => (3, d)
      | (.entry e, d) =>
        let op : ReqOp := .write (mkLine fun i => if off ≤ i then bs.getD (i - off) 0 else 0) (maskOf off take)
        let st := serveStop d who e (addr / 128) op
        if pteRo e then (4, d)
        else if st ≠ 0 then (st, noteStop d who e (addr / 128) st)
        else
          let (_, d) := accessHome (spendWho d who k) k e (addr / 128) op
          writeBytesWith who tx k fuel d (addr + take) (bs.drop take)

/-- Lines an access of `n` bytes can touch. -/
def lineFuel (n : Nat) : Nat := n / 128 + 2

/-- Base die master accesses to the device address window (R250). -/
def readDev (d : Dev) (k addr n : Nat) : (Nat × List Byte) × Dev :=
  readBytesWith none baseTx k (lineFuel n) d addr n
def writeDev (d : Dev) (k addr : Nat) (bs : List Byte) : Nat × Dev :=
  writeBytesWith none baseTx k (lineFuel bs.length) d addr bs

/-- Accesses of a core's engines, translated through its TLB. -/
def readCoreMem (d : Dev) (core k addr n : Nat) : (Nat × List Byte) × Dev :=
  readBytesWith (some core) (fun d p => coreTx d core p) k (lineFuel n) d addr n
def writeCoreMem (d : Dev) (core k addr : Nat) (bs : List Byte) : Nat × Dev :=
  writeBytesWith (some core) (fun d p => coreTx d core p) k (lineFuel bs.length) d addr bs

/-! ## The commands of this family -/

/-- HOME_READ (08 R236). -/
def execHomeRead (id : Nat) (s : State) : Host.Outcome State Fault Refusal := gated s "HOME_READ" (homeRead id s.dev)
/-- HOME_WRITE (08 R236). -/
def execHomeWrite (id : Nat) (s : State) : Host.Outcome State Fault Refusal :=
  gated s "HOME_WRITE" (homeWrite id s.dev)
/-- HOME_ATOMIC (03 R97). -/
def execHomeAtomic (id : Nat) (s : State) : Host.Outcome State Fault Refusal :=
  gated s "HOME_ATOMIC" (homeAtomic id s.dev)
/-- MISS_SLOT_FREED (10 R313). -/
def execMissSlotFreed (half : BitVec 1) (cls : BitVec 3) (s : State) : Host.Outcome State Fault Refusal :=
  gated s "MISS_SLOT_FREED" (missSlotFreed half cls s.dev)
/-- LINE_FILL (08 R252). -/
def execLineFill (id : Nat) (s : State) : Host.Outcome State Fault Refusal := gated s "LINE_FILL" (lineFill id s.dev)

end Sys2Proof.Machine
end

