-- ==== Sys2Proof/Machine/CoreMem.lean ====
section
/-! DEFINITION. The memory, fence and atomic instructions of the core, and the events that return
their data (03 Tables 3.13 to 3.16, R85 to R109). -/

namespace Sys2Proof.Machine

/-! ## Addresses -/

/-- The effective address of a format M instruction in lane `t`, modulo 2^64 (R86). -/
def eaM (g : Group) (f : FmtM) (t : Nat) : Nat :=
  wrap 64 ((readXPair g f.a.toNat t : Nat) + (if f.ube = 1 then (readUPair g f.ub.toNat : Nat) else 0)
    + signed 21 f.off.toNat)

/-- The effective address of a format A instruction in lane `t` (R86). -/
def eaA (g : Group) (f : FmtA) (t : Nat) : Nat :=
  wrap 64 ((readXPair g f.a.toNat t : Nat) + signed 14 f.off.toNat)

/-- Bytes of a SIZE, and the registers they take. -/
def sizeBytes (s : BitVec 3) : Nat := 2 ^ s.toNat
def sizeRegs (s : BitVec 3) : Nat := if s.toNat ≤ 2 then 1 else 2 ^ (s.toNat - 2)

/-- The registers that address a format M access. UB is ignored while UBE is 0: no rule says that it is 0
then (DESIGN CHOICE, log 68). -/
def addrRegs (f : FmtM) : List Reg := .x f.a.toNat 2 :: if f.ube = 1 then [.u f.ub.toNat 2] else []

/-- The first fault of a set of lane addresses (Table 3.18): outside the device address window,
misaligned, or a page that is not valid, retired or (for `write`) read-only; with the lanes that
meet it and the lowest lane's address. Translations fill the TLB. -/
def memFault (d : Dev) (core : Nat) (as : List (Nat × Nat)) (align : Nat) (write : Bool) :
    Option (Nat × List Nat × Nat) × Dev :=
  let bad (p : Nat → Bool) : List (Nat × Nat) := as.filter fun a => p a.2
  let mk (code : Nat) (l : List (Nat × Nat)) : Option (Nat × List Nat × Nat) :=
    some (code, l.map (·.1), (l.map (·.2)).headD 0)
  let sp := bad fun a => decide (2 ^ 39 ≤ a)
  let mis := bad fun a => decide (a % align ≠ 0)
  if sp ≠ [] then (mk 0x05 sp, d)
  else if mis ≠ [] then (mk 0x06 mis, d)
  else
    let r := as.foldl (fun s a =>
      let x := coreTx s.2 core (a.2 / 2 ^ 20)
      (s.1 ++ [(a.1, a.2, x.1)], x.2)) (([] : List (Nat × Nat × Tx)), d)
    let pick (p : Tx → Bool) : List (Nat × Nat) := (r.1.filter fun x => p x.2.2).map fun x => (x.1, x.2.1)
    let inv := pick fun x => decide (x = .invalid)
    let ret := pick fun x => decide (x = .retired)
    let ro := pick fun x => match x with
      | .entry e => write && pteRo e
      | _ => false
    if inv ≠ [] then (mk 0x07 inv, r.2)
    else if ret ≠ [] then (mk 0x08 ret, r.2)
    else if ro ≠ [] then (mk 0x09 ro, r.2)
    else (none, r.2)

/-- A fault with the lanes that meet it. -/
def laneFault (d : Dev) (l : Lead) (x : Nat × List Nat × Nat) : Dev :=
  issueFault d l x.1 x.2.2 (perLane fun t => x.2.1.contains t)

/-- Distinct keys of a list, in order. -/
def distinct (l : List Nat) : List Nat :=
  l.foldl (fun s x => if s.contains x then s else s ++ [x]) []

/-- The entry a core's TLB holds for a page it has just translated. -/
def tlbEntry (d : Dev) (core p : Nat) : D64 :=
  match (getCore d core).tlb.find? fun x => x.1 = p with
  | some x => x.2
  | none => pmapEntry d p

/-- A new request of a lead, in its class of 10 Table 10.6 (10 R310), of instruction `ins` and for the lanes
of a list. -/
def newReq (l : Lead) (ins id cls line : Nat) (pte : D64) (op : ReqOp) (addr : Nat) (lanes : List Nat) : Req :=
  { id := id, ins := ins, core := l.core, uid := l.g.uid, slot := l.slot, pos := l.g.pos, pc := l.pc,
    lanes := laneMask (perLane fun t => lanes.contains t), addr := addr, cls := cls, line := line, pte := pte, op := op, st := .waiting, status := .ok,
    ret := false, rel := false, alloc := false, mark := false,
    spent := false, back := false, result := 0, olds := [] }

/-! ## The caches of a core -/

/-- Insert a line in a cache of `cap` lines; when it is full, a line chosen by a free value leaves
(log 3). -/
def insertLine (cache : List (Nat × Line)) (cap : Nat) (pick : D64) (line : Nat) (data : Line) :
    List (Nat × Line) :=
  let c := cache.filter fun x => x.1 != line
  let c := if c.length < cap then c else c.eraseIdx (pick.toNat % c.length)
  c ++ [(line, data)]

/-- The cache a load kind reads through: L1, constant or descriptor cache. -/
def cacheFor (c : Core) (k : LoadKind) : List (Nat × Line) :=
  match k with
  | .ldc => c.constc
  | .ldd => c.descc
  | _ => c.l1

/-- Whether a load of this kind may hit in its cache (Table 3.14). -/
def mayHit (k : LoadKind) : Bool :=
  match k with
  | .cd | .atom => false
  | _ => true

/-- Whether a miss of this kind allocates (Table 3.14). -/
def mayAlloc (k : LoadKind) : Bool :=
  match k with
  | .ld | .ldc | .ldd => true
  | _ => false

/-- Put a returned line into the cache of its kind: 512 lines of L1, 128 of the constant cache, 64 of
the descriptor cache (02, The core and its pipes). -/
def fillCache (d : Dev) (core : Nat) (k : LoadKind) (line : Nat) (data : Line) : Dev :=
  let (v, d) := takeFree d
  let c := getCore d core
  putCore d core (match k with
    | .ldc => { c with constc := insertLine c.constc 128 v line data }
    | .ldd => { c with descc := insertLine c.descc 64 v line data }
    | _ => { c with l1 := insertLine c.l1 512 v line data })

/-- The line a load reads in its cache (Table 3.14). -/
def cacheHit (d : Dev) (core : Nat) (k : LoadKind) (line : Nat) : Option Line :=
  if mayHit k then ((cacheFor (getCore d core) k).find? fun x => x.1 = line).map fun x => x.2 else none

/-- A load through L1 may not read a line in it while an earlier LD of one of its lanes to bytes that it reads
too has not been performed: LDs of one thread to one address are performed in program order (R99; log 12). -/
def ldWaits (d : Dev) (core uid n : Nat) (as : List (Nat × Nat)) : Bool :=
  (getCore d core).loads.any fun p => decide (p.uid = uid) && !p.ended &&
    decide (p.kind ≠ .atom ∧ p.kind ≠ .ldc ∧ p.kind ≠ .ldd) &&
    p.addrs.any fun a => as.any fun b => decide (a.1 = b.1) && overlaps a.2 p.bytes b.2 n &&
      d.reqs.any fun r => p.reqs.contains r.id && decide (r.line = a.2 / 128) && unperformed r

/-- Reads of a core in a class that have been performed and not returned no longer enter a cache (R104): its
lines from before an invalidation are gone with it. -/
def dropFills (d : Dev) (core cls : Nat) : Dev :=
  { d with reqs := d.reqs.map fun r =>
      if r.core = core ∧ r.cls = cls ∧ !unperformed r then { r with alloc := false } else r }

/-! ## Loads -/

/-- The value a load gives one lane: `n` bytes, sign-extended to 32 bits when asked (R91). -/
def loadVal (line : Line) (addr n : Nat) (sext : Bool) : Nat :=
  let v := lineBits line (addr % 128) n
  if sext then wrap 32 (signed (8 * n) v) else v

/-- Write the registers of a load whose lines are all known. -/
def loadRegs (g : Group) (p : PendLoad) (lines : List (Nat × Line)) : Group :=
  writeXs g p.dreg p.dcnt (perLane fun t => p.addrs.any fun a => a.1 = t) fun t =>
    match p.addrs.find? fun a => a.1 = t with
    | some a =>
      match lines.find? fun x => x.1 = a.2 / 128 with
      | some x => loadVal x.2 a.2 p.bytes p.sext
      | none => 0
    | none => 0

/-- The lanes of a list of lane addresses that address a line. -/
def lanesAt (as : List (Nat × Nat)) (line : Nat) : List Nat :=
  (as.filter fun a => decide (a.2 / 128 = line)).map (·.1)

/-- The requests of a load, one for each distinct line that its cache does not give (R90). -/
def loadReqs (l : Lead) (k : LoadKind) (ins : Nat) (as : List (Nat × Nat)) (d : Dev) (lines : List Nat) :
    List Nat × Dev :=
  lines.foldl (fun s line =>
    let (id, d) := takeId s.2
    let r := { newReq l ins id (if k = .ldc ∨ k = .ldd then 5 else 0) line
                 (tlbEntry d l.core (pageOfLine line)) .read (line * 128) (lanesAt as line) with
               ret := true, alloc := mayAlloc k, mark := decide (k = .last) }
    (s.1 ++ [id], { d with reqs := d.reqs ++ [r] })) ([], d)

/-- LD, LD.LAST, LDC and LDD past their field checks (R85 to R93, R101, R104): lines found in the
cache are read at once, the others are requested from their homes. -/
def loadBody (k : LoadKind) (f : FmtM) (sext : Bool) (l : Lead) (d : Dev) : Option Dev :=
  let as := (lanesOf l.run).map fun t => (t, eaM l.g f t)
  let (flt, d) := memFault d l.core as (sizeBytes f.size) false
  match flt with
  | some x => some (laneFault d l x)
  | none =>
    let lines := distinct (as.map fun a => a.2 / 128)
    let hits := lines.filterMap fun n => (cacheHit d l.core k n).map fun x => (n, x)
    let miss := lines.filter fun n => cacheHit d l.core k n = none
    if 256 < inFlight d l.core + miss.length ||
        (decide (hits ≠ []) && decide (k ≠ .ldc ∧ k ≠ .ldd) && ldWaits d l.core l.g.uid (sizeBytes f.size) as)
    then none
    else
      let (id, d) := takeId d
      let (ids, d) := loadReqs l k id as d miss
      let p : PendLoad :=
        { id := id, uid := l.g.uid, slot := l.slot, pos := l.g.pos, pc := l.pc, kind := k,
          dreg := f.d.toNat, dcnt := sizeRegs f.size, bytes := sizeBytes f.size, sext := sext,
          addrs := as, hits := hits, reqs := ids, ended := false }
      -- .LAST removes the lines it reads in L1 and marks them dead at their homes (R91, 08 R245)
      let d := if k = .last then
          hits.foldl (fun d h =>
            let c := getCore d l.core
            deadMark (putCore d l.core { c with l1 := c.l1.filter fun x => x.1 != h.1 }) 0
              (tlbEntry d l.core (pageOfLine h.1)) h.1) d
        else d
      if ids = [] then some (commit d l 1 (loadRegs l.g p hits))
      else
        let d := commit d l 1 l.g
        let c := getCore d l.core
        some (putCore d l.core { c with loads := c.loads ++ [p] })

/-- The form of LD: SIZE up to 128 bits; HINT[3] only for 8 and 16 bits (R75 item 5). -/
def ldForm (f : FmtM) (hintOk : Bool) : Form :=
  { guard := f.guard, code := codeM f, legal := decide (f.size.toNat ≤ 4) && hintOk,
    regs := .x f.d.toNat (sizeRegs f.size) :: addrRegs f, outs := [.x f.d.toNat (sizeRegs f.size)], words := 1 }

/-- The form of ST, which writes no register. -/
def stForm (f : FmtM) : Form := { ldForm f (decide (f.hint = 0)) with outs := [] }

/-- The operands of LD.LAST: its word has HINT[2:0] 0b001, whatever the operand's hint says in those bits. -/
def lastFmt (f : FmtM) : FmtM := { f with hint := setBits f.hint 0 3 1 }

/-- HINT of LD (Table 3.14). -/
def ldHintOk (f : FmtM) : Bool :=
  decide (bits f.hint 0 3 ≤ 3) && (!bit f.hint 3 || decide (f.size.toNat ≤ 1))

/-- The load kind of HINT[2:0]. -/
def ldKind (h : Nat) : LoadKind :=
  match h with
  | 1 => .last
  | 2 => .cd
  | 3 => .na
  | _ => .ld

def ld (x : At) (f : FmtM) : Dev → Option Dev :=
  issue x ((ldForm f (ldHintOk f)).op 0x80 .mem) (loadBody (ldKind (bits f.hint 0 3)) f (bit f.hint 3))
def ldLast (x : At) (f : FmtM) : Dev → Option Dev :=
  issue x ((ldForm (lastFmt f) (ldHintOk (lastFmt f))).op 0x80 .mem) (loadBody .last f (bit f.hint 3))
def ldc (x : At) (f : FmtM) : Dev → Option Dev :=
  issue x ((ldForm f (decide (f.hint = 0))).op 0x82 .mem) (loadBody .ldc f false)
def ldd (x : At) (f : FmtM) : Dev → Option Dev :=
  issue x ((ldForm f (decide (f.hint = 0))).op 0x83 .mem) (loadBody .ldd f false)

/-- A load by number. -/
def getLoad (c : Core) (id : Nat) : Option PendLoad := c.loads.find? fun p => decide (p.id = id)

/-- Whether the group of an outstanding load is still resident and has not faulted. -/
def groupThere (c : Core) (slot uid : Nat) : Bool :=
  match getGroup c slot with
  | some g => decide (g.uid = uid) && decide (g.hold ≠ some .record)
  | none => false

/-- Remove a load and its requests. -/
def dropLoad (d : Dev) (core : Nat) (p : PendLoad) : Dev :=
  let d := { d with reqs := d.reqs.filter fun r => !p.reqs.contains r.id }
  let c := getCore d core
  putCore d core { c with loads := c.loads.filter fun q => q.id != p.id }

/-- Whether a task has taken a fault that ends its groups. -/
def taskEnded (c : Core) (pos : Bool) : Bool :=
  match getTask c pos with
  | some t => t.aborted
  | none => true

/-- The fault of returned requests: FAULT_DATA_UE before FAULT_MEM_ABORT (Table 3.18), with the address of the
request. -/
def returnFault (rs : List Req) : Option (Nat × Nat) :=
  match rs.find? fun r => decide (r.status = .ue) with
  | some r => some (0x11, r.addr)
  | none => (rs.find? fun r => decide (r.status ≠ .ok)).map fun r => (0x12, r.addr)

/-- The lanes of a load that address a line of a failed request. -/
def badLanes (p : PendLoad) (rs : List Req) (code : Nat) : Nat :=
  laneMask (perLane fun t => p.addrs.any fun a => a.1 = t && rs.any fun r =>
    decide (r.line = a.2 / 128) && decide (r.status ≠ .ok) && decide ((code = 0x11) = (r.status = .ue)))

/-- Take the fault of a returned load or atomic: FAULT_DATA_UE reports the lowest faulting lane's address,
FAULT_MEM_ABORT that of the aborted request (Table 3.18). The return of a group that a fault has ended is discarded,
and what that group issued after it is not performed (R107, R108). -/
def returnTake (d : Dev) (core : Nat) (p : PendLoad) (rs : List Req) (code addr : Nat) : Dev :=
  let a := if code ≠ 0x11 then addr else ((p.addrs.find? fun a => rs.any fun r => decide (r.line = a.2 / 128) &&
    decide (r.status = .ue)).map (·.2)).getD addr
  if p.ended then dropLater d core [p.uid] p.id
  else takeFault d core p.slot p.uid p.pos p.id code p.pc.toNat a (badLanes p rs code)

/-- LOAD_DATA_RETURN: every line of a load has been read at its home; its registers are written and
stop being pending, and lines that allocate enter the core's cache (R77, R90, R101). -/
def loadDataReturn (core : BitVec 11) (id : Nat) (d : Dev) : Option Dev :=
  let n := core.toNat
  match getLoad (getCore d n) id with
  | none => none
  | some p =>
    let rs := d.reqs.filter fun r => p.reqs.contains r.id
    if p.kind = .atom ∨ rs.any unperformed then none
    else
      let d := dropLoad d n p
      match returnFault rs with
      | some x => some (returnTake d n p rs x.1 x.2)
      | none =>
        let lines := p.hits ++ rs.map fun r => (r.line, r.result)
        let d := rs.foldl (fun d r => if r.alloc then fillCache d n p.kind r.line r.result else d) d
        let c := getCore d n
        match getGroup c p.slot with
        | some g =>
          if g.uid = p.uid ∧ !p.ended then some (putCore d n (putGroup c p.slot (some (loadRegs g p lines))))
          else some d
        | none => some d

/-! ## Stores -/

/-- The bytes one lane stores into a line. -/
def storeLane (g : Group) (r n bytes t : Nat) : Nat :=
  (List.range n).foldl (fun s i => s + (readX g (if r = 255 then 255 else r + i) t).toNat * 2 ^ (32 * i)) 0
    % 2 ^ (8 * bytes)

/-- The data and mask of a store for one line, lanes in ascending order: the highest-numbered lane's
byte stands (R93). -/
def storeLine (g : Group) (r n bytes : Nat) (as : List (Nat × Nat)) (line : Nat) : Line × LMask :=
  (as.filter fun a => a.2 / 128 = line).foldl
    (fun s a => (setLine s.1 (a.2 % 128) bytes (storeLane g r n bytes a.1),
                 s.2 ||| maskOf (a.2 % 128) bytes)) (0, 0)

/-- A store enters L1 where the line is present, and a fill of the line that is in flight will not
allocate (R93, R101; log 12). -/
def storeL1 (d : Dev) (core line : Nat) (x : Line) (m : LMask) : Dev :=
  let d := { d with reqs := d.reqs.map fun r =>
    if r.core = core ∧ r.line = line ∧ r.cls = 0 then { r with alloc := false } else r }
  let c := getCore d core
  putCore d core { c with l1 := c.l1.map fun e => if e.1 = line then (e.1, merge e.2 x m) else e }

/-- ST past its field checks (R85 to R90, R93). -/
def storeBody (f : FmtM) (l : Lead) (d : Dev) : Option Dev :=
  let as := (lanesOf l.run).map fun t => (t, eaM l.g f t)
  let (flt, d) := memFault d l.core as (sizeBytes f.size) true
  match flt with
  | some x => some (laneFault d l x)
  | none =>
    let lines := distinct (as.map fun a => a.2 / 128)
    if 256 < inFlight d l.core + lines.length then none
    else
      let (ins, d) := takeId d
      let d := lines.foldl (fun d line =>
        let s := storeLine l.g f.d.toNat (sizeRegs f.size) (sizeBytes f.size) as line
        let (id, d) := takeId (storeL1 d l.core line s.1 s.2)
        { d with reqs := d.reqs ++ [newReq l ins id 0 line (tlbEntry d l.core (pageOfLine line))
                                      (.write s.1 s.2) (line * 128) (lanesAt as line)] }) d
      some (commit d l 1 l.g)

def st (x : At) (f : FmtM) : Dev → Option Dev :=
  issue x ((stForm f).op 0x81 .mem) (storeBody f)

/-- STORE_ACKNOWLEDGE: a performed store, or an atomic that returns nothing, leaves the
write-combining buffer; an access that ended in an error faults its group, whose record stands though a fault
has ended the task before (R93, R106, R109, 15 R456, R465). -/
def storeAcknowledge (core : BitVec 11) (id : Nat) (d : Dev) : Option Dev :=
  match getReq d id with
  | none => none
  | some r =>
    if r.core = core.toNat ∧ isWrite r ∧ !r.ret ∧ !unperformed r then
      let d := { d with reqs := d.reqs.filter fun x => x.id != id }
      match returnFault [r] with
      | none => some d
      | some x => some (takeFault d r.core r.slot r.uid r.pos r.ins x.1 r.pc.toNat x.2 r.lanes)
    else none

/-! ## Atomics (R95 to R98, R103) -/

/-- TYPE values of an atomic (Table 3.16). -/
def atomTypes (op : AtomOp) : List Nat :=
  match op with
  | .add => [0, 1, 2, 4]
  | .min | .max => [0, 1, 2, 3]
  | _ => [0, 2]

/-- Registers of an atomic operand. -/
def atomRegs (ty : Nat) : Nat := if ty = 2 ∨ ty = 3 then 2 else 1

/-- The combined atomics of one instruction: lanes of equal address, in ascending lane order, one
operation for each distinct address (R96). -/
def combine (op : AtomOp) (ty : Nat) (as : List (Nat × Nat)) (b c : Nat → Nat) : List (Nat × Combined) :=
  (distinct (as.map (·.2))).map fun a =>
    (a, { op := op, ty := ty, off := a % 128,
          lanes := (as.filter fun x => x.2 = a).map fun x => (x.1, b x.1, c x.1) })

/-- The fence of an atomic's ORD (R103). -/
def ordFence (ord : BitVec 2) : Option FenceKind :=
  match ord.toNat with
  | 1 => some .atomAcq
  | 2 => some .atomRel
  | 3 => some .atomAr
  | _ => none

/-- An atomic past its field checks. The fence of its ORD acts also when no lane's guard is true: R103 names the
instruction and no lane (DESIGN CHOICE, log 68). -/
def atomBody (op : AtomOp) (f : FmtA) (l : Lead) (d : Dev) : Option Dev :=
  let n := atomRegs f.ty.toNat
  let as := (lanesOf l.run).map fun t => (t, eaA l.g f t)
  let (flt, d) := memFault d l.core as (atomBytes f.ty.toNat) true
  match flt with
  | some x => some (laneFault d l x)
  | none =>
    let cs := combine op f.ty.toNat as (xVal l.g f.b.toNat n) (xVal l.g f.c.toNat n)
    if 256 < inFlight d l.core + cs.length then none
    else
      let (id, d) := takeId d
      let (ids, d) := cs.foldl (fun s x =>
        let (i, d) := takeId s.2
        let r := { newReq l id i 0 (x.1 / 128) (tlbEntry d l.core (x.1 / 2 ^ 20)) (.atomic x.2) x.1
                     (x.2.lanes.map (·.1)) with
                   ret := decide (f.d ≠ 255), rel := bit f.ord 1 }
        (s.1 ++ [i], { d with reqs := d.reqs ++ [r] })) (([] : List Nat), d)
      let g := match ordFence f.ord with
        | some k => { l.g with hold := some (.fence k id) }
        | none => l.g
      let d := commit d l 1 g
      if f.d = 255 ∨ ids = [] then some d
      else
        let c := getCore d l.core
        some (putCore d l.core { c with loads := c.loads ++
          [{ id := id, uid := l.g.uid, slot := l.slot, pos := l.g.pos, pc := l.pc, kind := .atom,
             dreg := f.d.toNat, dcnt := n, bytes := atomBytes f.ty.toNat, sext := false, addrs := as,
             hits := [], reqs := ids, ended := false }] })

/-- The form of an atomic: only ATOM.CAS names C. -/
def atomForm (op : AtomOp) (f : FmtA) : Form :=
  { guard := f.guard, code := codeA f,
    legal := (atomTypes op).contains f.ty.toNat && (decide (op = .cas) || decide (f.c = 0)),
    regs := [.x f.d.toNat (atomRegs f.ty.toNat), .x f.a.toNat 2, .x f.b.toNat (atomRegs f.ty.toNat)] ++
      (if op = .cas then [.x f.c.toNat (atomRegs f.ty.toNat)] else []),
    outs := [.x f.d.toNat (atomRegs f.ty.toNat)], fence := decide (f.ord ≠ 0), words := 1 }

/-- OP of an atomic (Table 3.16). -/
def atomOp : AtomOp → Nat
  | .add => 0x90
  | .min => 0x91
  | .max => 0x92
  | .and => 0x93
  | .or => 0x94
  | .xor => 0x95
  | .exch => 0x96
  | .cas => 0x97

/-- The issue of an atomic instruction. -/
def atomIssue (op : AtomOp) (x : At) (f : FmtA) : Dev → Option Dev := 
  issue x ((atomForm op f).op (atomOp op) .mem) (atomBody op f)

/-- ATOMIC_RETURN: every combined atomic of an instruction has been performed; each lane receives the
value it found (R95, R96). -/
def atomicReturn (core : BitVec 11) (id : Nat) (d : Dev) : Option Dev :=
  let n := core.toNat
  match getLoad (getCore d n) id with
  | none => none
  | some p =>
    let rs := d.reqs.filter fun r => p.reqs.contains r.id
    if p.kind ≠ .atom ∨ rs.any unperformed then none
    else
      let d := dropLoad d n p
      match returnFault rs with
      | some x => some (returnTake d n p rs x.1 x.2)
      | none =>
        let olds := rs.flatMap fun r => r.olds
        let c := getCore d n
        match getGroup c p.slot with
        | some g =>
          if g.uid = p.uid ∧ !p.ended then
            some (putCore d n (putGroup c p.slot (some (writeXs g p.dreg p.dcnt
              (perLane fun t => olds.any fun o => o.1 = t)
              fun t => ((olds.find? fun o => o.1 = t).map (·.2)).getD 0))))
          else some d
        | none => some d

/-! ## Fences (Table 3.15, R94) -/

/-- The form of a fence: unguarded, every other field 0 (R73, R75). -/
def fenceForm (f : FmtR) : Form :=
  { bareForm f with legal := (bareForm f).legal && unguarded f.guard, fence := true }

/-- OP of a fence (Table 3.15). -/
def fenceOp : FenceKind → Nat
  | .acq => 0x98
  | .rel => 0x99
  | .sc => 0x9A
  | .inst => 0x9B
  | _ => 0x9C

/-- A fence holds its group until FENCE_DRAINED (R94, 02 R48 item 5). -/
def fenceIssue (k : FenceKind) (x : At) (f : FmtR) : Dev → Option Dev :=
  issue x ((fenceForm f).op (fenceOp k) .mem) fun l d =>
    let (id, d) := takeId d
    some (commit d l 1 { l.g with hold := some (.fence k id) })

/-- The group's loads and atomics up to instruction `id` have returned: an atomic with ORD waits for its own
(R103), a fence has none. -/
def loadsBack (d : Dev) (core uid id : Nat) : Bool :=
  !((getCore d core).loads.any fun p => decide (p.uid = uid) && decide (p.id ≤ id)) &&
  !(d.reqs.any fun r => decide (r.core = core) && decide (r.uid = uid) && decide (r.ins ≤ id) &&
      unperformed r && match r.op with
        | .atomic _ => true
        | _ => false)

/-- The group's stores (and atomics, when `atoms`) of instructions before `id` are acknowledged. -/
def writesAcked (d : Dev) (core uid id : Nat) (atoms : Bool) : Bool :=
  !(d.reqs.any fun r => decide (r.core = core) && decide (r.uid = uid) && decide (r.ins < id) &&
      match r.op with
        | .write _ _ => true
        | .atomic _ => atoms
        | .read => false)

/-- What a fence waits for (Table 3.15). ORD .REL holds the group for the fence ahead of its atomic only: the
group goes on while the atomic waits to be performed (R95, R103). -/
def fenceReady (d : Dev) (core uid id : Nat) (k : FenceKind) : Bool :=
  match k with
  | .acq | .atomAcq => loadsBack d core uid id
  | .rel | .atomRel => writesAcked d core uid id true
  | .sc | .atomAr => loadsBack d core uid id && writesAcked d core uid id true
  | .inst | .ro => writesAcked d core uid id false

/-- What a fence invalidates (Table 3.15). -/
def fenceInval (c : Core) (k : FenceKind) : Core :=
  match k with
  | .acq | .sc | .atomAcq | .atomAr => { c with l1 := [] }
  | .inst => { c with ic := [] }
  | .ro => { c with constc := [], descc := [] }
  | .rel | .atomRel => c

/-- What a fence invalidates, in the device: reads performed before it fill nothing of it (R94, R104). -/
def fenceClear (d : Dev) (n : Nat) (k : FenceKind) : Dev :=
  let d := putCore d n (fenceInval (getCore d n) k)
  match k with
  | .acq | .sc | .atomAcq | .atomAr => dropFills d n 0
  | .ro => dropFills d n 5
  | .rel | .atomRel | .inst => d

/-- FENCE_DRAINED: the fence's wait ends, its invalidation applies to the whole core, and its group
is released (R94). -/
def fenceDrained (x : At) (d : Dev) : Option Dev :=
  let n := x.core.toNat
  let c := getCore d n
  match getGroup c x.slot.toNat with
  | some g =>
    match g.hold with
    | some (.fence k id) =>
      if coreUp d n && fenceReady d n g.uid id k then
        let d := fenceClear d n k
        some (putCore d n (putGroup (getCore d n) x.slot.toNat (some { g with hold := none })))
      else none
    | _ => none
  | none => none

/-! ## CACHE range operations (R92; 08 R240, R243, R245, R250) -/

/-- The lines of a range: every line it touches, or for DEAD every line wholly within it. -/
def rangeLines (kind addr len : Nat) : Nat × Nat :=
  if kind = 1 then (ceilDiv addr 128, (addr + len) / 128)
  else (addr / 128, ceilDiv (addr + len) 128)

/-- Write a CACHE status to register d of every lane of the active set at issue (R92). -/
def rangeStatus (d : Dev) (core : Nat) (r : RangeOp) : Dev :=
  let c := getCore d core
  let c := { c with ranges := c.ranges.filter fun x => x.id != r.id }
  putCore d core (match getGroup c r.slot with
    | some g => if g.uid = r.uid then
        putGroup c r.slot (some (writeX g r.dreg (perLane fun t => r.lanes.contains t)
          fun _ => BitVec.ofNat 32 (b2n r.left)))
      else c
    | none => c)

/-- CACHE past its field checks: the range comes from the lowest-numbered lane of the active set
whose guard is true (R92); each page of the range is translated at issue (R88). -/
def cacheBody (kind : Nat) (f : FmtM) (l : Lead) (d : Dev) : Option Dev :=
  match lanesOf l.run with
  | [] => some (commit d l 1 l.g)
  | t :: _ =>
    if loadsOut d l then none
    else
      let a := eaM l.g f t
      let len := (readX l.g f.d.toNat t).toNat
      let pages := if len = 0 then [] else
        (List.range ((a + len - 1) / 2 ^ 20 + 1 - a / 2 ^ 20)).map fun i => (t, (a / 2 ^ 20 + i) * 2 ^ 20)
      let as := if len ≠ 0 ∧ 2 ^ 39 < a + len ∧ a < 2 ^ 39 then [(t, 2 ^ 39)]
        else if 2 ^ 39 ≤ a then [(t, a)] else pages
      let (flt, d) := memFault d l.core as 1 (decide (kind = 1) || decide (kind = 2))
      match flt with
      | some x => some (laneFault d l (x.1, x.2.1, a))
      | none =>
        let (id, d) := takeId d
        let r := rangeLines kind a len
        let op : RangeOp :=
          { id := id, uid := l.g.uid, slot := l.slot, kind := kind, next := r.1, stop := r.2,
            left := false, dreg := f.d.toNat, lanes := lanesOf l.act }
        let d := commit d l 1 l.g
        if len = 0 ∨ r.2 ≤ r.1 then some (rangeStatus d l.core op)
        else
          let c := getCore d l.core
          some (putCore d l.core { c with ranges := c.ranges ++ [op] })

/-- The form of CACHE: SIZE is 0, HINT[3] is 0, and HINT[2:0] is the kind of the mnemonic. -/
def cacheForm (kind : Nat) (f : FmtM) : Form :=
  { guard := f.guard, code := codeM f, legal := decide (f.size = 0) && decide (f.hint.toNat = kind),
    regs := .x f.d.toNat 1 :: addrRegs f, outs := [.x f.d.toNat 1], words := 1 }

def cacheIssue (kind : Nat) (x : At) (f : FmtM) : Dev → Option Dev :=
  issue x ((cacheForm kind f).op 0x84 .mem) (cacheBody kind f)

/-- The core and the range operation of a number. -/
def findRange (d : Dev) (id : Nat) : Option (Nat × RangeOp) :=
  d.cores.findSome? fun e => (e.2.ranges.find? fun r => decide (r.id = id)).map fun r => (e.1, r)

/-- A fetch that a range operation needs waits while its half holds misses (08 Table 8.7). -/
def rangeHeld (d : Dev) (n : Nat) (r : RangeOp) (kind : Nat) : Bool :=
  match (coreTx d n (pageOfLine r.next)).1 with
  | .entry e => (decide (kind = 0) || decide (kind = 2)) && pteCacheable e && needsMemory d e r.next .read &&
      bit (regGet d (aCdcStatus (halfOf (homeOf e r.next)))) 62
  | _ => false

/-- The next line of a range operation is done at its home; after the last one the status is written
(R92). The home takes the lines in ascending order (08 R240). -/
def rangeStep (kind id : Nat) (act : Dev → D64 → Nat → Bool × Dev) (d : Dev) : Option Dev :=
  match findRange d id with
  | none => none
  | some (n, r) =>
    if r.kind ≠ kind ∨ (kind ≠ 1 ∧ d.miss.any (fun m => decide (m.line = r.next))) ∨ !budgetOk d n ∨ rangeHeld d n r kind then none
    else
      let (tx, d) := coreTx d n (pageOfLine r.next)
      let (left, d) := match tx with
        | .entry e => if halfReady d (halfOf (homeOf e r.next)) then act (spend d n) e r.next else (true, d)
        | _ => (true, d)
      let r' := { r with next := r.next + 1, left := r.left || left }
      if r'.next < r'.stop then
        let c := getCore d n
        some (putCore d n { c with ranges := c.ranges.map fun x => if x.id = id then r' else x })
      else some (rangeStatus d n { r' with left := r'.left && decide (kind = 2) })

def prefLineCmd (id : Nat) : Dev → Option Dev := rangeStep 0 id fun d e l => (false, prefLine d e l)
def deadMarkCmd (id : Nat) : Dev → Option Dev := rangeStep 1 id fun d e l => (false, deadMark d 0 e l)
def pinLineCmd (id : Nat) : Dev → Option Dev := rangeStep 2 id fun d e l => pinLine d e l
def unpinLineCmd (id : Nat) : Dev → Option Dev := rangeStep 3 id fun d e l => (false, unpinLine d e l)

/-! ## Instruction fetch and TLB fills -/

/-- The address whose instruction cache line the group waits for: its lead PC, or the second word of
a two-word instruction (02 R48). -/
def fetchAddr (c : Core) (pc : BitVec 47) : Nat :=
  if c.ic.any fun e => e.1 == pc.toNat / 128 then pc.toNat + 8 else pc.toNat

/-- INSTRUCTION_CACHE_FILL: a missing line returns from its home in class TC5; it ends in
FAULT_PC_RANGE outside the device address window, a page fault, or FAULT_IFETCH_UE (02 R48, 03 R84,
R88, 15 Table 15.5). The cache holds 512 lines. -/
def instructionCacheFill (x : At) (d : Dev) : Option Dev :=
  match leadOf x 0 d with
  | none => none
  | some l =>
    if pcBad l.pc then some (issueFault d l 0x01 l.pc.toNat l.act)
    else
      let a := fetchAddr (getCore d l.core) l.pc
      if (getCore d l.core).ic.any fun e => e.1 == a / 128 then none
      else if 2 ^ 39 ≤ a then some (issueFault d l 0x01 l.pc.toNat l.act)
      else
        match coreTx d l.core (a / 2 ^ 20) with
        | (.invalid, d) => some (issueFault d l 0x07 l.pc.toNat l.act)
        | (.retired, d) => some (issueFault d l 0x08 l.pc.toNat l.act)
        | (.entry e, d) =>
          let st := serveStop d (some l.core) e (a / 128) .read
          if !budgetOk d l.core || (needsMemory d e (a / 128) .read &&
              bit (regGet d (aCdcStatus (halfOf (homeOf e (a / 128))))) 62) then none
          else if st ≠ 0 then some (issueFault (noteStop d (some l.core) e (a / 128) st) l 0x12 a l.act)
          else
            let (r, d) := accessHome (spend d l.core) 5 e (a / 128) .read
            if r.status ≠ .ok then some (issueFault d l 0x02 l.pc.toNat l.act)
            else
              let (v, d) := takeFree d
              let c := getCore d l.core
              let ic := if c.ic.length < 512 then c.ic else c.ic.eraseIdx (v.toNat % c.ic.length)
              some (putCore d l.core { c with ic := ic ++ [(a / 128, r.line)] })

/-- TLB_MISS_FILL: a core's TLB or the base translation cache reads the page map for a page it does
not hold; only an entry that translates is kept (09 R266, R269). -/
def tlbMissFill (who : TlbUser) (page : BitVec 19) (d : Dev) : Option Dev :=
  match who with
  | .core n =>
    if coreUp d n.toNat && !((getCore d n.toNat).tlb.any fun x => x.1 = page.toNat) then
      some (coreTx d n.toNat page.toNat).2
    else none
  | .base => if d.btc.any fun x => x.1 = page.toNat then none else some (baseTx d page.toNat).2

/-! ## The commands of this family -/

/-- LD (03 R101). -/
def execLd (x : At) (f : FmtM) (s : State) : Host.Outcome State Fault Refusal := gated s "LD" (ld x f s.dev)
/-- LD_LAST (08 R245). -/
def execLdLast (x : At) (f : FmtM) (s : State) : Host.Outcome State Fault Refusal :=
  gated s "LD_LAST" (ldLast x f s.dev)
/-- ST (03 R93). -/
def execSt (x : At) (f : FmtM) (s : State) : Host.Outcome State Fault Refusal := gated s "ST" (st x f s.dev)
/-- LDC (03 R104). -/
def execLdc (x : At) (f : FmtM) (s : State) : Host.Outcome State Fault Refusal := gated s "LDC" (ldc x f s.dev)
/-- LDD (03 R104). -/
def execLdd (x : At) (f : FmtM) (s : State) : Host.Outcome State Fault Refusal := gated s "LDD" (ldd x f s.dev)
/-- CACHE_PREF (08 R250). -/
def execCachePref (x : At) (f : FmtM) (s : State) : Host.Outcome State Fault Refusal :=
  gated s "CACHE_PREF" (cacheIssue 0 x f s.dev)
/-- CACHE_DEAD (08 R245). -/
def execCacheDead (x : At) (f : FmtM) (s : State) : Host.Outcome State Fault Refusal :=
  gated s "CACHE_DEAD" (cacheIssue 1 x f s.dev)
/-- CACHE_PIN (08 R240). -/
def execCachePin (x : At) (f : FmtM) (s : State) : Host.Outcome State Fault Refusal :=
  gated s "CACHE_PIN" (cacheIssue 2 x f s.dev)
/-- CACHE_UNPIN (08 R243). -/
def execCacheUnpin (x : At) (f : FmtM) (s : State) : Host.Outcome State Fault Refusal :=
  gated s "CACHE_UNPIN" (cacheIssue 3 x f s.dev)
/-- FENCE_ACQ (03 R94). -/
def execFenceAcq (x : At) (f : FmtR) (s : State) : Host.Outcome State Fault Refusal :=
  gated s "FENCE_ACQ" (fenceIssue .acq x f s.dev)
/-- FENCE_REL (03 R94). -/
def execFenceRel (x : At) (f : FmtR) (s : State) : Host.Outcome State Fault Refusal :=
  gated s "FENCE_REL" (fenceIssue .rel x f s.dev)
/-- FENCE_SC (03 R94). -/
def execFenceSc (x : At) (f : FmtR) (s : State) : Host.Outcome State Fault Refusal :=
  gated s "FENCE_SC" (fenceIssue .sc x f s.dev)
/-- FENCE_I (03 R94). -/
def execFenceI (x : At) (f : FmtR) (s : State) : Host.Outcome State Fault Refusal :=
  gated s "FENCE_I" (fenceIssue .inst x f s.dev)
/-- FENCE_RO (03 R94). -/
def execFenceRo (x : At) (f : FmtR) (s : State) : Host.Outcome State Fault Refusal :=
  gated s "FENCE_RO" (fenceIssue .ro x f s.dev)
/-- ATOM_ADD (03 R96). -/
def execAtomAdd (x : At) (f : FmtA) (s : State) : Host.Outcome State Fault Refusal :=
  gated s "ATOM_ADD" (atomIssue .add x f s.dev)
/-- ATOM_MIN (03 R96). -/
def execAtomMin (x : At) (f : FmtA) (s : State) : Host.Outcome State Fault Refusal :=
  gated s "ATOM_MIN" (atomIssue .min x f s.dev)
/-- ATOM_MAX (03 R96). -/
def execAtomMax (x : At) (f : FmtA) (s : State) : Host.Outcome State Fault Refusal :=
  gated s "ATOM_MAX" (atomIssue .max x f s.dev)
/-- ATOM_AND (03 R96). -/
def execAtomAnd (x : At) (f : FmtA) (s : State) : Host.Outcome State Fault Refusal :=
  gated s "ATOM_AND" (atomIssue .and x f s.dev)
/-- ATOM_OR (03 R96). -/
def execAtomOr (x : At) (f : FmtA) (s : State) : Host.Outcome State Fault Refusal :=
  gated s "ATOM_OR" (atomIssue .or x f s.dev)
/-- ATOM_XOR (03 R96). -/
def execAtomXor (x : At) (f : FmtA) (s : State) : Host.Outcome State Fault Refusal :=
  gated s "ATOM_XOR" (atomIssue .xor x f s.dev)
/-- ATOM_EXCH (03 R97). -/
def execAtomExch (x : At) (f : FmtA) (s : State) : Host.Outcome State Fault Refusal :=
  gated s "ATOM_EXCH" (atomIssue .exch x f s.dev)
/-- ATOM_CAS (03 R97). -/
def execAtomCas (x : At) (f : FmtA) (s : State) : Host.Outcome State Fault Refusal :=
  gated s "ATOM_CAS" (atomIssue .cas x f s.dev)
/-- LOAD_DATA_RETURN (03 R77). -/
def execLoadDataReturn (core : BitVec 11) (id : Nat) (s : State) : Host.Outcome State Fault Refusal :=
  gated s "LOAD_DATA_RETURN" (loadDataReturn core id s.dev)
/-- ATOMIC_RETURN (03 R95). -/
def execAtomicReturn (core : BitVec 11) (id : Nat) (s : State) : Host.Outcome State Fault Refusal :=
  gated s "ATOMIC_RETURN" (atomicReturn core id s.dev)
/-- STORE_ACKNOWLEDGE (03 R93). -/
def execStoreAcknowledge (core : BitVec 11) (id : Nat) (s : State) : Host.Outcome State Fault Refusal :=
  gated s "STORE_ACKNOWLEDGE" (storeAcknowledge core id s.dev)
/-- FENCE_DRAINED (03 R94). -/
def execFenceDrained (x : At) (s : State) : Host.Outcome State Fault Refusal :=
  gated s "FENCE_DRAINED" (fenceDrained x s.dev)
/-- DEAD_MARK (08 R245). -/
def execDeadMark (id : Nat) (s : State) : Host.Outcome State Fault Refusal :=
  gated s "DEAD_MARK" (deadMarkCmd id s.dev)
/-- PIN_LINE (08 R240). -/
def execPinLine (id : Nat) (s : State) : Host.Outcome State Fault Refusal := gated s "PIN_LINE" (pinLineCmd id s.dev)
/-- UNPIN_LINE (08 R243). -/
def execUnpinLine (id : Nat) (s : State) : Host.Outcome State Fault Refusal :=
  gated s "UNPIN_LINE" (unpinLineCmd id s.dev)
/-- PREF_LINE (08 R250). -/
def execPrefLine (id : Nat) (s : State) : Host.Outcome State Fault Refusal :=
  gated s "PREF_LINE" (prefLineCmd id s.dev)
/-- TLB_MISS_FILL (09 R269). -/
def execTlbMissFill (who : TlbUser) (page : BitVec 19) (s : State) : Host.Outcome State Fault Refusal :=
  gated s "TLB_MISS_FILL" (tlbMissFill who page s.dev)
/-- INSTRUCTION_CACHE_FILL (02 R48). -/
def execInstructionCacheFill (x : At) (s : State) : Host.Outcome State Fault Refusal :=
  gated s "INSTRUCTION_CACHE_FILL" (instructionCacheFill x s.dev)

end Sys2Proof.Machine
end

