-- ==== Sys2Proof/Machine/Descriptors.lean ====
section
/-! DEFINITION. The 128-bit descriptors of the matrix and row unit operations (04 Tables 4.10 to
4.15) and the scratchpad banks that queued operations touch. -/

namespace Sys2Proof.Machine

/-! ## Formats (Tables 4.1, 4.10; R119) -/

/-- Class of an element format code: 0 4-bit, 1 8-bit, 2 16-bit, 3 FP32. -/
def fmtClass (f : Nat) : Nat := if f ≤ 2 then 0 else if f ≤ 0xA then 1 else if f ≤ 0xC then 2 else 3
/-- Width in bits of an element of a class. -/
def classBits (c : Nat) : Nat := 4 * 2 ^ c
/-- Rank of a class, which is also its elements per 4 bytes (Table 4.10). -/
def classRank (c : Nat) : Nat := 8 / 2 ^ c
/-- Stage capacity in rows (R119). -/
def classRows (c : Nat) : Nat := 4096 / 2 ^ c
/-- Bytes of a stage row (R119). -/
def rowBytes (f : Nat) : Nat := 2 * classBits (fmtClass f)
/-- Block size of a format, 0 for formats without block scales (Table 4.1). -/
def fmtBlock (f : Nat) : Nat := if f = 1 ∨ f = 2 ∨ (4 ≤ f ∧ f ≤ 8) then 32 else 0
/-- INT4 and INT8. -/
def fmtInt (f : Nat) : Bool := f = 0 || f = 3

/-- The arrays of an AMASK, ascending. -/
def arraysOf (m : Nat) : List Nat := (List.range 4).filter fun a => m.testBit a

/-! ## MX.MMA (R128, Table 4.12) -/

def mmaLine (d : BitVec 128) : Nat := bits d 0 13
def mmaKlen (d : BitVec 128) : Nat := bits d 13 13
def mmaRow (d : BitVec 128) : Nat := bits d 26 12
def mmaFsb (d : BitVec 128) : Nat := bits d 38 10
def mmaFmt (d : BitVec 128) : Nat := bits d 48 4
def mmaSat (d : BitVec 128) : Bool := bit d 52
def mmaClear (d : BitVec 128) : Bool := bit d 53
def mmaTile (d : BitVec 128) : Nat := bits d 54 2
def mmaArrays (d : BitVec 128) : Nat := bits d 56 4
def mmaAfb (d : BitVec 128) : Bool := bit d 60
def mmaRows (d : BitVec 128) : Nat := bits d 64 16
def mmaCols (d : BitVec 128) : Nat := bits d 80 16
def mmaScale (d : BitVec 128) : Word := BitVec.ofNat 32 (bits d 96 32)
/-- Feed lines a stream reads (R118). -/
def mmaLines (d : BitVec 128) : Nat := ceilDiv (mmaKlen d) (classRank (fmtClass (mmaFmt d)))
/-- FSB bytes a stream reads (R120). -/
def mmaFsbLen (d : BitVec 128) : Nat :=
  if fmtBlock (mmaFmt d) = 0 then 0 else 16 * ceilDiv (mmaKlen d) (fmtBlock (mmaFmt d))

/-! ## MX.WLD and MX.SLD (Tables 4.13, 4.14) -/

def ldSrc (d : BitVec 128) : Nat := bits d 0 39
def ldSpad (d : BitVec 128) : Bool := bit d 58
def wldRows (d : BitVec 128) : Nat := bits d 59 13
def wldRow (d : BitVec 128) : Nat := bits d 72 12
def wldFmt (d : BitVec 128) : Nat := bits d 84 4
def wldArrays (d : BitVec 128) : Nat := bits d 88 4
def wldScale (d : BitVec 128) : Word := BitVec.ofNat 32 (bits d 96 32)
/-- Bytes of a panel image (R130). -/
def wldImage (d : BitVec 128) : Nat :=
  wldRows d * rowBytes (wldFmt d) +
    (if fmtBlock (wldFmt d) = 0 then 0 else 16 * ceilDiv (wldRows d) (fmtBlock (wldFmt d)))
/-- The image pitch P (R130). -/
def wldPitch (d : BitVec 128) : Nat := 64 * ceilDiv (wldImage d) 64
def sldOff (d : BitVec 128) : Nat := 16 * bits d 39 10
def sldLen (d : BitVec 128) : Nat := bits d 59 15

/-! ## MX.DRAIN (Table 4.15) -/

def drDst (d : BitVec 128) : Nat := bits d 0 39
def drSpad (d : BitVec 128) : Bool := bit d 58
def drFmt (d : BitVec 128) : Nat := bits d 66 4
def drTile (d : BitVec 128) : Nat := bits d 70 2
def drArrays (d : BitVec 128) : Nat := bits d 72 4
def drStride (d : BitVec 128) : Nat := bits d 80 16
def drRows (d : BitVec 128) : Nat := bits d 96 16
def drCols (d : BitVec 128) : Nat := bits d 112 16
/-- Byte width of OFMT. -/
def outBytes (o : Nat) : Nat := if o = 0 ∨ o = 5 then 4 else if o = 1 ∨ o = 2 then 2 else 1
/-- Columns of an array under a mask that governs the highest-numbered array only (R132, R138). -/
def colsOf (arrays mask a : Nat) : Nat := if (arraysOf arrays).getLast? = some a then mask else 0xFFFF
/-- The bytes one row of one array takes: offset from DST and length, from the lowest to the highest
enabled column. -/
def drSpans (d : BitVec 128) : List (Nat × Nat) :=
  (arraysOf (drArrays d)).flatMap fun a =>
    ((List.range 16).filter fun r => (drRows d).testBit r).flatMap fun r =>
      ((List.range 16).filter fun c => (colsOf (drArrays d) (drCols d) a).testBit c).map fun c =>
        (drDst d + r * drStride d + (16 * a + c) * outBytes (drFmt d), outBytes (drFmt d))

/-! ## Row unit (05 Table 5.2) -/

def ruCols (d : BitVec 128) : Nat := bits d 6 16
def ruRows (d : BitVec 128) : Nat := bits d 22 16
def ruLine (d : BitVec 128) : Nat := bits d 38 7
def ruInit (d : BitVec 128) : Bool := bit d 45
def ruSet (d : BitVec 128) : Nat := bits d 46 2
def ruOfmt (d : BitVec 128) : Nat := bits d 48 3
def ruAfb (d : BitVec 128) : Bool := bit d 51
def ruDst (d : BitVec 128) : Nat := bits d 52 2
def ruSrc (d : BitVec 128) : Nat := bits d 54 2
def ruArrays (d : BitVec 128) : Nat := bits d 56 4
def ruFunc (d : BitVec 128) : Nat := bits d 60 4
def ruDiag (d : BitVec 128) : Int := signed 7 (bits d 64 7)
def ruTri (d : BitVec 128) : Bool := bit d 71
def ruParam (d : BitVec 128) : Word := BitVec.ofNat 32 (bits d 64 32)
def ruScale (d : BitVec 128) : Word := BitVec.ofNat 32 (bits d 96 32)
/-- Elements per 4 bytes of an AFB format (05 R148). -/
def ofmtElems (o : Nat) : Nat := if o = 0 then 1 else if o ≤ 2 then 2 else 4
/-- AFB lines an operation writes (05 R148). -/
def ruLines (d : BitVec 128) : Nat := ceilDiv (16 * (arraysOf (ruArrays d)).length) (ofmtElems (ruOfmt d))

/-! ## Scratchpad footprints -/

/-- The banks of a byte range (07 R200). -/
def banksIn (r : Nat × Nat) : List Nat :=
  if r.2 = 0 then [] else (List.range ((r.1 + r.2 - 1) / 32768 + 1 - r.1 / 32768)).map fun i => r.1 / 32768 + i

/-- The scratchpad ranges an MX operation touches: the feed's lines, a load's source, a drain's
destination. -/
def mxRanges (k : MxKind) (d : BitVec 128) : List (Nat × Nat) :=
  match k with
  | .mma => if mmaAfb d then [] else [(64 * mmaLine d, 64 * mmaLines d)]
  | .wld => if ldSpad d then (arraysOf (wldArrays d)).map fun a => (ldSrc d + a * wldPitch d, wldImage d) else []
  | .sld => if ldSpad d then [(ldSrc d, sldLen d)] else []
  | .drain => if drSpad d then drSpans d else []
  | _ => []

/-- The banks an MX operation touches. -/
def mxBanks (o : MxOp) : List Nat := (mxRanges o.kind o.desc).flatMap banksIn

/-- The ranges of an SPX.FILL or SPX.COPY (07 R215). -/
def spxRanges (copy : Bool) (a b c : Nat) : List (Nat × Nat) := if copy then [(a, c), (b, c)] else [(a, b)]

/-- The banks an SPX operation touches. -/
def spxBanks (o : SpxOp) : List Nat := (spxRanges o.copy o.a.toNat o.b.toNat o.c.toNat).flatMap banksIn

/-- The kinds the tile mover runs (04 R134). -/
def isMover (k : MxKind) : Bool :=
  match k with
  | .wld | .sld | .drain => true
  | _ => false

end Sys2Proof.Machine
end

