-- ==== Sys2Proof/Machine/Scratchpad.lean ====
section
/-! DEFINITION. The core scratchpad (07): bank ownership and states, lane access, the SPX queue,
handovers, the window, and check bits. -/

namespace Sys2Proof.Machine

/-! ## Banks (R204 to R213) -/

/-- Field `b` of a 2-bit-per-bank word (Tables 7.8 to 7.10). -/
def bankField (w : Word) (b : Nat) : Nat := bits w (2 * b) 2
def setBank (w : Word) (b v : Nat) : Word := setBits w (2 * b) 2 v

/-- Bank states (Table 7.5, Table 7.10). -/
def bankOff : Nat := 0
def bankRetain : Nat := 1
def bankOn : Nat := 2
def bankWaking : Nat := 3

def bankState (s : Spx) (b : Nat) : Nat := bankField s.bstate b
def isOn (s : Spx) (b : Nat) : Bool := decide (bankState s b = bankOn)

/-- Ports (Table 7.1). -/
def portFeed : Nat := 0
def portLanes : Nat := 1
def portMover : Nat := 2
def portFabric : Nat := 3

/-- The bank set of the task at a position; 0 when there is none (Table 7.11). -/
def bankSet (c : Core) (pos : Bool) : BitVec 16 :=
  match getTask c pos with
  | some t => t.banks
  | none => 0

/-- A bank is in a resident task's bank set. -/
def inAnySet (c : Core) (b : Nat) : Bool := bit (bankSet c false) b || bit (bankSet c true) b

/-- The fault of one bank for an access by `port` of the task at `pos` under an owner word
(Table 7.2); ownership is not checked when `own` is false (SPX.HANDOVER). -/
def bankFault (c : Core) (pos own : Bool) (owner : Word) (port b : Nat) : Option Nat :=
  if bit (bankSet c pos) b then
    if own && decide (bankField owner b ≠ port) then some 0x0B
    else if isOn c.spx b then none else some 0x0C
  else if isOn c.spx b then some 0x0B else some 0x0C

/-- The first row of Table 7.2 that any of the banks meets, without the range (R205). -/
def banksFault (c : Core) (pos own : Bool) (owner : Word) (port : Nat) (bs : List Nat) : Option Nat :=
  let fs := bs.filterMap (bankFault c pos own owner port)
  if fs.contains 0x0B then some 0x0B else fs.head?

/-- A byte range lies within the scratchpad. -/
def inSpad (r : Nat × Nat) : Bool := decide (r.1 + r.2 ≤ 0x80000)

/-- The fault of an operation over ranges, checked at issue against queued ownership (R205). -/
def rangesFault (c : Core) (pos : Bool) (port : Nat) (rs : List (Nat × Nat)) : Option Nat :=
  if rs.any fun r => !inSpad r then some 0x0A
  else banksFault c pos true c.spx.queued port (rs.flatMap banksIn)

/-- An operation with issue number `id` may use banks through a port: the port is their committed owner, and no
handover of theirs that issued before it is under way (R207). -/
def committed (s : Spx) (port id : Nat) (bs : List Nat) : Bool :=
  bs.all fun b => decide (bankField s.owner b = port) &&
    !s.hands.any fun h => decide (h.id < id) && h.banks.any fun e => decide (e.1 = b)

/-! ## Bytes and check bits (R221 to R223) -/

/-- Write one byte of core `n`'s scratchpad: its check bits become valid (R221). -/
def spxPut (d : Dev) (n off : Nat) (v : Byte) : Dev :=
  let d := writeWord d 2 0x05 n off
  let c := getCore d n
  putCore d n { c with spx := { c.spx with bytes := mapPut 0 c.spx.bytes off v } }

/-- Write bytes from an offset. -/
def spxPuts (d : Dev) (n off : Nat) (vs : List Byte) : Dev :=
  ((List.range vs.length).zip vs).foldl (fun d x => spxPut d n (off + x.1) x.2) d

/-- Read one byte: a single error is corrected, counted and left for the bank to write back; an
uncorrectable one sets UE_BANK (R222, R223). -/
def spxGet (d : Dev) (n off : Nat) : Option Byte × Dev :=
  let v := mapGet 0 (getCore d n).spx.bytes off
  match markOf d 0x05 n off with
  | none => (some v, d)
  | some m =>
    if m.dbl then
      (none, memRecord (regSet d (aSpxErr n) (off / 32768) 1 1) (src 0 n) 2 0x05 n off (off / 32768) 0 m.inj)
    else
      (some v, memRecord (addMark (regSat d (aSpxErr n) 32 32 1) { m with seen := true }) (src 0 n) 1 0x05 n
        off (off / 32768) 0 m.inj)

/-- Read bytes from an offset; `none` when any of them has an uncorrectable error. -/
def spxGets (d : Dev) (n off : Nat) : Nat → Option (List Byte) × Dev
  | 0 => (some [], d)
  | len + 1 =>
    let (r, d) := spxGets d n off len
    let (b, d) := spxGet d n (off + len)
    (match r, b with
     | some l, some v => some (l ++ [v])
     | _, _ => none, d)

/-- SPX_CORRECTION_WRITEBACK: the bank writes a corrected byte back (R222). -/
def spxCorrectionWriteback (core : BitVec 11) (off : BitVec 19) (d : Dev) : Option Dev :=
  match markOf d 0x05 core.toNat off.toNat with
  | some m => if m.seen && !m.dbl then some (clearMark d 0x05 core.toNat off.toNat) else none
  | none => none

/-! ## SPX.LD and SPX.ST (03 R89, R202) -/

/-- The scratchpad offset of lane `t`: register A plus OFF21, modulo 2^32. -/
def spxOff (g : Group) (f : FmtM) (t : Nat) : Nat :=
  wrap 32 ((readX g f.a.toNat t).toNat + signed 21 f.off.toNat)

/-- The form of a lane access: UB, UBE and HINT are 0. -/
def spxForm (f : FmtM) : Form :=
  { guard := f.guard, code := codeM f, legal := decide (f.size.toNat ≤ 4) && decide (f.ub = 0) && decide (f.ube = 0) &&
      decide (f.hint = 0),
    regs := [.x f.d.toNat (sizeRegs f.size), .x f.a.toNat 1], words := 1 }

/-- The form of SPX.LD, which writes D. -/
def spxLdForm (f : FmtM) : Form := { spxForm f with outs := [.x f.d.toNat (sizeRegs f.size)] }

/-- The first fault of lane accesses of `n` bytes: misaligned, out of range, or a bank's (Table 3.18,
Table 7.2), with the lanes that meet it. -/
def spxLaneFault (c : Core) (pos : Bool) (n : Nat) (as : List (Nat × Nat)) : Option (Nat × List Nat × Nat) :=
  let mk (code : Nat) (l : List (Nat × Nat)) : Option (Nat × List Nat × Nat) :=
    some (code, l.map (·.1), (l.map (·.2)).headD 0)
  let mis := as.filter fun a => decide (a.2 % n ≠ 0)
  let far := as.filter fun a => !inSpad (a.2, n)
  let of (code : Nat) : List (Nat × Nat) := as.filter fun a =>
    decide (banksFault c pos true c.spx.queued portLanes (banksIn (a.2, n)) = some code)
  if mis ≠ [] then mk 0x06 mis
  else if far ≠ [] then mk 0x0A far
  else if of 0x0B ≠ [] then mk 0x0B (of 0x0B)
  else if of 0x0C ≠ [] then mk 0x0C (of 0x0C)
  else none

/-- Bytes as a little-endian number. -/
def bytesNat (l : List Byte) : Nat := l.foldr (fun b s => b.toNat + 256 * s) 0
/-- The `n` bytes of a number, lowest first. -/
def natBytes (n v : Nat) : List Byte := (List.range n).map fun i => BitVec.ofNat 8 (v / 256 ^ i)

/-- What SPX.LD reads in each lane, and the lanes that meet an uncorrectable error. -/
def spxReads (d : Dev) (core n : Nat) (as : List (Nat × Nat)) : List (Nat × Nat) × List (Nat × Nat) × Dev :=
  as.foldl (fun s a =>
    let (r, d) := spxGets s.2.2 core a.2 n
    match r with
    | some l => (s.1 ++ [(a.1, bytesNat l)], s.2.1, d)
    | none => (s.1, s.2.1 ++ [a], d)) ([], [], d)

/-- SPX.LD: the lanes port performs the core's lane accesses in issue order (R202); it cannot accept
one whose bank is still being handed to it (R207; log 12). -/
def spxLd (x : At) (f : FmtM) : Dev → Option Dev :=
  issue x ((spxLdForm f).op 0x85 .mem) fun l d =>
    let n := sizeBytes f.size
    let as := (lanesOf l.run).map fun t => (t, spxOff l.g f t)
    let c := getCore d l.core
    match spxLaneFault c l.g.pos n as with
    | some e => some (laneFault d l e)
    | none =>
      if !committed c.spx portLanes d.nextId (as.map fun a => a.2 / 32768) then none
      else
        let (vs, bad, d) := spxReads d l.core n as
        if bad ≠ [] then
          some (laneFault d l (0x11, bad.map (·.1), (bad.map (·.2)).headD 0))
        else some (commit d l 1 (writeXs l.g f.d.toNat (sizeRegs f.size) l.run fun t =>
          ((vs.find? fun v => v.1 = t).map (·.2)).getD 0))

/-- The bytes SPX.ST writes: a byte that several lanes write with different values takes a free value,
since 03 R93's rule on lanes speaks of ST only (log 3). -/
def spxStoreBytes (g : Group) (f : FmtM) (d : Dev) (as : List (Nat × Nat)) : List (Nat × Byte) × Dev :=
  let n := sizeBytes f.size
  let all : List (Nat × Byte) := as.flatMap fun a =>
    (List.range n).zip (natBytes n (storeLane g f.d.toNat (sizeRegs f.size) n a.1)) |>.map fun p =>
      (a.2 + p.1, p.2)
  (distinct (all.map (·.1))).foldl (fun s o =>
    let vs := (all.filter fun e => decide (e.1 = o)).map (·.2)
    if vs.all fun v => decide (v = vs.headD 0) then (s.1 ++ [(o, vs.headD 0)], s.2)
    else let (v, d) := takeFree s.2; (s.1 ++ [(o, BitVec.ofNat 8 v.toNat)], d)) ([], d)

/-- SPX.ST, held behind the group's outstanding loads (03 R107; log 12). -/
def spxSt (x : At) (f : FmtM) : Dev → Option Dev :=
  issue x ((spxForm f).op 0x86 .mem) fun l d =>
    let as := (lanesOf l.run).map fun t => (t, spxOff l.g f t)
    let c := getCore d l.core
    match spxLaneFault c l.g.pos (sizeBytes f.size) as with
    | some e => some (laneFault d l e)
    | none =>
      if loadsOut d l || !committed c.spx portLanes d.nextId (as.map fun a => a.2 / 32768) then none
      else
        let (bs, d) := spxStoreBytes l.g f d as
        some (commit (bs.foldl (fun d b => spxPut d l.core b.1 b.2) d) l 1 l.g)

/-! ## SPX.FILL and SPX.COPY (R215 to R217) -/

/-- The legality of a format R group operation with operands A, B, C and no D: every other field 0
but FUNC[1:0] where `sub` allows it. -/
def groupForm (f : FmtR) (sub : Nat) (regs : List Reg) (useB useC : Bool) : Form :=
  { guard := f.guard, code := codeR f,
    legal := decide (f.func.toNat ≤ sub) && modOnly f.mod 0 && bselOk f && decide (f.d = 0) &&
      (useB || decide (f.b = 0)) && (useC || decide (f.c = 0)),
    regs := regs, words := 1 }

/-- A fault of a group operation in its operand lane, reported with an offset. -/
def groupFault (d : Dev) (l : Lead) (t code addr : Nat) : Dev :=
  issueFault d l code addr (perLane fun i => decide (i = t))

/-- The offset a range fault reports: the first range's start. -/
def firstOff (rs : List (Nat × Nat)) : Nat := (rs.map (·.1)).headD 0

/-- The form of SPX.FILL and SPX.COPY, which enter the SPX queue (R216). -/
def spxQueueForm (f : FmtR) : Form :=
  { groupForm f 0 [.x f.a.toNat 1, bReg f 1, .x f.c.toNat 1] true true with spxq := true }

/-- SPX.FILL and SPX.COPY enter the SPX queue of 8 (R216) with operands from the lowest-numbered lane
whose guard is true (03 R92). -/
def spxQueueOp (copy : Bool) (x : At) (f : FmtR) : Dev → Option Dev :=
  issue x ((spxQueueForm f).op (if copy then 0x88 else 0x87) .mem) fun l d =>
    match lanesOf l.run with
    | [] => some (commit d l 1 l.g)
    | t :: _ =>
      let a := readX l.g f.a.toNat t
      let b := BitVec.ofNat 32 (bVal l.g f 1 t)
      let e := readX l.g f.c.toNat t
      let c := getCore d l.core
      let rs := spxRanges copy a.toNat b.toNat e.toNat
      if (rs.map (·.2)).headD 0 = 0 then some (commit d l 1 l.g)
      else match rangesFault c l.g.pos portMover rs with
      | some code => some (groupFault d l t code (firstOff rs))
      | none =>
        if loadsOut d l then none
        else
          let (id, d) := takeId d
          let d := commit d l 1 l.g
          let c := getCore d l.core
          some (putCore d l.core { c with spx := { c.spx with q := c.spx.q ++
            [{ id := id, uid := l.g.uid, slot := l.slot, pos := l.g.pos, pc := l.pc, copy := copy,
               a := a, b := b, c := e }] } })

def spxFill (x : At) (f : FmtR) : Dev → Option Dev := spxQueueOp false x f
def spxCopy (x : At) (f : FmtR) : Dev → Option Dev := spxQueueOp true x f

/-- The effect of SPX.FILL (R215): byte (x mod 4) of the pattern at offset x. -/
def runFill (d : Dev) (n : Nat) (o : SpxOp) : Dev :=
  (List.range o.b.toNat).foldl (fun d i =>
    let x := o.a.toNat + i
    spxPut d n x (BitVec.ofNat 8 (bits o.c (8 * (x % 4)) 8))) d

/-- The effect of SPX.COPY (R215): every destination byte receives what its source byte held before
the copy began. The bytes stand up to the first 64-byte destination block whose source has an
uncorrectable error, blocks in ascending order (R218; log 13); the offset of that error. -/
def runCopy (d : Dev) (n : Nat) (o : SpxOp) : Option Nat × Dev :=
  let r := (List.range o.c.toNat).foldl (fun (s : List (Option Byte) × Dev) i =>
    let (v, d) := spxGet s.2 n (o.b.toNat + i)
    (s.1 ++ [v], d)) ([], d)
  match (List.range o.c.toNat).find? fun i => r.1.getD i none = none with
  | none => (none, spxPuts r.2 n o.a.toNat (r.1.map fun v => v.getD 0))
  | some i =>
    let whole := (o.a.toNat + i) / 64 * 64 - o.a.toNat
    (some (o.b.toNat + i), spxPuts r.2 n o.a.toNat ((r.1.take whole).map fun v => v.getD 0))

/-! ## SPX.WAIT and the faults a wait takes (R217, R218; 04 R144) -/

/-- The group's SPX operations issued before `id` are complete. -/
def spxDone (c : Core) (uid id : Nat) : Bool :=
  !(c.spx.q.any fun o => decide (o.uid = uid) && decide (o.id < id))

/-- The first deferred fault of a group's operations of one kind, by issue order. -/
def firstDeferred (c : Core) (uid : Nat) (spx : Bool) (id : Nat) : Option Deferred :=
  (c.mx.deferred.filter fun e => decide (e.uid = uid) && e.spx == spx && decide (e.id < id)).foldl
    (fun b e => match b with
      | none => some e
      | some x => if e.id < x.id then some e else some x) none

/-- Remove a deferred fault that a wait has taken. -/
def dropDeferred (c : Core) (e : Deferred) : Core :=
  { c with mx := { c.mx with deferred := c.mx.deferred.filter fun x => x.id != e.id } }

/-- A wait whose operations have completed takes the group's first deferred fault of its kind; its
others stay for later waits and the task's release. -/
def waitFault (d : Dev) (core slot : Nat) (g : Group) (e : Deferred) (id pc lanes : Nat) : Dev :=
  takeFault (putCore d core (dropDeferred (getCore d core) e)) core slot g.uid g.pos id e.code pc
    e.addr.toNat lanes

/-- Release the groups whose SPX.WAIT or MX.WAIT is over (R217, 04 R136, R144). `mxDone` says whether
a group's earlier MX operations are complete. -/
def releaseWait (d : Dev) (core slot : Nat) (mxDone : Core → Nat → Nat → Bool) : Dev :=
  let c := getCore d core
  match getGroup c slot with
  | none => d
  | some g =>
    let go (spx : Bool) (id : Nat) (pc : BitVec 47) (lanes : Nat) : Dev :=
      match firstDeferred c g.uid spx id with
      | some e => waitFault d core slot g e id pc.toNat lanes
      | none => putCore d core (putGroup c slot (some { g with hold := none }))
    match g.hold with
    | some (.spxWait id pc lanes) => if spxDone c g.uid id then go true id pc lanes else d
    | some (.mxWait id pc lanes) => if mxDone c g.uid id then go false id pc lanes else d
    | _ => d

/-- A group's MX and row unit operations issued before `id` are complete (04 R136). -/
def mxDone (c : Core) (uid id : Nat) : Bool :=
  !(c.mx.q.any fun o => decide (o.uid = uid) && decide (o.id < id))

/-- Release every group of a core whose wait is over. -/
def releaseWaits (d : Dev) (core : Nat) : Dev :=
  slots.foldl (fun d s => releaseWait d core s mxDone) d

/-- The issue of SPX.WAIT or MX.WAIT: the group is held while its earlier operations run; otherwise
the wait takes its fault or ends at once. -/
def waitIssue (spx : Bool) (form : Form) (x : At) : Dev → Option Dev :=
  issue x form fun l d =>
    let (id, d) := takeId d
    let lanes := laneMask l.act
    let c := getCore d l.core
    let go (h : Hold) : Dev := commit d l 1 { l.g with hold := some h }
    if spx then
      if !spxDone c l.g.uid id then some (go (.spxWait id l.pc lanes))
      else match firstDeferred c l.g.uid true id with
        | some e => some (waitFault (putLead d l l.g) l.core l.slot l.g e id l.pc.toNat lanes)
        | none => some (commit d l 1 l.g)
    else
      if !mxDone c l.g.uid id then some (go (.mxWait id l.pc lanes))
      else match firstDeferred c l.g.uid false id with
        | some e => some (waitFault (putLead d l l.g) l.core l.slot l.g e id l.pc.toNat lanes)
        | none => some (commit d l 1 l.g)

def spxWait (x : At) (f : FmtR) : Dev → Option Dev :=
  waitIssue true ({ bareForm f with holds := true }.op 0x8A .mem) x

/-! ## SPX.HANDOVER (R206, R207) -/

/-- The banks of a 16-bit mask, ascending. -/
def maskBanks (m : Nat) : List Nat := (List.range 16).filter fun b => m.testBit b

/-- The form of SPX.HANDOVER. -/
def handoverForm (f : FmtR) : Form := { groupForm f 3 [.x f.a.toNat 1] false false with holds := true }

def spxHandover (x : At) (f : FmtR) : Dev → Option Dev :=
  issue x ((handoverForm f).op 0x89 .mem) fun l d =>
    match lanesOf l.run with
    | [] => some (commit d l 1 l.g)
    | t :: _ =>
      let a := (readX l.g f.a.toNat t).toNat
      let c := getCore d l.core
      let target := f.func.toNat % 4
      if 2 ^ 16 ≤ a then some (groupFault d l t 0x0A a)
      else match banksFault c l.g.pos false c.spx.queued target (maskBanks a) with
      | some code => some (groupFault d l t code a)
      | none =>
        if loadsOut d l then none
        else
          let part := (maskBanks a).filter fun b => decide (bankField c.spx.queued b ≠ target)
          if part = [] then some (commit d l 1 l.g)
          else
            let (id, d) := takeId d
            let d := commit d l 1 { l.g with hold := some (.handover id) }
            let c := getCore d l.core
            let h : Hand := { id := id, uid := l.g.uid, slot := l.slot, target := target,
                              banks := part.map fun b => (b, bankField c.spx.queued b) }
            some (putCore d l.core { c with spx := { c.spx with
              queued := part.foldl (fun w b => setBank w b target) c.spx.queued,
              hands := c.spx.hands ++ [h] } })

/-- A bank has drained its old owner of everything issued before `id` (Table 7.3); a stream reads its lines when
it starts. -/
def drained (c : Core) (id b old : Nat) : Bool :=
  if old = portFeed then
    !(c.mx.q.any fun o => decide (o.kind = .mma) && decide (o.id < id) && !o.started && (mxBanks o).contains b)
  else if old = portLanes then true
  else if old = portMover then
    !(c.mx.q.any fun o => isMover o.kind && decide (o.id < id) && (mxBanks o).contains b) &&
    !(c.spx.q.any fun o => decide (o.id < id) && (spxBanks o).contains b)
  else !(c.ffx.q.any fun o => !o.lds && decide (o.id < id))

/-- BANK_OWNER_CHANGE: bank `bank` of handover `hand` has drained and its committed owner changes; the
last change completes the handover and releases its group (R206, R207, 04 R135). -/
def bankOwnerChange (core : BitVec 11) (hand : Nat) (bank : BitVec 4) (d : Dev) : Option Dev :=
  let n := core.toNat
  let b := bank.toNat
  let c := getCore d n
  match c.spx.hands.find? fun h => decide (h.id = hand) with
  | none => none
  | some h =>
    match h.banks.find? fun e => decide (e.1 = b) with
    | none => none
    | some e =>
      let earlier := c.spx.hands.any fun k => decide (k.id < hand) && k.banks.any fun p => decide (p.1 = b)
      if coreUp d n && !earlier && drained c hand b e.2 then
        let left := h.banks.filter fun p => p.1 != b
        let s := { c.spx with owner := setBank c.spx.owner b h.target }
        if left = [] then
          let c := { c with spx := { s with hands := s.hands.filter fun k => k.id != hand } }
          some (putCore d n (match getGroup c h.slot with
            | some g => if g.uid = h.uid ∧ g.hold = some (.handover hand) then
                putGroup c h.slot (some { g with hold := none }) else c
            | none => c))
        else
          some (putCore d n { c with spx := { s with
            hands := s.hands.map fun k => if k.id = hand then { k with banks := left } else k } })
      else none

/-! ## Bank states (R209 to R214) -/

/-- The contents and check bits of a bank leave it, or are initialised to zero. -/
def clearBank (d : Dev) (n b : Nat) : Dev :=
  let d := { d with errs := d.errs.filter fun e =>
    !(decide (e.mem = 0x05) && decide (e.unit = n) && decide (e.index / 32768 = b)) }
  let c := getCore d n
  putCore d n { c with spx := { c.spx with bytes := c.spx.bytes.filter fun e => e.1 / 32768 != b } }

/-- Give a bank a state. -/
def setBankState (d : Dev) (n b v : Nat) : Dev :=
  let c := getCore d n
  putCore d n { c with spx := { c.spx with bstate := setBank c.spx.bstate b v } }

/-- Give a bank a retain tag. -/
def setTag (d : Dev) (n b : Nat) (v : Word) : Dev :=
  let c := getCore d n
  putCore d n { c with spx := { c.spx with tags := mapPut 0 c.spx.tags b v } }

/-- A bank turns OFF: its contents are lost and its tag is 0 (R208, Table 7.13). -/
def bankTurnOff (d : Dev) (n b : Nat) : Dev := setTag (setBankState (clearBank d n b) n b bankOff) n b 0

/-- A bank starts to wake, with its contents when `keep`, else to be initialised (R212). -/
def wakeBank (d : Dev) (n b : Nat) (keep : Bool) : Dev :=
  let d := setTag (setBankState d n b bankWaking) n b 0
  let c := getCore d n
  putCore d n { c with spx := { c.spx with initing := setBits c.spx.initing b 1 (b2n (!keep)) } }

/-- The owners that a declaration gives its banks, in a word of owners. -/
def declOwners (w : Word) (t : Task) : Word :=
  (maskBanks t.banks.toNat).foldl (fun w b => setBank w b (bankField t.owner b)) w

/-- When every bank of a task that has not started is ON, its OWNER is written and it may admit its
first group (R212). -/
def startWhenOn (d : Dev) (n : Nat) (pos : Bool) : Dev :=
  let c := getCore d n
  match getTask c pos with
  | some t =>
    if !t.started && (maskBanks t.banks.toNat).all (isOn c.spx) then
      putCore d n (putTask { c with spx := { c.spx with
        owner := declOwners c.spx.owner t, queued := declOwners c.spx.queued t } } pos
        (some { t with started := true }))
    else d
  | none => d

/-- BANK_WAKE_COMPLETE: a bank in WAKING reaches ON, with its contents or initialised to zero with
valid check bits (R209). -/
def bankWakeComplete (core : BitVec 11) (bank : BitVec 4) (d : Dev) : Option Dev :=
  let n := core.toNat
  let b := bank.toNat
  let c := getCore d n
  if coreUp d n && decide (bankState c.spx b = bankWaking) then
    let d := if bit c.spx.initing b then clearBank d n b else d
    let d := setBankState d n b bankOn
    some (startWhenOn (startWhenOn d n false) n true)
  else none

/-- SPX_BANK_STATE_WRITE: a 0 written to the field of a RETAIN bank outside every resident bank set
turns it OFF; everything else is ignored (R214). The window of a fenced core ignores writes (02
R67). -/
def spxBankStateWrite (core : BitVec 11) (v : D64) (d : Dev) : Dev :=
  let n := core.toNat
  let c := getCore d n
  if coreFenced d n then d
  else (List.range 16).foldl (fun d b =>
    if bits v (2 * b) 2 = 0 ∧ bankState c.spx b = bankRetain ∧ inAnySet c b = false then bankTurnOff d n b
    else d) d

/-! ## The scratchpad window (R219, R220) -/

/-- Status of one bank for a window access, in the numbers of 11 Table 11.7: 0 when it passes. -/
def winBank (d : Dev) (n b : Nat) : Nat :=
  let c := getCore d n
  if coreFenced d n || !isOn c.spx b || !inAnySet c b then 7
  else if bankField c.spx.queued b ≠ portMover ∨ bankField c.spx.owner b ≠ portMover then 6 else 0

/-- The parts of a range bank by bank: bank, start and length. -/
def winParts (off len : Nat) : List (Nat × Nat × Nat) :=
  (banksIn (off, len)).map fun b =>
    (b, max off (32768 * b), min (off + len) (32768 * (b + 1)) - max off (32768 * b))

/-- The status of the lowest-addressed failing bank. -/
def winStatus (d : Dev) (n off len : Nat) : Nat :=
  ((winParts off len).map fun p => winBank d n p.1).find? (fun s => s != 0) |>.getD 0

/-- A window write: each bank that passes is written, each that fails is not (R219). -/
def winWrite (d : Dev) (n off : Nat) (data : List Byte) : Nat × Dev :=
  (winStatus d n off data.length, (winParts off data.length).foldl (fun e p =>
    if winBank d n p.1 = 0 then spxPuts e n p.2.1 ((data.drop (p.2.1 - off)).take p.2.2) else e) d)

/-- A window read: the status of the lowest-addressed failing bank, an uncorrectable error of a byte it reads
among the failures, and no data unless every bank passes (R219). -/
def winRead (d : Dev) (n off len : Nat) : (Nat × List Byte) × Dev :=
  (winParts off len).foldl (fun s p =>
    let st := winBank s.2 n p.1
    if s.1.1 ≠ 0 then s
    else if st ≠ 0 then ((st, []), s.2)
    else match spxGets s.2 n p.2.1 p.2.2 with
      | (some l, d) => ((0, s.1.2 ++ l), d)
      | (none, d) => ((5, []), d)) ((0, []), d)

/-- SPX_WINDOW_ACCESS: a copy engine, fabric or host access; `Dev.win` holds its status and the bytes
a read returned. -/
def spxWindowAccess (core : BitVec 11) (acc : WinAccess) (d : Dev) : Option Dev :=
  let n := core.toNat
  let len := if acc.write then acc.data.length else acc.len
  if 0x80000 < acc.off.toNat + len then none
  else if acc.write then
    let (s, d) := winWrite d n acc.off.toNat acc.data
    some { d with win := (s, []) }
  else
    let (r, d) := winRead d n acc.off.toNat len
    some { d with win := r }

/-! ## The commands of this family -/

/-- SPX_LD (07 R202). -/
def execSpxLd (x : At) (f : FmtM) (s : State) : Host.Outcome State Fault Refusal := gated s "SPX_LD" (spxLd x f s.dev)
/-- SPX_ST (07 R202). -/
def execSpxSt (x : At) (f : FmtM) (s : State) : Host.Outcome State Fault Refusal := gated s "SPX_ST" (spxSt x f s.dev)
/-- SPX_FILL (07 R215). -/
def execSpxFill (x : At) (f : FmtR) (s : State) : Host.Outcome State Fault Refusal :=
  gated s "SPX_FILL" (spxFill x f s.dev)
/-- SPX_COPY (07 R215). -/
def execSpxCopy (x : At) (f : FmtR) (s : State) : Host.Outcome State Fault Refusal :=
  gated s "SPX_COPY" (spxCopy x f s.dev)
/-- SPX_HANDOVER (07 R206). -/
def execSpxHandover (x : At) (f : FmtR) (s : State) : Host.Outcome State Fault Refusal :=
  gated s "SPX_HANDOVER" (spxHandover x f s.dev)
/-- SPX_WAIT (07 R217). -/
def execSpxWait (x : At) (f : FmtR) (s : State) : Host.Outcome State Fault Refusal :=
  gated s "SPX_WAIT" (spxWait x f s.dev)
/-- BANK_OWNER_CHANGE (07 R206). -/
def execBankOwnerChange (core : BitVec 11) (hand : Nat) (bank : BitVec 4) (s : State) : Host.Outcome State Fault Refusal :=
  gated s "BANK_OWNER_CHANGE" (bankOwnerChange core hand bank s.dev)
/-- BANK_WAKE_COMPLETE (07 R209). -/
def execBankWakeComplete (core : BitVec 11) (bank : BitVec 4) (s : State) : Host.Outcome State Fault Refusal :=
  gated s "BANK_WAKE_COMPLETE" (bankWakeComplete core bank s.dev)
/-- SPX_BANK_STATE_WRITE (07 R214). -/
def execSpxBankStateWrite (core : BitVec 11) (v : BitVec 64) (s : State) : Host.Outcome State Fault Refusal :=
  ok s (spxBankStateWrite core v s.dev)
/-- SPX_WINDOW_ACCESS (07 R219). -/
def execSpxWindowAccess (core : BitVec 11) (acc : WinAccess) (s : State) : Host.Outcome State Fault Refusal :=
  gated s "SPX_WINDOW_ACCESS" (spxWindowAccess core acc s.dev)
/-- SPX_CORRECTION_WRITEBACK (07 R222). -/
def execSpxCorrectionWriteback (core : BitVec 11) (off : BitVec 19) (s : State) : Host.Outcome State Fault Refusal :=
  gated s "SPX_CORRECTION_WRITEBACK" (spxCorrectionWriteback core off s.dev)

end Sys2Proof.Machine
end

