-- ==== Sys2Proof/Machine/Matrix.lean ====
section
/-! DEFINITION. The matrix arrays (04): issue of the MX instructions against queued state, the MX
queue and its conflicts, and the effects of its operations. An operation's effect takes place at the
event that starts it; its completion event ends the waits for it (log 14). -/

namespace Sys2Proof.Machine

/-! ## Tiles, banks and sets -/

/-- Tile `t` of array `a` (R110). -/
def tileIx (a t : Nat) : Nat := 4 * a + t
def getTile (m : Mx) (i : Nat) : Tile := mapGet emptyTile m.tiles i
def putTile (m : Mx) (i : Nat) (t : Tile) : Mx := { m with tiles := mapPut emptyTile m.tiles i t }
/-- Bank `b` (0 A, 1 B) of array `a` (R112). -/
def getBank (m : Mx) (a b : Nat) : WBank := mapGet emptyBank m.banks (2 * a + b)
def putBank (m : Mx) (a b : Nat) (w : WBank) : Mx := { m with banks := mapPut emptyBank m.banks (2 * a + b) w }
def getRs (c : Core) (i : Nat) : RowSet := mapGet emptySet c.ru i
def putRs (c : Core) (i : Nat) (r : RowSet) : Core := { c with ru := mapPut emptySet c.ru i r }
def getMx (d : Dev) (n : Nat) : Mx := (getCore d n).mx
def putMx (d : Dev) (n : Nat) (m : Mx) : Dev := putCore d n { getCore d n with mx := m }

/-- 1.0 as FP32. -/
def oneF : Word := 0x3F800000

/-- Product of two FP32 words, rounded to nearest. -/
def mulF (a b : Word) : Word := toF32 (fvMul (ofF32 a) (ofF32 b))

/-- Rows of a bank of a format (R119). -/
def halfRows (f : Nat) : Nat := classRows (fmtClass f) / 2

/-- The banks that rows `row` to `row + n − 1` of a format touch. -/
def rowBanks (f row n : Nat) : List Nat :=
  (List.range 2).filter fun b => decide (row < (b + 1) * halfRows f) && decide (b * halfRows f < row + n)

/-- The format and banks of array `a` that a stream's rows lie in: VALID, of one format and one WSCALE
(R129). A row number that both banks could name in their own formats is taken in bank A (log 15). -/
def stageOf (m : Mx) (a row n : Nat) : Option (Nat × Word × List Nat) :=
  (List.range 2).findSome? fun b0 =>
    let w := getBank m a b0
    let need := rowBanks w.fmt row n
    if w.valid && need.contains b0 && decide (row + n ≤ classRows (fmtClass w.fmt)) &&
        need.all (fun b => decide (getBank m a b = w)) then some (w.fmt, w.wscale, need) else none

/-- What a stream finds in its arrays: the weight format and each array's WSCALE (R129). -/
def streamOf (m : Mx) (d : BitVec 128) : Option (Nat × List (Nat × Word)) :=
  let l := (arraysOf (mmaArrays d)).map fun a => (a, stageOf m a (mmaRow d) (mmaKlen d))
  match l.head? with
  | some (_, some (f, _, _)) =>
    if l.all (fun x => match x.2 with | some y => decide (y.1 = f) | none => false) then
      some (f, l.filterMap fun x => x.2.map fun y => (x.1, y.2.1))
    else none
  | _ => none

/-- The stream is of INT class (R117). -/
def streamInt (d : BitVec 128) (wf : Nat) : Bool := fmtInt (mmaFmt d) && fmtInt wf

/-! ## Queued state (R127) -/

/-- A tile as a stream that sets it leaves its class and output scale. -/
def startTile (int : Bool) (scale : Word) : Tile :=
  { empty := false, int := int, scale := scale, poison := false, el := List.replicate 256 0 }

/-- The tiles an operation writes: MX.MMA, MX.TZERO, and row unit writes to a tile (R134, 05 R152). -/
def writesTiles (o : MxOp) : List Nat :=
  match o.kind with
  | .mma => (arraysOf (mmaArrays o.desc)).map fun a => tileIx a (mmaTile o.desc)
  | .tzero => (List.range 16).filter fun i => o.desc.toNat.testBit (i % 4)
  | .ruMap | .ruSmax2 | .ruNorm =>
    if ruAfb o.desc then [] else (arraysOf (ruArrays o.desc)).map fun a => tileIx a (ruDst o.desc)
  | .ruRowout => ((arraysOf (ruArrays o.desc)).take 1).map fun a => tileIx a (ruDst o.desc)
  | _ => []

/-- The tiles an operation reads: MX.DRAIN and the row unit's source. -/
def readsTiles (o : MxOp) : List Nat :=
  match o.kind with
  | .drain => (arraysOf (drArrays o.desc)).map fun a => tileIx a (drTile o.desc)
  | .ruMap | .ruSmax1 | .ruSmax2 | .ruStat | .ruNorm =>
    (arraysOf (ruArrays o.desc)).map fun a => tileIx a (ruSrc o.desc)
  | _ => []

def isRu (k : MxKind) : Bool :=
  match k with
  | .ruMap | .ruSmax1 | .ruSmax2 | .ruStat | .ruNorm | .ruRowout => true
  | _ => false

/-- The operation uses row state set RSET. -/
def usesSet (k : MxKind) : Bool := isRu k && decide (k ≠ .ruMap)

/-- The operation seals a set that is not sealed: RU.SMAX2, RU.NORM, and RU.ROWOUT DERIVED (05 R161,
R165). -/
def seals (o : MxOp) : Bool :=
  match o.kind with
  | .ruSmax2 | .ruNorm => true
  | .ruRowout => decide (ruFunc o.desc = 1)
  | _ => false

/-- The arrays of a queued stream with their WSCALEs (R129). -/
def streamArrays (o : MxOp) : List (Nat × Word) := (arraysOf (mmaArrays o.desc)).zip o.factor

/-- The classes, scales, formats and modes that a queued operation will leave, without its data. -/
def opMeta (c : Core) (o : MxOp) : Core :=
  match o.kind with
  | .mma =>
    let m := (streamArrays o).foldl (fun m x =>
        let i := tileIx x.1 (mmaTile o.desc)
        if mmaClear o.desc || (getTile m i).empty then
          putTile m i (startTile (streamInt o.desc o.wfmt) (mulF (mmaScale o.desc) x.2))
        else m) c.mx
    { c with mx := m }
  | .tzero => { c with mx := (writesTiles o).foldl (fun m i => putTile m i emptyTile) c.mx }
  | .wld =>
    let w : WBank := { valid := true, fmt := wldFmt o.desc, wscale := wldScale o.desc }
    let m := (arraysOf (wldArrays o.desc)).foldl (fun m a =>
      (rowBanks (wldFmt o.desc) (wldRow o.desc) (wldRows o.desc)).foldl (fun m b => putBank m a b w) m) c.mx
    { c with mx := m }
  | .ruMap => { c with mx := (writesTiles o).foldl (fun m i => putTile m i (startTile false oneF)) c.mx }
  | .ruSmax1 =>
    let r := getRs c (ruSet o.desc)
    putRs c (ruSet o.desc) (if ruInit o.desc || decide (r.mode = .empty) then { emptySet with mode := .smax } else r)
  | .ruStat =>
    let r := getRs c (ruSet o.desc)
    putRs c (ruSet o.desc) (if ruInit o.desc || decide (r.mode = .empty) then { emptySet with mode := .stat } else r)
  | .ruSmax2 | .ruNorm | .ruRowout =>
    let r := getRs c (ruSet o.desc)
    let c := if seals o then putRs c (ruSet o.desc) { r with sealed := true } else c
    { c with mx := (writesTiles o).foldl (fun m i => putTile m i (startTile false oneF)) c.mx }
  | _ => c

/-- The state that the operations already queued will leave, for the checks at issue (R127). -/
def queuedCore (c : Core) : Core := (c.mx.q.filter fun o => !o.started).foldl opMeta c

/-! ## Checks at issue (Table 4.19) -/

/-- The task that issues was launched with USES_MX (R113). -/
def taskMx (c : Core) (pos : Bool) : Bool :=
  match getTask c pos with
  | some t => t.usesMx
  | none => false

/-- Scratchpad faults of an MX operation, for its port (Table 4.19). -/
def mxSpadFault (c : Core) (pos : Bool) (k : MxKind) (d : BitVec 128) : Option Nat :=
  rangesFault c pos (if k = .mma then portFeed else portMover) (mxRanges k d)

/-- The operand conditions of MX.MMA (Table 4.19). -/
def mmaBad (m : Mx) (d : BitVec 128) : Bool :=
  decide (0xE ≤ mmaFmt d) || decide (mmaArrays d = 0) || decide (mmaRows d = 0) || decide (mmaCols d = 0) ||
  decide (mmaKlen d = 0) || (mmaAfb d && decide (128 < mmaLine d + mmaLines d)) ||
  decide (16384 < 16 * mmaFsb d + mmaFsbLen d) ||
  match streamOf m d with
  | none => true
  | some (wf, ws) =>
    (decide (fmtBlock wf ≠ 0) && decide (mmaRow d % fmtBlock wf ≠ 0)) ||
    (streamInt d wf && (decide (mmaScale d ≠ oneF) || ws.any fun x => decide (x.2 ≠ oneF))) ||
    (!mmaClear d && ws.any fun x =>
      let t := getTile m (tileIx x.1 (mmaTile d))
      !t.empty && (t.int != streamInt d wf || decide (t.scale ≠ mulF (mmaScale d) x.2)))

/-- The operand conditions of MX.WLD. -/
def wldBad (d : BitVec 128) : Bool :=
  decide (0xE ≤ wldFmt d) || decide (wldArrays d = 0) || decide (wldRows d = 0) ||
  decide (classRows (fmtClass (wldFmt d)) < wldRow d + wldRows d) ||
  (decide (fmtBlock (wldFmt d) ≠ 0) && decide (wldRow d % fmtBlock (wldFmt d) ≠ 0))

/-- The operand conditions of MX.SLD. -/
def sldBad (d : BitVec 128) : Bool :=
  decide (sldLen d = 0) || decide (sldLen d % 16 ≠ 0) || decide (16384 < sldOff d + sldLen d)

/-- The operand conditions of MX.DRAIN. -/
def drainBad (m : Mx) (d : BitVec 128) : Bool :=
  decide (drArrays d = 0) || decide (drRows d = 0) || decide (drCols d = 0) ||
  (arraysOf (drArrays d)).any fun a =>
    let t := getTile m (tileIx a (drTile d))
    t.empty || (!t.int && decide (5 ≤ drFmt d))

/-- Reserved descriptor fields are 0 and OFMT is defined (R127, Table 4.19). -/
def mxFields (k : MxKind) (d : BitVec 128) : Bool :=
  match k with
  | .mma => decide (bits d 61 3 = 0)
  | .wld => decide (bits d 92 4 = 0) && decide (bits d 39 19 = 0)
  | .sld => decide (bits d 74 54 = 0) && decide (bits d 49 9 = 0)
  | .drain => decide (bits d 76 4 = 0) && decide (bits d 59 7 = 0) && decide (bits d 39 19 = 0) &&
      decide (drFmt d ≤ 6)
  | _ => true

/-- The device address ranges of an MX operation. -/
def mxDevRanges (k : MxKind) (d : BitVec 128) : List (Nat × Nat) :=
  match k with
  | .wld => if ldSpad d then [] else
      (arraysOf (wldArrays d)).map fun a => (ldSrc d + a * wldPitch d, wldImage d)
  | .sld => if ldSpad d then [] else [(ldSrc d, sldLen d)]
  | .drain => if drSpad d then [] else drSpans d
  | _ => []

/-- SRC, DST or STRIDE misaligned (Tables 4.13 to 4.15). -/
def mxMisaligned (k : MxKind) (d : BitVec 128) : Bool :=
  match k with
  | .wld => decide (ldSrc d % 64 ≠ 0)
  | .sld => decide (ldSrc d % 16 ≠ 0)
  | .drain => decide (drDst d % 16 ≠ 0) || decide (drStride d % 16 ≠ 0)
  | _ => false

/-- The first fault of Table 4.19 of a matrix operation with its reported address, in the order of 03 Table 3.18. -/
def mxFault (c : Core) (pos : Bool) (pc : Nat) (k : MxKind) (d : BitVec 128) : Option (Nat × Nat) :=
  let q := queuedCore c
  if !mxFields k d then some (0x03, pc)
  else if (mxDevRanges k d).any fun r => decide (2 ^ 39 < r.1 + r.2) then
    some (0x05, firstOff (mxDevRanges k d))
  else if mxMisaligned k d then some (0x06, if k = .drain then drDst d else ldSrc d)
  else match mxSpadFault c pos k d with
  | some code => some (code, firstOff (mxRanges k d))
  | none =>
    let bad := match k with
      | .mma => mmaBad q.mx d
      | .wld => wldBad d
      | .sld => sldBad d
      | .drain => drainBad q.mx d
      | _ => false
    if bad then some (0x0D, pc) else none

/-- The form of a descriptor instruction: only A, a uniform quad, is used (R127). -/
def descForm (f : FmtR) : Form :=
  { guard := f.guard, code := codeR f,
    legal := unguarded f.guard && decide (f.d = 0) && decide (f.b = 0) && decide (f.c = 0) &&
      decide (f.bsel = 0) && decide (f.func = 0) && decide (f.mod = 0) && uField f.a,
    regs := [.u f.a.toNat 4], words := 1 }

/-- OP of an operation of the MX queue (Table 4.11, 05 Table 5.1). -/
def mxOp : MxKind → Nat
  | .wld => 0xA0
  | .sld => 0xA1
  | .mma => 0xA2
  | .drain => 0xA3
  | .tzero => 0xA4
  | .ruMap => 0xA8
  | .ruSmax1 => 0xA9
  | .ruSmax2 => 0xAA
  | .ruStat => 0xAB
  | .ruNorm => 0xAC
  | .ruRowout => 0xAD

/-- The form of an instruction of the MX queue, whose task was launched with USES_MX (R113). -/
def queueForm (k : MxKind) (form : Form) : Form := { form with needMx := true }.op (mxOp k) .mx

/-- The next operation of the MX queue (R134). -/
def enqueue (d : Dev) (l : Lead) (k : MxKind) (desc : BitVec 128) (w : Nat × List Word) : Dev :=
  let (id, d) := takeId d
  let m := getMx d l.core
  let o : MxOp := { id := id, uid := l.g.uid, slot := l.slot, pos := l.g.pos, pc := l.pc, kind := k,
                    desc := desc, started := false, wfmt := w.1, factor := w.2 }
  putMx d l.core { m with q := m.q ++ [o] }

/-- An MX instruction that enters the queue: once per issue whatever the active set (R127). `fault` is
its check and `keep` what it fixes at issue. A group operation waits for the group's outstanding
loads (03 R107; log 12). -/
def mxIssue (k : MxKind) (form : Form) (x : At) (desc : Group → BitVec 128)
    (fault : Core → Bool → Nat → BitVec 128 → Option (Nat × Nat)) (keep : Core → BitVec 128 → Nat × List Word) :
    Dev → Option Dev :=
  issue x (queueForm k form) fun l d =>
    let c := getCore d l.core
    match fault c l.g.pos l.pc.toNat (desc l.g) with
    | some e => some (issueFault d l e.1 e.2 l.act)
    | none =>
      if loadsOut d l then none
      else some (enqueue (commit d l 1 l.g) l k (desc l.g) (keep c (desc l.g)))

/-- MX.WLD, MX.SLD, MX.MMA and MX.DRAIN. -/
def mxDesc (k : MxKind) (x : At) (f : FmtR) : Dev → Option Dev :=
  mxIssue k (descForm f) x (fun g => readUQuad g f.a.toNat) (fun c p pc d => mxFault c p pc k d) fun c d =>
    if k = .mma then match streamOf (queuedCore c).mx d with
      | some (wf, ws) => (wf, ws.map (·.2))
      | none => (0, [])
    else (0, [])

/-! ## Conflicts (R134, 05 R152) -/

def shares (a b : List Nat) : Bool := a.any fun x => b.contains x

/-- The stage banks a stream reads or a load writes, as 2a + b. -/
def stageUse (o : MxOp) : List Nat :=
  match o.kind with
  | .mma => (arraysOf (mmaArrays o.desc)).flatMap fun a =>
      (rowBanks o.wfmt (mmaRow o.desc) (mmaKlen o.desc)).map fun b => 2 * a + b
  | .wld => (arraysOf (wldArrays o.desc)).flatMap fun a =>
      (rowBanks (wldFmt o.desc) (wldRow o.desc) (wldRows o.desc)).map fun b => 2 * a + b
  | _ => []

/-- The FSB range a stream reads or a load writes. -/
def fsbUse (o : MxOp) : Nat × Nat :=
  match o.kind with
  | .mma => (16 * mmaFsb o.desc, mmaFsbLen o.desc)
  | .sld => (sldOff o.desc, sldLen o.desc)
  | _ => (0, 0)

/-- The AFB lines a stream reads or the row unit writes. -/
def afbUse (o : MxOp) : Nat × Nat :=
  match o.kind with
  | .mma => if mmaAfb o.desc then (mmaLine o.desc, mmaLines o.desc) else (0, 0)
  | .ruMap | .ruSmax2 | .ruNorm => if ruAfb o.desc then (ruLine o.desc, ruLines o.desc) else (0, 0)
  | _ => (0, 0)

/-- Two ranges meet. -/
def meets (a b : Nat × Nat) : Bool := decide (0 < a.2) && decide (0 < b.2) && overlaps a.1 a.2 b.1 b.2

/-- Whether `o` waits for the earlier queued operation `e`. -/
def waitsFor (c : Core) (e o : MxOp) : Bool :=
  -- each resource takes its operations in queue order
  (decide (e.kind = .mma) && decide (o.kind = .mma) && !e.started) ||
  (isRu e.kind && isRu o.kind && !e.started) ||
  -- readers finish reading before a writer starts; a reader waits until a writer has completed
  (shares (writesTiles o) (readsTiles e) && !e.started) ||
  (shares (readsTiles o) (writesTiles e)) ||
  (shares (writesTiles o) (writesTiles e) && !(decide (e.kind = .mma) && decide (o.kind = .mma))) ||
  (decide (o.kind = .tzero) && shares (writesTiles o) (readsTiles e)) ||
  -- stages and the FSB
  (decide (o.kind = .mma) && decide (e.kind = .wld) && shares (stageUse o) (stageUse e)) ||
  (decide (o.kind = .wld) && decide (e.kind = .mma) && shares (stageUse o) (stageUse e)) ||
  (decide (o.kind = .mma) && decide (e.kind = .sld) && meets (fsbUse o) (fsbUse e)) ||
  (decide (o.kind = .sld) && decide (e.kind = .mma) && meets (fsbUse o) (fsbUse e)) ||
  -- the AFB
  (decide (o.kind = .mma) && isRu e.kind && meets (afbUse o) (afbUse e)) ||
  (isRu o.kind && decide (e.kind = .mma) && meets (afbUse o) (afbUse e) && !e.started) ||
  -- a seal waits for the set's updates to complete
  (seals o && !(getRs c (ruSet o.desc)).sealed && usesSet e.kind && decide (ruSet e.desc = ruSet o.desc))

/-- A queued operation may start: nothing earlier in the queue makes it wait. -/
def mayStart (c : Core) (o : MxOp) : Bool :=
  !o.started && c.mx.q.all fun e => decide (o.id ≤ e.id) || !waitsFor c e o

/-- Remove an operation from the queue. -/
def dequeue (d : Dev) (n id : Nat) : Dev :=
  let m := getMx d n
  putMx d n { m with q := m.q.filter fun o => o.id != id }

/-- Mark an operation started. -/
def markStarted (d : Dev) (n id : Nat) : Dev :=
  let m := getMx d n
  putMx d n { m with q := m.q.map fun o => if o.id = id then { o with started := true } else o }

/-- MX.TZERO operations whose waits have ended return their tiles to empty, in queue order. -/
def settleTzero (d : Dev) (n : Nat) : Dev :=
  ((getMx d n).q.filter fun o => decide (o.kind = .tzero)).foldl (fun d o =>
    if mayStart (getCore d n) o then
      let m := getMx d n
      dequeue (putMx d n ((writesTiles o).foldl (fun m i => putTile m i emptyTile) m)) n o.id
    else d) d

/-- What follows from an operation's completion: MX.TZERO operations apply and waits end. -/
def settleMx (d : Dev) (n : Nat) : Dev := releaseWaits (settleTzero d n) n

/-- A fault of a queued operation, left for its group's next wait or the task's release (R144). -/
def deferFault (d : Dev) (n : Nat) (id uid slot : Nat) (pos spx : Bool) (code addr : Nat) : Dev :=
  let m := getMx d n
  putMx d n { m with deferred := m.deferred ++
    [{ id := id, uid := uid, slot := slot, pos := pos, spx := spx, code := code, addr := BitVec.ofNat 64 addr }] }

def deferMx (d : Dev) (n : Nat) (o : MxOp) (code addr : Nat) : Dev :=
  deferFault d n o.id o.uid o.slot o.pos false code addr

/-- The fault of a failing access status of 11 Table 11.7 (R144). -/
def statusFault (s : Nat) : Nat :=
  if s = 2 then 0x07 else if s = 3 then 0x08 else if s = 4 then 0x09 else if s = 5 then 0x11 else 0x12

/-! ## Stage, FSB and AFB bytes (R112, R113, R130) -/

/-- Word indexes of the check codes of memory 0x06 in one core: stage words, scale store words, FSB
words and AFB words of 8 bytes. -/
def stageWord (kind i : Nat) : Nat := kind * 2 ^ 16 + i / 8

/-- The bytes of a kind: 0 stages (32768 a + i), 1 scale stores (4096 a + i), 2 FSB, 3 AFB. -/
def stageMap (m : Mx) (kind : Nat) : SMap (Option Byte) :=
  match kind with
  | 0 => m.stage
  | 1 => m.scales
  | 2 => m.fsb
  | _ => m.afb
def putStageMap (m : Mx) (kind : Nat) (s : SMap (Option Byte)) : Mx :=
  match kind with
  | 0 => { m with stage := s }
  | 1 => { m with scales := s }
  | 2 => { m with fsb := s }
  | _ => { m with afb := s }

/-- Write bytes; the words' check bits become valid (R144, 15 R459). -/
def stagePuts (d : Dev) (n kind i : Nat) (vs : List Byte) : Dev :=
  if vs = [] then d
  else
    let d := { d with errs := d.errs.filter fun e =>
      !(decide (e.mem = 0x06) && decide (e.unit = n) && decide (stageWord kind i ≤ e.index) &&
        decide (e.index ≤ stageWord kind (i + vs.length - 1))) }
    let d := writeWord d 3 0x06 n (stageWord kind i)
    let m := getMx d n
    putMx d n (putStageMap m kind (((List.range vs.length).zip vs).foldl
      (fun s x => mapPut none s (i + x.1) (some x.2)) (stageMap m kind)))

/-- Read bytes: an undefined byte is a free value; `none` when a word has an uncorrectable error
(R144). -/
def stageGets (d : Dev) (n kind i len : Nat) : Option (List Byte) × Dev :=
  let m := getMx d n
  let vs := (List.range len).map fun j =>
    (mapGet none (stageMap m kind) (i + j)).getD (Config.undefByte kind m.epoch (i + j))
  if len = 0 then (some [], d)
  else
    let ms := d.errs.filter fun e => decide (e.mem = 0x06) && decide (e.unit = n) &&
      decide (stageWord kind i ≤ e.index) && decide (e.index ≤ stageWord kind (i + len - 1))
    let d := ms.foldl (fun d e => memRecord d (src 0 n) (if e.dbl then 2 else 1) 0x06 n (e.index / 4096)
      (e.index % 4096) 0 e.inj) d
    (if ms.any fun e => e.dbl then none else some vs, d)

/-- Bytes of a range become undefined: they leave the map and the epoch moves on. -/
def stageLose (m : Mx) (kind lo hi : Nat) : Mx :=
  { putStageMap m kind ((stageMap m kind).filter fun e => e.1 < lo || hi ≤ e.1) with epoch := m.epoch + 1 }

/-! ## The stream of MX.MMA (R118 to R124) -/

/-- The value of an element of a format code from its bits (Table 4.1, R114, R115). -/
def elemVal (f v : Nat) : FV :=
  match f with
  | 0 => fvOfInt (signed 4 v)
  | 1 => if v % 8 = 0 then .fin (v.testBit 3) 0 0 else .fin (v.testBit 3) 1 ((v % 8 : Nat) - 4)
  | 2 => decodeF e2m1 v
  | 3 => fvOfInt (signed 8 v)
  | 4 => ofInt (signed 8 v) (-6) false
  | 5 => decodeF e2m3 (v % 64)
  | 6 => decodeF e3m2 (v % 64)
  | 7 | 9 => decodeF e4m3 v
  | 8 | 10 => decodeF e5m2 v
  | 11 => decodeF fp16 v
  | 12 => decodeF bf16 v
  | _ => decodeF fp32 v

/-- The value of a block scale of a format code (R115): U4M4 for PK4, E8M0 for the MX formats. -/
def scaleVal (f : Nat) (b : Byte) : FV :=
  if f = 1 then
    if b = 0xFF then .nan
    else if bits b 4 4 = 0 then .fin false (bits b 0 4) (-10)
    else .fin false (16 + bits b 0 4) ((bits b 4 4 : Nat) - 11)
  else if b = 0xFF then .nan else .fin false 1 ((b.toNat : Nat) - 127)

/-- Activation element `k` of row `r` from the stream's line bytes (R118). -/
def actElem (f : Nat) (lines : List Byte) (r k : Nat) : FV :=
  let e := classRank (fmtClass f)
  let b := classBits (fmtClass f)
  let w := bytesNat ((lines.drop (64 * (k / e) + 4 * r)).take 4)
  elemVal f (w / 2 ^ (b * (k % e)) % 2 ^ b)

/-- Weight element of stage row offset `k` and column `c` from the panel's row bytes (R119). -/
def wgtElem (f : Nat) (rows : List Byte) (k c : Nat) : FV :=
  let b := classBits (fmtClass f)
  let p := k * rowBytes f * 8 + c * b
  elemVal f (bytesNat ((rows.drop (p / 8)).take (ceilDiv b 8)) / 2 ^ (p % 8) % 2 ^ b)

/-- Byte of the weight scale store for stage row `row` and column `c` (R119). -/
def scalePos (f row c : Nat) : Nat :=
  let b := row / halfRows f
  2048 * b + 16 * ((row - b * halfRows f) / fmtBlock f) + c

/-- One update of an FP class element by a slice (R121). -/
def fpSlice (acc : Word) (sa sw : FV) (prods : List FV) : Word :=
  ftz (toF32 (fvAdd (ofF32 acc) (fvMul (fvMul sa sw) (fvSum prods))))

/-- A finite integer datum as an integer; INT4 and INT8 elements are integers. -/
def fvInt : FV → Int
  | .fin n m e => if 0 ≤ e then sval n m * 2 ^ e.toNat else 0
  | _ => 0

/-- One update of an INT class element by a slice (R123). -/
def intSlice (sat : Bool) (acc : Word) (prods : List FV) : Word :=
  BitVec.ofNat 32 (finish 1 sat (signed 32 acc.toNat + (prods.map fvInt).sum))

/-- Element j of a tile lies in a row and a column that the masks name. -/
def inMasks (rows cols : Nat) (j : Nat) : Bool := rows.testBit (j % 256 / 16) && cols.testBit (j % 16)

/-- Read elements of a tile: an uncorrectable error among them poisons it (R144, 15 Table 15.4 code 0x07). -/
def checkTile (n i rows cols : Nat) (d : Dev) : Dev :=
  let r := readMarks d n 0x07 (256 * i) (256 * i + 256) (inMasks rows cols) fun x => (x / 256, x % 256 / 16)
  if r.1 then putMx r.2 n (putTile (getMx r.2 n) i { getTile (getMx r.2 n) i with poison := true }) else r.2

/-- Write elements of a tile: their check bits become valid. -/
def wroteTile (n i rows cols : Nat) (d : Dev) : Dev := dropMarks d 0x07 n (256 * i) (256 * i + 256) (inMasks rows cols)

/-- What a stream reads for one array: the activation lines and scales, and the array's rows and its scales,
16 bytes for each block of the stream in ascending order. -/
structure Panel where
  lines  : List Byte
  fsb    : List Byte
  rows   : List Byte
  scales : List Byte

/-- Element (r, c) of an array's target tile after the stream: the left fold over the slices in
ascending K order (R121, R123, R138). -/
def streamElem (d : BitVec 128) (wf : Nat) (p : Panel) (r c : Nat) (acc : Word) : Word :=
  let af := mmaFmt d
  let k := classRank (max (fmtClass af) (fmtClass wf))
  (List.range (ceilDiv (mmaKlen d) k)).foldl (fun acc s =>
    let ks := (List.range k).map (fun i => k * s + i) |>.filter fun i => decide (i < mmaKlen d)
    let prods := ks.map fun i => fvMul (actElem af p.lines r i) (wgtElem wf p.rows i c)
    if streamInt d wf then intSlice (mmaSat d) acc prods
    else
      let one := FV.fin false 1 0
      let sa := if fmtBlock af = 0 then one else scaleVal af (p.fsb.getD (16 * (k * s / fmtBlock af) + r) 0)
      let sw := if fmtBlock wf = 0 then one
        else scaleVal wf (p.scales.getD (16 * (k * s / fmtBlock wf) + c) 0)
      fpSlice acc sa sw prods) acc

/-- Start of a stream in one target tile: CLEAR, or an empty tile, sets it (R113, R124, Table 4.12). -/
def openTile (d : BitVec 128) (wf : Nat) (ws : Word) (t : Tile) : Tile :=
  if mmaClear d || t.empty then startTile (streamInt d wf) (mulF (mmaScale d) ws) else t

/-- Read in turn: the bytes of every piece, or `none` when any of them has an uncorrectable error. -/
def stageSeq (d : Dev) (n kind : Nat) (is : List Nat) (len : Nat) : Option (List Byte) × Dev :=
  is.foldl (fun s i =>
    let (r, d) := stageGets s.2 n kind i len
    (match s.1, r with
     | some a, some b => some (a ++ b)
     | _, _ => none, d)) (some [], d)

/-- The blocks of weight scales that a stream reads in an array's scale store (R119, R121). -/
def scaleReads (desc : BitVec 128) (wf a : Nat) : List Nat :=
  if fmtBlock wf = 0 then []
  else (List.range (ceilDiv (mmaKlen desc) (fmtBlock wf))).map fun j =>
    4096 * a + scalePos wf (mmaRow desc + j * fmtBlock wf) 0

/-- What a stream reads of one array's stage and scale store. -/
def arrayReads (d : Dev) (n : Nat) (desc : BitVec 128) (wf a : Nat) : Option (List Byte × List Byte) × Dev :=
  let (rows, d) := stageGets d n 0 (32768 * a + mmaRow desc * rowBytes wf) (mmaKlen desc * rowBytes wf)
  let (scales, d) := stageSeq d n 1 (scaleReads desc wf a) 16
  (match rows, scales with
   | some r, some s => some (r, s)
   | _, _ => none, d)

/-- A tile after the stream of its array (R121, R138). -/
def streamTile (desc : BitVec 128) (wf : Nat) (x : Nat × Word) (p : Panel) (t : Tile) : Tile :=
  { t with el := (List.range 256).map fun j =>
      if (mmaRows desc).testBit (j / 16) && (colsOf (mmaArrays desc) (mmaCols desc) x.1).testBit (j % 16) then
        streamElem desc wf p (j / 16) (j % 16) (t.el.getD j 0)
      else t.el.getD j 0 }

/-- The stream of one array into its tile; `none` reads poison it (R144 item 2). -/
def streamArray (n : Nat) (desc : BitVec 128) (wf : Nat) (x : Nat × Word) (p : Option Panel) (d : Dev) : Dev :=
  let i := tileIx x.1 (mmaTile desc)
  let cols := colsOf (mmaArrays desc) (mmaCols desc) x.1
  let fresh := mmaClear desc || (getTile (getMx d n) i).empty
  let d := if fresh then d else checkTile n i (mmaRows desc) cols d
  let d := if fresh then wroteTile n i 0xFFFF 0xFFFF d else wroteTile n i (mmaRows desc) cols d
  let m := getMx d n
  let t := openTile desc wf x.2 (getTile m i)
  putMx d n (putTile m i (match p with
    | some p => streamTile desc wf x p t
    | none => { t with poison := true }))

/-- The whole stream of an MX.MMA: an uncorrectable error anywhere in what it reads poisons every target tile
(R144 item 2). A stage bank that a failed load left not VALID since the issue is
streamed in the format it was to be loaded in; the rows that load did not write are undefined (R130,
R144). -/
def runMma (d : Dev) (n : Nat) (o : MxOp) : Dev :=
  let desc := o.desc
  let (lines, d) := if mmaAfb desc then stageGets d n 3 (64 * mmaLine desc) (64 * mmaLines desc)
    else spxGets d n (64 * mmaLine desc) (64 * mmaLines desc)
  let (fsb, d) := stageGets d n 2 (16 * mmaFsb desc) (mmaFsbLen desc)
  let (rs, d) := (streamArrays o).foldl (fun s x =>
    let (r, d) := arrayReads s.2 n desc o.wfmt x.1
    (s.1 ++ [(x, r)], d)) (([] : List ((Nat × Word) × Option (List Byte × List Byte))), d)
  let good := lines.isSome && fsb.isSome && rs.all fun e => e.2.isSome
  rs.foldl (fun d e => streamArray n desc o.wfmt e.1
    (if good then e.2.map fun r => { lines := lines.getD [], fsb := fsb.getD [], rows := r.1, scales := r.2 }
     else none) d) d

/-! ## MX.WLD and MX.SLD (R130, R131, R144) -/

/-- The banks an MX.WLD writes become not VALID when it halts, and their rows undefined (R144 item 1). -/
def invalidate (m : Mx) (desc : BitVec 128) : Mx :=
  let w : WBank := { valid := false, fmt := wldFmt desc, wscale := wldScale desc }
  (arraysOf (wldArrays desc)).foldl (fun m a =>
    (rowBanks (wldFmt desc) (wldRow desc) (wldRows desc)).foldl (fun m b =>
      stageLose (putBank m a b w) 0 (32768 * a + 16384 * b) (32768 * a + 16384 * (b + 1))) m) m

/-- Read a load's source: the bytes, or a status. -/
def loadBytes (d : Dev) (n : Nat) (spad : Bool) (a len : Nat) : (Nat × List Byte) × Dev :=
  if spad then
    match spxGets d n a len with
    | (some l, d) => ((0, l), d)
    | (none, d) => ((5, []), d)
  else readCoreMem d n 2 a len

/-- Place one array's panel image (R119, R130). -/
def placePanel (d : Dev) (n : Nat) (desc : BitVec 128) (a : Nat) (img : List Byte) : Dev :=
  let f := wldFmt desc
  let bs := rowBanks f (wldRow desc) (wldRows desc)
  let m := bs.foldl (fun m b =>
    if wldRow desc ≤ b * halfRows f ∧ (b + 1) * halfRows f ≤ wldRow desc + wldRows desc then m
    else stageLose m 0 (32768 * a + 16384 * b) (32768 * a + 16384 * (b + 1))) (getMx d n)
  let d := putMx d n m
  let len := wldRows desc * rowBytes f
  let d := stagePuts d n 0 (32768 * a + wldRow desc * rowBytes f) (img.take len)
  let d := if fmtBlock f = 0 then d else
    (List.range (ceilDiv (wldRows desc) (fmtBlock f))).foldl (fun d j =>
      stagePuts d n 1 (4096 * a + scalePos f (wldRow desc + j * fmtBlock f) 0)
        ((img.drop (len + 16 * j)).take 16)) d
  putMx d n (bs.foldl (fun m b => putBank m a b { valid := true, fmt := f, wscale := wldScale desc }) (getMx d n))

/-- The whole load of an MX.WLD; a failing read halts it. -/
def runWld (d : Dev) (n : Nat) (o : MxOp) : Dev :=
  (arraysOf (wldArrays o.desc)).foldl (fun (s : Bool × Dev) a =>
    if s.1 then s
    else
      let (r, d) := loadBytes s.2 n (ldSpad o.desc) (ldSrc o.desc + a * wldPitch o.desc) (wldImage o.desc)
      if r.1 = 0 then (false, placePanel d n o.desc a r.2)
      else (true, deferMx (putMx d n (invalidate (getMx d n) o.desc)) n o (statusFault r.1)
        (ldSrc o.desc + a * wldPitch o.desc))) (false, d) |>.2

def runSld (d : Dev) (n : Nat) (o : MxOp) : Dev :=
  let (r, d) := loadBytes d n (ldSpad o.desc) (ldSrc o.desc) (sldLen o.desc)
  if r.1 = 0 then stagePuts d n 2 (sldOff o.desc) r.2
  else deferMx (putMx d n (stageLose (getMx d n) 2 (sldOff o.desc) (sldOff o.desc + sldLen o.desc))) n o
    (statusFault r.1) (ldSrc o.desc)

/-! ## MX.DRAIN (R132, R133) -/

/-- An element of an FP class tile converted to OFMT (R133). -/
def drainFp (o : Nat) (scale : Word) (v : Word) : Nat :=
  let x := if scale = oneF then v else ftz (mulF v scale)
  match o with
  | 0 => encodeF fp32 .rn true (ofF32 x)
  | 1 => encodeF bf16 .rn true (ofF32 x)
  | 2 => encodeF fp16 .rn true (ofF32 x)
  | 3 => encodeF e4m3 .rn true (ofF32 x)
  | _ => encodeF e5m2 .rn true (ofF32 x)

/-- An element of an INT class tile converted to OFMT (R133). -/
def drainInt (o : Nat) (v : Word) : Nat :=
  let x := fvOfInt (signed 32 v.toNat)
  match o with
  | 0 => encodeF fp32 .rn true x
  | 1 => encodeF bf16 .rn true x
  | 2 => encodeF fp16 .rn true x
  | 3 => encodeF e4m3 .rn true x
  | 4 => encodeF e5m2 .rn true x
  | 5 => v.toNat
  | _ => wrap 8 (max (-128) (min 127 (signed 32 v.toNat)))

/-- The bytes of a drain in the order the mover writes them: row by row, arrays ascending (R142). -/
def drainBytes (m : Mx) (d : BitVec 128) : List (Nat × Byte) :=
  ((List.range 16).filter fun r => (drRows d).testBit r).flatMap fun r =>
    (arraysOf (drArrays d)).flatMap fun a =>
      let t := getTile m (tileIx a (drTile d))
      ((List.range 16).filter fun c => (colsOf (drArrays d) (drCols d) a).testBit c).flatMap fun c =>
        let v := t.el.getD (16 * r + c) 0
        let w := outBytes (drFmt d)
        let bs := natBytes w (if t.int then drainInt (drFmt d) v else drainFp (drFmt d) t.scale v)
        (List.range w).zip bs |>.map fun p => (drDst d + r * drStride d + (16 * a + c) * w + p.1, p.2)

/-- The writes of scattered bytes line by line in the order lines are first touched. -/
def linesOf (bs : List (Nat × Byte)) : List (Nat × Line × LMask) :=
  (distinct (bs.map fun b => b.1 / 128)).map fun n =>
    let s := (bs.filter fun b => decide (b.1 / 128 = n)).foldl
      (fun s b => (setLine s.1 (b.1 % 128) 1 b.2.toNat, s.2 ||| maskOf (b.1 % 128) 1)) ((0 : Line), (0 : LMask))
    (n, s.1, s.2)

/-- Write scattered bytes to device memory for a core in a class: the first failing status and line,
after which nothing is written. -/
def scatter (d : Dev) (n k : Nat) (bs : List (Nat × Byte)) : (Nat × Nat) × Dev :=
  (linesOf bs).foldl (fun s x =>
    if s.1.1 ≠ 0 then s
    else match coreTx s.2 n (pageOfLine x.1) with
      | (.invalid, d) => ((2, 128 * x.1), d)
      | (.retired, d) => ((3, 128 * x.1), d)
      | (.entry e, d) =>
        let st := serveStop d (some n) e x.1 (.write x.2.1 x.2.2)
        if pteRo e then ((4, 128 * x.1), d)
        else if st ≠ 0 then ((st, 128 * x.1), noteStop d (some n) e x.1 st)
        else
          let (a, d) := accessHome (spend d n) k e x.1 (.write x.2.1 x.2.2)
          ((match a.status with | .ok => 0 | s => rstatusCode s, 128 * x.1), d)) ((0, 0), d)

def runDrain (d : Dev) (n : Nat) (o : MxOp) : Dev :=
  let d := (arraysOf (drArrays o.desc)).foldl (fun d a =>
    checkTile n (tileIx a (drTile o.desc)) (drRows o.desc) (colsOf (drArrays o.desc) (drCols o.desc) a) d) d
  let m := getMx d n
  if (readsTiles o).any fun i => (getTile m i).poison then deferMx d n o 0x11 (drDst o.desc)
  else
    let bs := drainBytes m o.desc
    if drSpad o.desc then bs.foldl (fun d b => spxPut d n b.1 b.2) d
    else
      let (r, d) := scatter d n 2 bs
      if r.1 = 0 then d else deferMx d n o (statusFault r.1) r.2

/-! ## Feed and tile mover events -/

/-- A task's streams are held: its work item's UP notice is pending on its cluster (R137, 02 R41, 13 R414); with EN of
PWR_NOTICE_CFG 0 none is (13 R416). -/
def noticeHeld (d : Dev) (n : Nat) (pos : Bool) : Bool :=
  bit (regGet d aNoticeCfg) 63 && match getTask (getCore d n) pos with
  | some t => (getCluster d (n / 32)).ups.any fun u => decide (u.queue = t.queue) && decide (u.item = t.item)
  | none => false

/-- MX_MMA_STREAM_START: the oldest MX.MMA of the queue that has not started begins to stream once its
waits and its notice hold have ended, its banks belong to the feed and no droop episode has stopped
the feed (R134, R137, 07 R207, 14 R446). -/
def mmaStart (core : BitVec 11) (d : Dev) : Option Dev :=
  let n := core.toNat
  let c := getCore d n
  match c.mx.q.find? fun o => decide (o.kind = .mma) && !o.started with
  | none => none
  | some o =>
    if coreUp d n && mayStart c o && !noticeHeld d n o.pos && committed c.spx portFeed o.id (mxBanks o) &&
        decide ((getCluster d (n / 32)).droop = none) then
      some (markStarted (runMma d n o) n o.id)
    else none

/-- MX_MMA_COMPLETE: the oldest running stream completes (R136). -/
def mmaComplete (core : BitVec 11) (d : Dev) : Option Dev :=
  let n := core.toNat
  match (getMx d n).q.find? fun o => decide (o.kind = .mma) && o.started with
  | some o => if coreUp d n then some (settleMx (dequeue d n o.id) n) else none
  | none => none

/-- An operation of the tile mover: of the MX queue or of the SPX queue (07 R216). -/
inductive MoverOp where
  | mx (o : MxOp)
  | spx (o : SpxOp)
deriving DecidableEq, Repr

def moverId : MoverOp → Nat
  | .mx o => o.id
  | .spx o => o.id

/-- The mover's next operation in issue order across both queues (07 R216). -/
def nextMover (c : Core) : Option MoverOp :=
  let a := (c.mx.q.find? fun o => isMover o.kind && !o.started).map .mx
  let b := c.spx.q.head?.map .spx
  match a, b with
  | some x, some y => if moverId x < moverId y then some x else some y
  | some x, none => some x
  | none, y => y

/-- The effect of a mover operation of the MX queue. -/
def runMoverMx (d : Dev) (n : Nat) (o : MxOp) : Dev :=
  match o.kind with
  | .wld => runWld d n o
  | .sld => runSld d n o
  | _ => runDrain d n o

/-- The effect of an SPX.FILL or SPX.COPY (07 R215, R218). -/
def runSpx (d : Dev) (n : Nat) (o : SpxOp) : Dev :=
  if o.copy then
    match runCopy d n o with
    | (none, d) => d
    | (some off, d) => deferFault d n o.id o.uid o.slot o.pos true 0x11 off
  else runFill d n o

/-- Set the mover's running operation. -/
def setMover (d : Dev) (n : Nat) (m : Option Nat) : Dev :=
  let c := getCore d n
  putCore d n { c with spx := { c.spx with mover := m } }

/-- TILE_MOVER_OP_START: the mover is free and its next operation waits for nothing (R142; 07 R207,
R216). -/
def moverStart (core : BitVec 11) (d : Dev) : Option Dev :=
  let n := core.toNat
  let c := getCore d n
  if !coreUp d n || decide (c.spx.mover ≠ none) then none
  else match nextMover c with
    | none => none
    | some (.mx o) =>
      if mayStart c o && committed c.spx portMover o.id (mxBanks o) && budgetOk d n then
        some (setMover (markStarted (runMoverMx d n o) n o.id) n (some o.id))
      else none
    | some (.spx o) =>
      if committed c.spx portMover o.id (spxBanks o) then some (setMover (runSpx d n o) n (some o.id)) else none

/-- TILE_MOVER_OP_COMPLETE: the running operation leaves its queue (07 R217, R136). -/
def moverComplete (core : BitVec 11) (d : Dev) : Option Dev :=
  let n := core.toNat
  match (getCore d n).spx.mover with
  | none => none
  | some id =>
    if coreUp d n then
      let d := setMover (dequeue d n id) n none
      let c := getCore d n
      some (settleMx (putCore d n { c with spx := { c.spx with q := c.spx.q.filter fun o => o.id != id } }) n)
    else none

/-! ## MX.TZERO and MX.WAIT (Table 4.11) -/

/-- The form of MX.TZERO: A[3:0] is the tile mask and A[7:4] is 0. -/
def tzeroForm (f : FmtR) : Form :=
  { guard := f.guard, code := codeR f,
    legal := unguarded f.guard && decide (f.d = 0) && decide (f.b = 0) && decide (f.c = 0) &&
      decide (f.bsel = 0) && decide (f.func = 0) && decide (f.mod = 0) && decide (bits f.a 4 4 = 0),
    regs := [], words := 1 }

def mxTzero (x : At) (f : FmtR) (d : Dev) : Option Dev :=
  (mxIssue .tzero (tzeroForm f) x (fun _ => BitVec.ofNat 128 f.a.toNat) (fun _ _ _ _ => none)
    (fun _ _ => (0, [])) d).map fun d => settleTzero d x.core.toNat

/-- The form of MX.WAIT. -/
def mxWaitForm (f : FmtR) : Form :=
  { bareForm f with
    legal := (bareForm f).legal && unguarded f.guard && decide (f.bsel = 0), holds := true, needMx := true }

/-- MX.WAIT (R136, R144). -/
def mxWait (x : At) (f : FmtR) : Dev → Option Dev := waitIssue false ((mxWaitForm f).op 0xA5 .mx) x

/-! ## The commands of this family -/

/-- MX_WLD (04 R130). -/
def execMxWld (x : At) (f : FmtR) (s : State) : Host.Outcome State Fault Refusal :=
  gated s "MX_WLD" (mxDesc .wld x f s.dev)
/-- MX_SLD (04 R131). -/
def execMxSld (x : At) (f : FmtR) (s : State) : Host.Outcome State Fault Refusal :=
  gated s "MX_SLD" (mxDesc .sld x f s.dev)
/-- MX_MMA (04 R129). -/
def execMxMma (x : At) (f : FmtR) (s : State) : Host.Outcome State Fault Refusal :=
  gated s "MX_MMA" (mxDesc .mma x f s.dev)
/-- MX_DRAIN (04 R132). -/
def execMxDrain (x : At) (f : FmtR) (s : State) : Host.Outcome State Fault Refusal :=
  gated s "MX_DRAIN" (mxDesc .drain x f s.dev)
/-- MX_TZERO (04 R126). -/
def execMxTzero (x : At) (f : FmtR) (s : State) : Host.Outcome State Fault Refusal :=
  gated s "MX_TZERO" (mxTzero x f s.dev)
/-- MX_WAIT (04 R136). -/
def execMxWait (x : At) (f : FmtR) (s : State) : Host.Outcome State Fault Refusal :=
  gated s "MX_WAIT" (mxWait x f s.dev)
/-- MX_MMA_STREAM_START (04 R141). -/
def execMxMmaStreamStart (core : BitVec 11) (s : State) : Host.Outcome State Fault Refusal :=
  gated s "MX_MMA_STREAM_START" (mmaStart core s.dev)
/-- MX_MMA_COMPLETE (04 R136). -/
def execMxMmaComplete (core : BitVec 11) (s : State) : Host.Outcome State Fault Refusal :=
  gated s "MX_MMA_COMPLETE" (mmaComplete core s.dev)
/-- TILE_MOVER_OP_START (04 R142). -/
def execTileMoverOpStart (core : BitVec 11) (s : State) : Host.Outcome State Fault Refusal :=
  gated s "TILE_MOVER_OP_START" (moverStart core s.dev)
/-- TILE_MOVER_OP_COMPLETE (07 R217). -/
def execTileMoverOpComplete (core : BitVec 11) (s : State) : Host.Outcome State Fault Refusal :=
  gated s "TILE_MOVER_OP_COMPLETE" (moverComplete core s.dev)

end Sys2Proof.Machine
end

