-- ==== Sys2Proof/Machine/Rowunit.lean ====
section
/-! DEFINITION. The row unit (05): exp2, log2 and the composed functions, soft maximum, statistics,
and the events that run its operations. -/

namespace Sys2Proof.Machine

/-! ## FP32 in a lane: one rounding, flushed (R157, R159) -/

def nanF : Word := 0x7FC00000
def infF : Word := 0x7F800000
def negInfF : Word := 0xFF800000
def zeroF : Word := 0
/-- A rounded and flushed result. -/
def laneF (v : FV) : Word := ftz (toF32 v)
def addL (a b : Word) : Word := laneF (fvAdd (ofF32 a) (ofF32 b))
def mulL (a b : Word) : Word := laneF (fvMul (ofF32 a) (ofF32 b))
def fmaL (a b c : Word) : Word := laneF (fvAdd (fvMul (ofF32 a) (ofF32 b)) (ofF32 c))
def negL (a : Word) : Word := a ^^^ 0x80000000
def subL (a b : Word) : Word := addL a (negL b)
def absL (a : Word) : Word := a &&& 0x7FFFFFFF
def nanL (a : Word) : Bool := isNaN (ofF32 a)
def zeroL (a : Word) : Bool := absL a = 0
def negSign (a : Word) : Bool := bit a 31
def infL (a : Word) : Bool := absL a = infF
def ltL (a b : Word) : Bool := fvLt (ofF32 a) (ofF32 b)

/-- Clamp a value between two. -/
def clampF (lo hi v : Word) : Word := if nanL v || ltL v lo then lo else if ltL hi v then hi else v

/-- 2^n for −126 ≤ n ≤ 127, and +∞ above. -/
def pow2F (n : Int) : Word := toF32 (.fin false 1 n)

/-- ⌊v⌋ of a finite datum, and whether v is an integer. -/
def floorF : FV → Int × Bool
  | .fin n m e => (roundInt .rd n m e, decide (0 ≤ e) || decide (m % 2 ^ (-e).toNat = 0))
  | _ => (0, false)

/-- log2 of `m` / 2^128 in [1, 2), as `k` binary digits. -/
def lgFrac : Nat → Nat → Nat
  | 0, _ => 0
  | k + 1, m =>
    let s := m * m / 2 ^ 128
    if 2 ^ 129 ≤ s then 2 ^ k + lgFrac k (s / 2) else lgFrac k s

/-- log2 of m × 2^e in units of 2^−48, rounded down. -/
def lgOf (m : Nat) (e : Int) : Int := (m.log2 + e) * 2 ^ 48 + lgFrac 48 (m * 2 ^ 128 / 2 ^ m.log2)

/-- A value in units of 2^−48, rounded down. -/
def fixed48 : FV → Int
  | .fin n m e => roundInt .rd n m (e + 48)
  | _ => 0

/-- The greatest mantissa from `lo`, in `k` more binary digits, whose log2 is not above `t`. -/
def expMant : Nat → Nat → Int → Nat
  | 0, lo, _ => lo
  | k + 1, lo, t => if lgOf (lo + 2 ^ k) (-23) ≤ t then expMant k (lo + 2 ^ k) t else expMant k lo t

/-- The argument from which EXP2 returns mantissa `m` or more between the integers n and n + 1, in units of 2^−48:
free, but not below the argument that is 2 ulp above its exact place nor above the one that is 1 ulp below it,
which is what the bound of 2 ulp leaves (R155; log 7). -/
def exp2Edge (n : Int) (m : Nat) : Int :=
  max (lgOf (m - 2) (n - 23)) (min (Config.exp2Edge n m) (lgOf (m + 1) (n - 23)))

/-- EXP2 between integers, for ⌊x⌋ = n: the greatest mantissa whose edge the argument has reached, so that the
result never falls as the argument rises. Below the mantissa of 2^x rounded down every edge has been reached,
and two above it none. -/
def exp2Free (x : FV) (n : Int) : Word :=
  let m0 := expMant 23 (2 ^ 23) (fixed48 x - n * 2 ^ 48)
  let m := [m0, m0 + 1, m0 + 2].foldl (fun m k =>
    if k < 2 ^ 24 ∧ exp2Edge n k ≤ fixed48 x then k else m) (m0 - 1)
  toF32 (.fin false m (n - 23))

/-- EXP2 with flush threshold `t` (R155). Its values between integers are fixed but not published
(R154; log 7): they are a free function, held to 2 ulp of 2^x, non-decreasing, and between the exact values at
the two integers around the argument. -/
def exp2L (t : Int) (x : Word) : Word :=
  if nanL x then nanF
  else if x = infF then infF
  else if x = negInfF then zeroF
  else if fvLt (ofF32 x) (fvOfInt t) then zeroF
  else if !fvLt (ofF32 x) (fvOfInt 128) then infF
  else
    let f := floorF (ofF32 x)
    if f.2 then pow2F f.1
    else clampF (pow2F f.1) (pow2F (f.1 + 1)) (exp2Free (ofF32 x) f.1)

/-- ⌊log2 v⌋ of a positive normal FP32 value, and whether it is a power of two. -/
def ilogF (x : Word) : Int × Bool := ((bits x 23 8 : Nat) - 127, decide (bits x 0 23 = 0))

/-- log2 of a positive normal FP32 value in units of 2^−48. -/
def lgF (x : Word) : Int := lgOf (2 ^ 23 + bits x 0 23) ((bits x 23 8 : Nat) - 150)

/-- A candidate lies within the bound of LOG2 (R156), to the accuracy of the comparison (log 7). -/
def log2Within (x : Word) (c : FV) : Bool :=
  let l := lgF x
  let bound := if -1 ≤ (ilogF x).1 ∧ (ilogF x).1 < 1 then 2 ^ 26 else |l| / 2 ^ 22
  isFin c && decide (|fixed48 c - l| ≤ bound + 2)

/-- A candidate for LOG2 of a positive normal value: the free one when it keeps the bound, else the exact value
rounded to nearest. -/
def log2Cand (x : Word) : Word :=
  if log2Within x (ofF32 (Config.log2 x)) then Config.log2 x
  else toF32 (.fin (decide (lgF x < 0)) (lgF x).natAbs (-48))

/-- LOG2 between powers of two: the greatest candidate of the argument and of those below it in its binade that
the bound lets reach past it, so that the result never falls as the argument rises. One place of the argument
moves log2 by more than 2^−24, and the bound spans 2^−21 in [0.5, 2) and less than 2^−14 elsewhere. -/
def log2Free (x : Word) : Word :=
  let k := min (bits x 0 23) (if -1 ≤ (ilogF x).1 ∧ (ilogF x).1 < 1 then 8 else 1024)
  (List.range (k + 1)).foldl (fun b i =>
    toF32 (fvMax (ofF32 b) (ofF32 (log2Cand (x - BitVec.ofNat 32 i))))) (log2Cand x)

/-- LOG2 (R156), free between powers of two within its bound, and non-decreasing (R154; log 7). -/
def log2L (x0 : Word) : Word :=
  let x := ftz x0
  if nanL x then nanF
  else if zeroL x then negInfF
  else if negSign x then nanF
  else if x = infF then infF
  else
    let l := ilogF x
    if l.2 then toF32 (fvOfInt l.1)
    else clampF (toF32 (fvOfInt l.1)) (toF32 (fvOfInt (l.1 + 1))) (log2Free x)

/-! ## Composed functions (Table 5.4) -/

/-- EXP2 that forms a seed always uses T = −126 (R157). -/
def seedExp (x : Word) : Word := exp2L (-126) x

def rcpL (x : Word) : Word :=
  let s := x &&& 0x80000000
  if nanL x then nanF
  else if zeroL x then s ||| infF
  else if infL x then s
  else
    let a := absL x
    let r0 := seedExp (negL (log2L a))
    s ^^^ fmaL r0 (fmaL (negL a) r0 oneF) r0

/-- s0 of SQRT and RSQRT: EXP2(−0.5 × LOG2(x)). -/
def rsqSeedL (x : Word) : Word := seedExp (mulL 0xBF000000 (log2L x))

def sqrtL (x : Word) : Word :=
  if nanL x then nanF
  else if zeroL x then x
  else if negSign x then nanF
  else if x = infF then infF
  else
    let s0 := rsqSeedL x
    let y0 := mulL x s0
    fmaL (mulL 0x3F000000 s0) (fmaL (negL y0) y0 x) y0

def rsqrtL (x : Word) : Word :=
  if nanL x then nanF
  else if zeroL x then infF
  else if negSign x then nanF
  else if x = infF then zeroF
  else
    let s0 := rsqSeedL x
    fmaL (mulL 0x3F000000 s0) (fmaL (negL (mulL x s0)) s0 oneF) s0

/-- EXP, whose threshold applies to h. -/
def expL (t : Int) (x : Word) : Word :=
  if nanL x then nanF
  else if x = infF then infF
  else if x = negInfF then zeroF
  else
    let l1 : Word := 0x3FB8AA3B
    let h := mulL x l1
    let l := addL (fmaL x l1 (negL h)) (mulL x 0x32A5705F)
    if !fvLt (ofF32 h) (fvOfInt 128) then infF
    else if fvLt (ofF32 h) (fvOfInt t) then zeroF
    else
      let y := exp2L t h
      fmaL y (mulL l 0x3F317218) y

def sigmoidL (t : Int) (x : Word) : Word :=
  if x = infF then oneF else if x = negInfF then zeroF
  else rcpL (addL oneF (expL t (negL x)))

def tanhL (t : Int) (x : Word) : Word :=
  if nanL x then nanF
  else if zeroL x then x
  else if infL x then (x &&& 0x80000000) ||| oneF
  else if ltL (absL x) 0x3D800000 then
    let x2 := mulL x x
    fmaL (mulL x x2) (fmaL x2 0x3E088889 0xBEAAAAAB) x
  else
    let r := rcpL (addL oneF (expL t (mulL 0x40000000 (absL x))))
    (x &&& 0x80000000) ^^^ subL oneF (mulL 0x40000000 r)

def geluL (t : Int) (x : Word) : Word :=
  if x = negInfF then 0x80000000 else if x = infF then infF
  else
    let x2 := mulL x x
    let z := mulL x (fmaL x2 0x3D922278 0x3FCC4229)
    mulL x (sigmoidL t z)

/-- DIV of x by d: special values as IEEE 754 division. -/
def divL (x d : Word) : Word :=
  let s := (x ^^^ d) &&& 0x80000000
  if nanL x || nanL d then nanF
  else if infL x then (if infL d then nanF else s ||| infF)
  else if infL d then s
  else if zeroL d then (if zeroL x then nanF else s ||| infF)
  else if zeroL x then s
  else
    let r := rcpL d
    let q0 := mulL x r
    fmaL r (fmaL (negL d) q0 x) q0

/-- RU.MAP's function (R159). -/
def mapL (func : Nat) (t : Int) (param x : Word) : Word :=
  match func with
  | 0 => exp2L t x
  | 1 => log2L x
  | 2 => rcpL x
  | 3 => sqrtL x
  | 4 => rsqrtL x
  | 5 => expL t x
  | 6 => sigmoidL t x
  | 7 => tanhL t x
  | 8 => geluL t x
  | 9 => divL x param
  | _ => x

/-- The flush threshold in force (R157, Table 5.3). -/
def ruThreshold (d : Dev) (n : Nat) : Int :=
  let v := signed 8 (regField d (aRuCtrl n) 0 8)
  if v ≤ -127 then -126 else if 0 ≤ v then -1 else v

/-! ## Issue (R151, R169, R506) -/

/-- The fields that each instruction does not use are 0, and FUNC, OFMT and the SMAX parameters are
defined (Table 5.6 row 1, Table 5.8). -/
def ruFields (q : Core) (k : MxKind) (d : BitVec 128) : Bool :=
  let p := (ruParam d).toNat
  let noDst := decide (bits d 48 6 = 0) && decide (ruLine d = 0)
  let dst := decide (ruOfmt d ≤ 4) && (if ruAfb d then decide (ruDst d = 0) else decide (ruLine d = 0))
  let smaxP := decide (p / 256 = 0) && (ruTri d || decide (ruDiag d = 0))
  decide (bits d 0 6 = 0) &&
  match k with
  | .ruMap => decide (ruFunc d ≤ 10) && dst && decide (ruSet d = 0) && !ruInit d &&
      (decide (ruFunc d = 9) || decide (p = 0))
  | .ruSmax1 => decide (ruFunc d = 0) && noDst && smaxP
  | .ruSmax2 => decide (ruFunc d = 0) && dst && !ruInit d && smaxP
  | .ruStat => decide (ruFunc d = 0) && noDst && decide (p = 0)
  | .ruNorm => decide (ruFunc d ≤ 1) && dst && !ruInit d
  | .ruRowout => decide (ruFunc d ≤ 1) && decide (ruScale d = 0) && decide (ruSrc d = 0) &&
      decide (ruCols d = 0) && decide (ruOfmt d = 0) && decide (ruLine d = 0) && !ruInit d &&
      (!ruAfb d || decide (ruDst d = 0)) &&
      ((decide (ruFunc d = 1) && decide ((getRs q (ruSet d)).mode = .stat)) || decide (p = 0))
  | _ => true

/-- A finite value that is not 0. -/
def finNonzero (w : Word) : Bool := isFin (ofF32 w) && !zeroL w
/-- ε: finite and not negative. -/
def epsOk (w : Word) : Bool := isFin (ofF32 w) && (zeroL w || !negSign w)

/-- The instruction reads a tile, and uses SCALE and COLMASK (Table 5.8). -/
def ruReads (k : MxKind) : Bool := decide (k ≠ .ruRowout)

/-- The FAULT_MX_OPERAND conditions of Table 5.6 and R162 against the queued state. -/
def ruBad (q : Core) (k : MxKind) (d : BitVec 128) : Bool :=
  let r := getRs q (ruSet d)
  decide (ruArrays d = 0) || decide (ruRows d = 0) || (ruReads k && decide (ruCols d = 0)) ||
  (ruReads k && (arraysOf (ruArrays d)).any fun a => (getTile q.mx (tileIx a (ruSrc d))).empty) ||
  (decide (k = .ruRowout) && ruAfb d) || (!ruAfb d && decide (ruOfmt d ≠ 0)) ||
  (ruAfb d && decide (128 < ruLine d + ruLines d)) ||
  (ruReads k && !finNonzero (ruScale d)) ||
  (decide (k = .ruNorm) && !epsOk (ruParam d)) ||
  (decide (k = .ruRowout) && decide (ruFunc d = 1) && decide (r.mode = .stat) && !epsOk (ruParam d)) ||
  (decide (k = .ruMap) && decide (ruFunc d = 9) && !finNonzero (ruParam d)) ||
  match k with
  | .ruSmax1 => !ruInit d && (decide (r.mode = .stat) || r.sealed)
  | .ruStat => !ruInit d && (decide (r.mode = .smax) || r.sealed)
  | .ruSmax2 => decide (r.mode ≠ .smax)
  | .ruNorm => decide (r.mode ≠ .stat)
  | .ruRowout => decide (r.mode = .empty)
  | _ => false

def ruFault (k : MxKind) (c : Core) (_pos : Bool) (pc : Nat) (d : BitVec 128) : Option (Nat × Nat) :=
  let q := queuedCore c
  if !ruFields q k d then some (0x03, pc) else if ruBad q k d then some (0x0D, pc) else none

/-- The factor F of each array, fixed at issue from the output scale in the queued state (R147). -/
def ruFactors (c : Core) (d : BitVec 128) : Nat × List Word :=
  (0, (arraysOf (ruArrays d)).map fun a =>
    mulF (getTile (queuedCore c).mx (tileIx a (ruSrc d))).scale (ruScale d))

/-- A row unit instruction enters the MX queue (R150, R151). -/
def ruIssue (k : MxKind) (x : At) (f : FmtR) : Dev → Option Dev :=
  mxIssue k (descForm f) x (fun g => readUQuad g f.a.toNat) (ruFault k) ruFactors

/-! ## Elements (R146, R147) -/

/-- Lane c of the segment of row r of the array at position q is included (R147). -/
def included (k : MxKind) (d : BitVec 128) (q r c : Nat) : Bool :=
  (ruRows d).testBit r &&
  (decide (q + 1 ≠ (arraysOf (ruArrays d)).length) || (ruCols d).testBit c) &&
  (!((decide (k = .ruSmax1) || decide (k = .ruSmax2)) && ruTri d) ||
    decide (((16 * q + c : Nat) : Int) ≤ (r : Int) + ruDiag d))

/-- The value of an element (R147). The factor, like every FP32 value that enters a lane, is flushed (R157;
log 7). -/
def ruValue (t : Tile) (f : Word) (r c : Nat) : Word :=
  let e := t.el.getD (16 * r + c) 0
  let e := if t.int then toF32 (fvOfInt (signed 32 e.toNat)) else ftz e
  mulL e (ftz f)

/-- PARAM as it enters a lane (R157). -/
def ruParamL (d : BitVec 128) : Word := ftz (ruParam d)

/-- The values of one segment. -/
def segment (t : Tile) (f : Word) (r : Nat) : List Word := (List.range 16).map (ruValue t f r)

/-- tree_sum (R160): pairs, then sums of adjacent pairs, four levels, each rounded once. -/
def treeSum (v : List Word) : Word :=
  let lvl (l : List Word) : List Word :=
    (List.range (l.length / 2)).map fun i => addL (l.getD (2 * i) 0) (l.getD (2 * i + 1) 0)
  (lvl (lvl (lvl (lvl v)))).headD 0

/-- Word `r` of a row state list. -/
def rowAt (l : List Word) (r : Nat) : Word := l.getD r 0
def setRow {α : Type} (l : List α) (dv : α) (r : Nat) (v : α) : List α :=
  (List.range 16).map fun i => if i = r then v else l.getD i dv

/-! ## Row state updates (R160, R164) -/

/-- The set that INIT, or an EMPTY set, gives an RU.SMAX1; C is not given a value and is free, the same for
every set and time (R154; log 3). -/
def smaxInit : RowSet :=
  { emptySet with mode := .smax, a := List.replicate 16 negInfF, b := List.replicate 16 0,
                  c := (List.range 16).map Config.smaxC, n := List.replicate 16 0 }

def statInit : RowSet :=
  { emptySet with mode := .stat, a := List.replicate 16 0, b := List.replicate 16 0,
                  c := List.replicate 16 0, n := List.replicate 16 0 }

/-- N saturates (R149). -/
def addN (n k : Nat) : Nat := min (n + k) (2 ^ 32 - 1)

/-- RU.SMAX1 on row r with one segment of values and its included lanes (R160). -/
def smaxRow (t : Int) (s : RowSet) (r : Nat) (x : List Word) (inc : List Nat) : RowSet :=
  if inc = [] then s
  else
    let m := rowAt s.a r
    let s := { s with n := setRow s.n 0 r (addN (s.n.getD r 0) inc.length) }
    if nanL m || inc.any (fun c => nanL (rowAt x c) || decide (rowAt x c = infF)) then
      { s with a := setRow s.a 0 r nanF, b := setRow s.b 0 r nanF }
    else
      let sm := inc.foldl (fun b c => toF32 (fvMax (ofF32 b) (ofF32 (rowAt x c)))) negInfF
      let mn := toF32 (fvMax (ofF32 m) (ofF32 sm))
      if mn = negInfF then s
      else
        let f := if m = negInfF then zeroF else exp2L t (subL m mn)
        let e := treeSum ((List.range 16).map fun c =>
          if inc.contains c then exp2L t (subL (rowAt x c) mn) else 0)
        { s with a := setRow s.a 0 r mn, b := setRow s.b 0 r (fmaL (rowAt s.b r) f e) }

/-- RU.STAT on row r with one segment (R164). -/
def statRow (s : RowSet) (r : Nat) (x : List Word) (inc : List Nat) : RowSet :=
  match inc with
  | [] => s
  | c0 :: _ =>
    let n := s.n.getD r 0
    let x0 := if n = 0 then rowAt x c0 else rowAt s.a r
    let dv := (List.range 16).map fun c => if inc.contains c then subL (rowAt x c) x0 else 0
    let s1 := addL (rowAt s.b r) (treeSum dv)
    let s2 := addL (rowAt s.c r) (treeSum (dv.map fun v => mulL v v))
    { s with a := setRow s.a 0 r x0, b := setRow s.b 0 r s1, c := setRow s.c 0 r s2,
             n := setRow s.n 0 r (addN n inc.length) }

/-! ## Seals (R161, R165) -/

/-- n as FP32 (R165). -/
def nfOf (s : RowSet) (r : Nat) : Word := toF32 (fvOfInt (s.n.getD r 0 : Nat))

def rinvOf (l : Word) : Word := if nanL l then nanF else if zeroL l then zeroF else rcpL l

/-- SMAX_SEAL and STAT_SEAL: what a seal computes for every row. -/
def sealSet (s : RowSet) : RowSet :=
  if s.sealed then s
  else match s.mode with
    | .smax => { s with sealed := true, der1 := (List.range 16).map fun r => rinvOf (rowAt s.b r) }
    | .stat =>
      let mv (r : Nat) : Word × Word :=
        if s.n.getD r 0 = 0 then (nanF, nanF)
        else
          let nf := nfOf s r
          let q := divL (rowAt s.b r) nf
          let v := divL (subL (rowAt s.c r) (mulL (rowAt s.b r) q)) nf
          (addL (rowAt s.a r) q, if nanL v then nanF else if ltL 0 v then v else zeroF)
      { s with sealed := true, der1 := (List.range 16).map fun r => (mv r).1,
               der2 := (List.range 16).map fun r => (mv r).2 }
    | .empty => s

/-! ## Results (R161, R166, R167) -/

/-- RU.SMAX2's output for an element (R161). -/
def smaxOut (t : Int) (s : RowSet) (r : Nat) (x : Word) : Word :=
  let rinv := rowAt s.der1 r
  if rinv = zeroF then zeroF else mulL (exp2L t (subL x (rowAt s.a r))) rinv

/-- RU.NORM's output for an element (R166). -/
def normOut (rms : Bool) (s : RowSet) (eps : Word) (r : Nat) (x : Word) : Word :=
  let mean := rowAt s.der1 r
  let var := rowAt s.der2 r
  if rms then
    if zeroL x then zeroF else mulL x (rsqrtL (addL (fmaL mean mean var) eps))
  else
    let y := subL x mean
    if zeroL y then zeroF else mulL y (rsqrtL (addL var eps))

/-- The result of a writing operation for an element of value x in row r. -/
def ruResult (k : MxKind) (d : BitVec 128) (t : Int) (s : RowSet) (r : Nat) (x : Word) : Word :=
  match k with
  | .ruMap => mapL (ruFunc d) t (ruParamL d) x
  | .ruSmax2 => smaxOut t s r x
  | _ => normOut (decide (ruFunc d = 1)) s (ruParamL d) r x

/-- RU.ROWOUT's four values of row r (R167). -/
def rowOut (d : BitVec 128) (s : RowSet) (r : Nat) : List Word :=
  if ruFunc d = 0 then [rowAt s.a r, rowAt s.b r, rowAt s.c r, nfOf s r]
  else if s.mode = .smax then
    [rowAt s.a r, rowAt s.b r, addL (rowAt s.a r) (log2L (rowAt s.b r)), rowAt s.der1 r]
  else [rowAt s.der1 r, rowAt s.der2 r, rsqrtL (addL (rowAt s.der2 r) (ruParamL d)), nfOf s r]

/-! ## Running an operation -/

/-- The included lanes of a segment. -/
def incLanes (o : MxOp) (q r : Nat) : List Nat := (List.range 16).filter fun c => included o.kind o.desc q r c

/-- The destination tile before results are written (R148 item 1). -/
def openDst (t : Tile) : Tile := if t.empty then startTile false oneF else { t with int := false, scale := oneF }

/-- Write results into tile `i`: `f r c` gives the elements to write. -/
def writeTile (m : Mx) (i : Nat) (f : Nat → Nat → Option Word) : Mx :=
  let t := openDst (getTile m i)
  putTile m i { t with el := (List.range 256).map fun j => (f (j / 16) (j % 16)).getD (t.el.getD j 0) }

/-- The 32-bit word of AFB line `ln` and row `r` of an operation: elements j of the row (R118, R148). -/
def afbWord (ofmt ln : Nat) (row : Nat → Option Word) : List Byte :=
  let e := ofmtElems ofmt
  let w := 32 / e
  natBytes 4 ((List.range e).foldl (fun s i =>
    s + (match row (ln * e + i) with
      | some v => drainFp ofmt oneF v % 2 ^ w
      | none => 0) * 2 ^ (w * i)) 0)

/-- Write the operation's AFB lines (R148 item 2), those whose elements lie among the first `cols` columns of its
row (R170 item 1). -/
def writeAfb (d : Dev) (n : Nat) (desc : BitVec 128) (cols : Nat) (f : Nat → Nat → Option Word) : Dev :=
  stagePuts d n 3 (64 * ruLine desc)
    ((List.range (min (ruLines desc) (cols / ofmtElems (ruOfmt desc)))).flatMap fun ln => (List.range 16).flatMap fun r => afbWord (ruOfmt desc) ln (f r))

/-- The array positions before the first poisoned source tile (R170 item 1). -/
def goodArrays (m : Mx) (o : MxOp) : List (Nat × Nat) :=
  (((arraysOf (ruArrays o.desc)).zip (List.range 4)).takeWhile fun x =>
    !(getTile m (tileIx x.1 (ruSrc o.desc))).poison)

/-- A halted operation poisons its destination tiles and its set, and leaves FAULT_DATA_UE (R170). -/
def ruHalt (d : Dev) (n : Nat) (o : MxOp) (tile : Bool) : Dev :=
  let c := getCore d n
  let c := if tile then
      let m := (writesTiles o).foldl (fun m i =>
        putTile m i { openDst (getTile m i) with poison := true }) c.mx
      let c := { c with mx := m }
      if usesSet o.kind then putRs c (ruSet o.desc) { getRs c (ruSet o.desc) with poison := true } else c
    else c
  deferMx (putCore d n c) n o 0x11 0

/-- The tiles an operation reads, checked element by element as they are read: an uncorrectable error poisons the
tile, which halts the operation (R170 item 1). -/
def checkSources (n : Nat) (o : MxOp) (d : Dev) : Dev :=
  if ruReads o.kind then
    (arraysOf (ruArrays o.desc)).foldl (fun d a => checkTile n (tileIx a (ruSrc o.desc)) (ruRows o.desc)
      (colsOf (ruArrays o.desc) (ruCols o.desc) a) d) d
  else d

/-- Word w (A, B, C, N as 0 to 3) of row r of a set, as its SEC-DED unit (R149, 15 Table 15.4 code 0x08). -/
def setWord (s w r : Nat) : Nat := 64 * s + 16 * w + r

/-- Read a set's words: an uncorrectable error among them poisons the set (R170 item 2). -/
def checkSet (n : Nat) (s : Nat) (d : Dev) : Dev :=
  let r := readMarks d n 0x08 (64 * s) (64 * s + 64) (fun _ => true) fun x => (x / 64, x % 16)
  if r.1 then
    let c := getCore r.2 n
    putCore r.2 n (putRs c s { getRs c s with poison := true })
  else r.2

/-- Write a set: its check bits become valid. -/
def wroteSet (n : Nat) (s : Nat) (d : Dev) : Dev := dropMarks d 0x08 n (64 * s) (64 * s + 64) fun _ => true

/-- Update the set with every segment of the good arrays, in the order of R146. -/
def ruUpdate (c : Core) (o : MxOp) (t : Int) (s : RowSet) (as : List (Nat × Nat)) : RowSet :=
  as.foldl (fun s x => (List.range 16).foldl (fun s r =>
    let v := segment (getTile c.mx (tileIx x.1 (ruSrc o.desc))) (o.factor.getD x.2 0) r
    let inc := incLanes o x.2 r
    if o.kind = .ruSmax1 then smaxRow t s r v inc else statRow s r v inc) s) s

/-- RU.SMAX1 and RU.STAT. -/
def runAccumulate (d : Dev) (n : Nat) (o : MxOp) : Dev :=
  let fresh := ruInit o.desc || decide ((getRs (getCore d n) (ruSet o.desc)).mode = .empty)
  let d := if fresh then d else checkSet n (ruSet o.desc) d
  let s0 := getRs (getCore d n) (ruSet o.desc)
  if !fresh && s0.poison then ruHalt d n o false
  else
    let s := if !fresh then s0 else if o.kind = .ruSmax1 then smaxInit else statInit
    let d := wroteSet n (ruSet o.desc) (checkSources n o d)
    let c := getCore d n
    let as := goodArrays c.mx o
    let d := putCore d n (putRs c (ruSet o.desc) (ruUpdate c o (ruThreshold d n) s as))
    if as.length < (arraysOf (ruArrays o.desc)).length then ruHalt d n o true else d

/-- The results of a writing operation: element j of row r over the good arrays. -/
def ruOut (c : Core) (o : MxOp) (t : Int) (s : RowSet) (as : List (Nat × Nat)) (r j : Nat) : Option Word :=
  match as.find? fun x => decide (x.2 = j / 16) with
  | some x =>
    if included o.kind o.desc x.2 r (j % 16) then
      some (ruResult o.kind o.desc t s r
        (ruValue (getTile c.mx (tileIx x.1 (ruSrc o.desc))) (o.factor.getD x.2 0) r (j % 16)))
    else none
  | none => none

/-- RU.MAP, RU.SMAX2 and RU.NORM. A halted operation writes nothing behind the poisoned tile: of an AFB
destination, only the lines that lie wholly ahead of it (R170 item 1). -/
def runWriting (d : Dev) (n : Nat) (o : MxOp) : Dev :=
  let d := if usesSet o.kind then checkSet n (ruSet o.desc) d else d
  let d := checkSources n o d
  let c := getCore d n
  let s0 := getRs c (ruSet o.desc)
  if usesSet o.kind && s0.poison then ruHalt d n o false
  else
    let s := if usesSet o.kind then sealSet s0 else s0
    let c := if usesSet o.kind then putRs c (ruSet o.desc) s else c
    let d := putCore d n c
    let as := goodArrays c.mx o
    let out := ruOut c o (ruThreshold d n) s as
    let d := if ruAfb o.desc then writeAfb d n o.desc (16 * as.length) out
      else as.foldl (fun d x => wroteTile n (tileIx x.1 (ruDst o.desc)) (ruRows o.desc)
        (colsOf (ruArrays o.desc) (ruCols o.desc) x.1) d) <| putMx d n (as.foldl (fun m x => writeTile m (tileIx x.1 (ruDst o.desc)) fun r k => out r (16 * x.2 + k)) c.mx)
    if as.length < (arraysOf (ruArrays o.desc)).length then ruHalt d n o true else d

/-- RU.ROWOUT (R167). -/
def runRowout (d : Dev) (n : Nat) (o : MxOp) : Dev :=
  let d := checkSet n (ruSet o.desc) d
  let c := getCore d n
  let s0 := getRs c (ruSet o.desc)
  if s0.poison then ruHalt d n o false
  else
    let s := if ruFunc o.desc = 1 then sealSet s0 else s0
    let c := putRs c (ruSet o.desc) s
    (writesTiles o).foldl (fun d i => wroteTile n i (ruRows o.desc) 0xF d) <|
    putCore d n { c with mx := (writesTiles o).foldl (fun m i => writeTile m i fun r k =>
      if (ruRows o.desc).testBit r ∧ k < 4 then some ((rowOut o.desc s r).getD k 0) else none) c.mx }

/-- The effect of a row unit operation. -/
def runRu (d : Dev) (n : Nat) (o : MxOp) : Dev :=
  match o.kind with
  | .ruSmax1 | .ruStat => runAccumulate d n o
  | .ruRowout => runRowout d n o
  | _ => runWriting d n o

/-- RU_OP_START: the oldest row unit operation that has not started begins, after its seal if it seals
(R152, R153). -/
def ruStart (core : BitVec 11) (d : Dev) : Option Dev :=
  let n := core.toNat
  let c := getCore d n
  match c.mx.q.find? fun o => isRu o.kind && !o.started with
  | some o => if coreUp d n && mayStart c o then some (markStarted (runRu d n o) n o.id) else none
  | none => none

/-- RU_OP_COMPLETE: the oldest running row unit operation completes (R153 item 4). -/
def ruComplete (core : BitVec 11) (d : Dev) : Option Dev :=
  let n := core.toNat
  match (getMx d n).q.find? fun o => isRu o.kind && o.started with
  | some o => if coreUp d n then some (settleMx (dequeue d n o.id) n) else none
  | none => none

/-! ## The commands of this family -/

/-- RU_MAP (05 R159). -/
def execRuMap (x : At) (f : FmtR) (s : State) : Host.Outcome State Fault Refusal :=
  gated s "RU_MAP" (ruIssue .ruMap x f s.dev)
/-- RU_SMAX1 (05 R160). -/
def execRuSmax1 (x : At) (f : FmtR) (s : State) : Host.Outcome State Fault Refusal :=
  gated s "RU_SMAX1" (ruIssue .ruSmax1 x f s.dev)
/-- RU_SMAX2 (05 R161). -/
def execRuSmax2 (x : At) (f : FmtR) (s : State) : Host.Outcome State Fault Refusal :=
  gated s "RU_SMAX2" (ruIssue .ruSmax2 x f s.dev)
/-- RU_STAT (05 R164). -/
def execRuStat (x : At) (f : FmtR) (s : State) : Host.Outcome State Fault Refusal :=
  gated s "RU_STAT" (ruIssue .ruStat x f s.dev)
/-- RU_NORM (05 R166). -/
def execRuNorm (x : At) (f : FmtR) (s : State) : Host.Outcome State Fault Refusal :=
  gated s "RU_NORM" (ruIssue .ruNorm x f s.dev)
/-- RU_ROWOUT (05 R167). -/
def execRuRowout (x : At) (f : FmtR) (s : State) : Host.Outcome State Fault Refusal :=
  gated s "RU_ROWOUT" (ruIssue .ruRowout x f s.dev)
/-- RU_OP_START (05 R153). -/
def execRuOpStart (core : BitVec 11) (s : State) : Host.Outcome State Fault Refusal :=
  gated s "RU_OP_START" (ruStart core s.dev)
/-- RU_OP_COMPLETE (05 R153). -/
def execRuOpComplete (core : BitVec 11) (s : State) : Host.Outcome State Fault Refusal :=
  gated s "RU_OP_COMPLETE" (ruComplete core s.dev)

end Sys2Proof.Machine
end

