-- ==== Sys2Proof/Machine/Cells.lean ====
section
/-! DEFINITION. The cells of the function fabric (06 R172 to R181): what each operation computes, the interconnect,
one invocation as the fabric cycles of its cells, and the shipped configurations whose function a rule states. -/

namespace Sys2Proof.Machine

open Config

/-! ## Cells and quadrants (R172, Table 6.1) -/

/-- The quadrant of a cell place, 32 places each. -/
def quadOf (p : Nat) : Nat := p / 32

/-- The cell types of Table 6.1, by place in the quadrant: 12 FMA, 12 integer, 4 lookup and 4 port cells. -/
inductive CellKind where
  | fma | int | lut | port
deriving DecidableEq, Repr

/-- The type of the cell at a place. -/
def kindAt (p : Nat) : CellKind :=
  if p % 32 < 12 then .fma else if p % 32 < 24 then .int else if p % 32 < 28 then .lut else .port

/-- The cell type that performs an operation (Table 6.2). -/
def kindOf : CellOp → CellKind
  | .fadd _ | .fmul _ | .ffma _ | .fmin _ | .fmax _ | .fcmp _ _ | .frnd _ | .f2i _ _ | .i2f _ _ | .ldexpB _ => .fma
  | .read32 | .read16 _ | .read8 => .lut
  | .input _ | .output _ | .burst _ _ | .gather _ _ => .port
  | _ => .int

/-- The latency of an operation in fabric cycles (Table 6.2). -/
def latencyOf (op : CellOp) : Nat :=
  match kindOf op with
  | .fma | .lut => 2
  | .int => if op = .imul then 2 else 1
  | .port => match op with
    | .burst _ _ | .gather _ _ => 6
    | _ => 1

/-- The number of a lookup cell, 0 to 15, from its place. -/
def lutOf (p : Nat) : Nat := 4 * quadOf p + (p % 32 - 24)

/-! ## Operations (R175, R176) -/

/-- Byte `i` of a word. -/
def byteOf (w : Word) (i : Nat) : Nat := bits w (8 * i) 8

/-- FRND: the FP32 integral value of a datum under a rounding code, of the argument's sign. -/
def frndVal (rm : Nat) (a : Word) : Word :=
  match ofF32 a with
  | .fin n m e => toF32 (ofInt (roundInt (rmode rm) n m e) 0 n)
  | v => toF32 v

/-- b / 255 as FP16, to nearest with ties to even (R176): the bits below the last kept one stand as one sticky bit. -/
def unorm16 (b : Nat) : Nat :=
  let q := b * 2 ^ 40 / 255
  encodeF fp16 .rn false (.fin false (2 * q + (if b * 2 ^ 40 % 255 = 0 then 0 else 1)) (-41))

/-- PRMT: each byte of the result is the byte that its selector names. -/
def prmtVal (bytes : List (Fin 8)) (a b : Word) : Nat :=
  (List.range 4).foldl (fun s i =>
    let k := (bytes.getD i 0).val
    s + 2 ^ (8 * i) * (if k < 4 then byteOf a k else byteOf b (k - 4))) 0

/-- FP arithmetic of a cell on a TYPE, as the thread lanes perform it (R176). -/
def cellFp (ty : Nat) (k : FV → FV → FV → FV) (a b c : Word) : Word :=
  BitVec.ofNat 32 (fpVal ty 0 k a.toNat b.toNat c.toNat)

/-- FCMP: the flag, of both halves for a packed TYPE. -/
def fcmpVal (ty code : Nat) (a b : Word) : Bool :=
  if ty = 5 ∨ ty = 6 then
    (List.range 2).all fun h => fpCmp code (decodeF (tyFmt ty) (bits a (16 * h) 16)) (decodeF (tyFmt ty) (bits b (16 * h) 16))
  else fpCmp code (ofF32 a) (ofF32 b)

/-- Integers of a word, signed or not. -/
def cellInt (sg : Bool) (w : Word) : Int := if sg then signed 32 w.toNat else (w.toNat : Nat)

/-- The word and flag that an operation of an FMA or integer cell gives (Table 6.2); an operation without a flag of
its own puts out 0, one without a word 0. -/
def cellVal (op : CellOp) (a b c : Word) (f : Bool) : Word × Bool :=
  let w (n : Nat) : Word × Bool := (BitVec.ofNat 32 n, false)
  match op with
  | .fadd ty => (cellFp ty (fun x y _ => fvAdd x y) a b c, false)
  | .fmul ty => (cellFp ty (fun x y _ => fvMul x y) a b c, false)
  | .ffma ty => (cellFp ty (fun x y z => fvAdd (fvMul x y) z) a b c, false)
  | .fmin ty => (cellFp ty (fun x y _ => fvMin x y) a b c, false)
  | .fmax ty => (cellFp ty (fun x y _ => fvMax x y) a b c, false)
  | .fcmp ty code => (0, fcmpVal ty code a b)
  | .frnd rm => (frndVal rm a, false)
  | .f2i ty rm => w (f2iVal ty (rmode rm) a)
  | .i2f ty rm => w (i2fVal ty (rmode rm) a.toNat)
  | .ldexpB i => (toF32 (fvMul (ofF32 a) (.fin false 1 (signed 8 (byteOf b i.val)))), false)
  | .iadd => (a + b, false)
  | .isub => (a - b, false)
  | .imul16 => w (a.toNat % 2 ^ 16 * (b.toNat % 2 ^ 16))
  | .lmux t => w (lmuxVal 32 t a.toNat b.toNat c.toNat)
  | .shl => w (shlVal 32 a.toNat b.toNat)
  | .shr sg => w (shrVal (if sg then 1 else 0) a.toNat b.toNat)
  | .bfe sg => w (bfeVal (if sg then 1 else 0) a.toNat b.toNat)
  | .bfi => w (bfiVal 32 a.toNat b.toNat c.toNat)
  | .prmt bs => w (prmtVal bs a b)
  | .popc => w (popcVal 32 a.toNat)
  | .clz => w (clzVal 32 a.toNat)
  | .imin sg => w (wrap 32 (min (cellInt sg a) (cellInt sg b)))
  | .imax sg => w (wrap 32 (max (cellInt sg a) (cellInt sg b)))
  | .icmp code sg => (0, intCmp code (cellInt sg a) (cellInt sg b))
  | .sel => (if f then a else b, false)
  | .fmin3 => (toF32 (fvMin (fvMin (ofF32 a) (ofF32 b)) (ofF32 c)), false)
  | .fmax3 => (toF32 (fvMax (fvMax (ofF32 a) (ofF32 b)) (ofF32 c)), false)
  | .fcmpI code => (0, fcmpVal 4 code a b)
  | .u8f i => (toF32 (fvOfInt (byteOf (if f then b else a) i.val)), false)
  | .un8h2 lo hi => w (unorm16 (byteOf a lo.val) + 2 ^ 16 * unorm16 (byteOf a hi.val))
  | .imul => w (a.toNat * b.toNat % 2 ^ 32)
  | _ => (0, false)

/-- A lookup read: the index is the low bits of the input word, so that it wraps at the entry count (R176). -/
def lutVal (op : CellOp) (table : List Byte) (a : Word) : Word :=
  match op with
  | .read16 sg =>
    let v := bytesNat ((table.drop (2 * (a.toNat % 2048))).take 2)
    BitVec.ofNat 32 (if sg then wrap 32 (signed 16 v) else v)
  | .read8 => BitVec.ofNat 32 (bytesNat ((table.drop (a.toNat % 4096)).take 1))
  | _ => BitVec.ofNat 32 (bytesNat ((table.drop (4 * (a.toNat % 1024))).take 4))

/-! ## The interconnect (R177, R178) -/

/-- Fabric cycles a route takes between quadrants, the way it goes round the ring (R177 item 2). -/
def hopsOf (w : Wire) (dest : Nat) : Nat :=
  if w.up then (quadOf dest + 4 - quadOf w.cell.val) % 4 else (quadOf w.cell.val + 4 - quadOf dest) % 4

/-- The word wires and the flag wire of a cell. -/
def wordWires (c : Cell) : List Wire :=
  ([c.a, c.b, c.c] ++ match c.op with
    | .gather offs _ => offs
    | _ => []).filterMap fun i => match i with
      | .wire w => some w
      | .const _ => none
def flagWires (c : Cell) : List Wire := match c.f with
  | .wire w => [w]
  | .const _ => []

/-- The tracks a wire takes: the output it carries over each edge of the ring, an edge by its lower quadrant and
direction. -/
def tracksOf (w : Wire) (dest : Nat) : List (Nat × Bool × Nat) :=
  (List.range (hopsOf w dest)).map fun k =>
    ((if w.up then quadOf w.cell.val + k else quadOf w.cell.val + 4 - k - 1) % 4, w.up, 8 * w.cell.val + w.out.val)

/-- No edge of the ring carries more than `n` outputs in a direction. -/
def tracksOk (ts : List (Nat × Bool × Nat)) (n : Nat) : Bool :=
  (List.range 4).all fun q => [true, false].all fun up =>
    decide ((((ts.filter fun t => decide (t.1 = q) && t.2.1 == up).map (·.2.2)).dedup).length ≤ n)

/-- No output drives more than 8 inputs (R177 item 3). -/
def fanoutOk (ws : List Wire) : Bool :=
  ws.all fun w => decide ((ws.filter fun v => v.cell == w.cell && v.out == w.out).length ≤ 8)

/-- A configuration of `copies` copies that the fabric can hold: every cell in a place of its type, one setting for
a place, each copy in its quadrants (R172, R178), and the limits of R177 kept. -/
def netOk (net : List Cell) (copies : Nat) : Bool :=
  net.all (fun c => decide (kindOf c.op = kindAt c.place.val) && decide (c.place.val < 128 / copies) &&
    ((wordWires c ++ flagWires c).all fun w => net.any fun s => s.place == w.cell)) &&
  decide ((net.map (·.place)).Nodup) &&
  fanoutOk (net.flatMap wordWires) && fanoutOk (net.flatMap flagWires) &&
  tracksOk (net.flatMap fun c => (wordWires c).flatMap fun w => tracksOf w c.place.val) 32 &&
  tracksOk (net.flatMap fun c => (flagWires c).flatMap fun w => tracksOf w c.place.val) 16

/-! ## One invocation (R174, R179, R180) -/

/-- What an invocation finds: its operands, the scratchpad, the lookup tables by cell, and the interval. -/
structure NetEnv where
  args : Nat → Word
  mem  : Nat → Byte
  lut  : Nat → List Byte
  ii   : Nat

/-- The outputs of the cells in the fabric cycles so far, the latest first. -/
abbrev NetHist := List (List (Nat × List Word × Bool))

/-- What a cell puts out in fabric cycle `t`, of `now` cycles so far. -/
def outAt (h : NetHist) (now cell t : Nat) : Option (List Word × Bool) :=
  ((h[now - 1 - t]?).bind fun l => l.find? fun e => e.1 = cell).map (·.2)

/-- The word at an input in fabric cycle `t`: a constant, or what the route's start put out the hops and the delay
before (R174, R177). -/
def inWord (h : NetHist) (now place t : Nat) : WordIn → Word
  | .const v => v
  | .wire w =>
    let lag := hopsOf w place + w.delay.val
    match (if lag ≤ t then outAt h now w.cell.val (t - lag) else none) with
    | some o => o.1.getD w.out.val (idleWord w.cell.val w.out.val)
    | none => idleWord w.cell.val w.out.val

/-- The flag at an input in fabric cycle `t`. -/
def inFlag (h : NetHist) (now place t : Nat) : FlagIn → Bool
  | .const v => v
  | .wire w =>
    let lag := hopsOf w place + w.delay.val
    match (if lag ≤ t then outAt h now w.cell.val (t - lag) else none) with
    | some o => o.2
    | none => bit (idleWord w.cell.val w.out.val) 0

/-- The byte ranges that a port cell reads with its inputs of fabric cycle `t` (R180): a burst is aligned to its
length, of which the low bits of the offset are not looked at (log 8), and a gather's offsets to 4 bytes. -/
def portReads (h : NetHist) (now t : Nat) (c : Cell) : List (Nat × Nat) :=
  match c.op with
  | .burst len cycles =>
    if cycles.contains t then
      let n := if [4, 8, 16, 32].contains len then len else 4
      [((inWord h now c.place.val t c.a).toNat / n * n, n)]
    else []
  | .gather offs cycles =>
    if cycles.contains t then
      (offs.take 8).map fun o => ((inWord h now c.place.val t o).toNat / 4 * 4, 4)
    else []
  | _ => []

/-- The words of byte ranges of the scratchpad. -/
def portWords (mem : Nat → Byte) (rs : List (Nat × Nat)) : List Word :=
  rs.flatMap fun r => (List.range (r.2 / 4)).map fun i =>
    BitVec.ofNat 32 (bytesNat ((List.range 4).map fun j => mem (r.1 + 4 * i + j)))

/-- What a cell puts out in fabric cycle `now` of an invocation. -/
def cellOut (env : NetEnv) (h : NetHist) (now : Nat) (c : Cell) : List Word × Bool :=
  let lat := latencyOf c.op
  let idle : List Word × Bool := ((List.range 8).map (idleWord c.place.val), bit (idleWord c.place.val 0) 0)
  if now < lat then idle
  else
    let t := now - lat
    let a := inWord h now c.place.val t c.a
    match c.op with
    | .input i => if t < env.ii then ([env.args i.val], bit (env.args i.val) 31) else idle
    | .output _ => ([a], false)
    | .burst _ _ | .gather _ _ =>
      if portReads h now t c = [] then idle else (portWords env.mem (portReads h now t c), false)
    | .read32 | .read16 _ | .read8 => ([lutVal c.op (env.lut (lutOf c.place.val)) a], false)
    | op =>
      let r := cellVal op a (inWord h now c.place.val t c.b) (inWord h now c.place.val t c.c)
        (inFlag h now c.place.val t c.f)
      ([r.1], r.2)

/-- The outputs of the cells over `k` fabric cycles from the entry of the invocation. -/
def netRun (env : NetEnv) (net : List Cell) : Nat → NetHist
  | 0 => []
  | k + 1 =>
    let h := netRun env net k
    net.map (fun c => (c.place.val, cellOut env h k c)) :: h

/-- The scratchpad ranges an invocation reads, in the order of its fabric cycles. -/
def netReads (env : NetEnv) (net : List Cell) (lat : Nat) : List (Nat × Nat) :=
  let h := netRun env net lat
  (List.range lat).flatMap fun t => net.flatMap fun c => portReads h lat t c

/-- The words of lookup tables an invocation reads: cell and 64-bit word of its table (R193). -/
def netLuts (env : NetEnv) (net : List Cell) (lat : Nat) : List (Nat × Nat) :=
  let h := netRun env net lat
  (List.range (lat - 2)).flatMap fun t => net.filterMap fun c =>
    let a := (inWord h lat c.place.val t c.a).toNat
    match c.op with
    | .read32 => some (lutOf c.place.val, 4 * (a % 1024) / 8)
    | .read16 _ => some (lutOf c.place.val, 2 * (a % 2048) / 8)
    | .read8 => some (lutOf c.place.val, a % 4096 / 8)
    | _ => none

/-- The results of an invocation: what each OUT cell has taken when the results leave, `lat` fabric cycles after the
entry (R179). -/
def netResult (env : NetEnv) (net : List Cell) (lat : Nat) : List Word :=
  let h := netRun env net lat
  (List.range 4).map fun j =>
    match net.find? fun c => decide (c.op = .output (Fin.ofNat 4 j)) with
    | some c => inWord h lat c.place.val (lat - 1) c.a
    | none => idleWord 128 j

/-! ## RAYBOX4 (R197) -/

/-- The node's two accesses (R197). -/
def rayReads (args : Nat → Word) : List (Nat × Nat) :=
  let o := (args 0).toNat / 32 * 32
  [(o, 32), (o + 32, 8)]

/-- The slab distance of byte `q` of an axis (R197). -/
def slabDist (q : Nat) (d e : Word) (p od : Word) : FV :=
  let ldexp := toF32 (fvMul (ofF32 d) (.fin false 1 (signed 8 e.toNat)))
  let base := toF32 (fvAdd (fvMul (ofF32 p) (ofF32 d)) (fvNeg (ofF32 od)))
  ofF32 (toF32 (fvAdd (fvMul (fvOfInt q) (ofF32 ldexp)) (ofF32 base)))

/-- The entry distance of child `c`, or +∞ for a miss (R197). -/
def rayChild (args : Nat → Word) (node : Nat → Byte) (c : Nat) : Word :=
  let p (i : Nat) : Word := BitVec.ofNat 32 (bytesNat ((List.range 4).map fun j => node (4 * i + j)))
  let q (hi : Bool) (i : Nat) : Nat := (node (16 + 8 * i + (if hi then 4 else 0) + c)).toNat
  let slab (far : Bool) (i : Nat) : FV :=
    slabDist (q (far != bit (args (1 + i)) 31) i) (args (1 + i)) ((node (12 + i)).setWidth 32) (p i) (args (4 + i))
  let near := fvMax (fvMax (fvMax (slab false 0) (slab false 1)) (slab false 2)) (fvOfInt 0)
  let far := fvMin (fvMin (fvMin (slab true 0) (slab true 1)) (slab true 2)) (ofF32 (args 7))
  if fvLt far near then infF else toF32 near

/-- RAYBOX4 of finite operands (R197). -/
def rayBox4 (args : Nat → Word) (mem : Nat → Byte) : List Word :=
  let o := (args 0).toNat / 32 * 32
  if (List.range 7).all fun i => isFin (ofF32 (args (1 + i))) then
    (List.range 4).map fun c => rayChild args (fun i => mem (o + i)) c
  else shippedFree .rayBox4 ((List.range 8).map args)

/-! ## TEXTRI (R198) -/

/-- A finite FP32 value as a rational; 0 for any other. -/
def ratOf (w : Word) : Rat :=
  match ofF32 w with
  | .fin n m e => (sval n m : Rat) * (if 0 ≤ e then (2 ^ e.toNat : Nat) else 1) / (if 0 ≤ e then 1 else (2 ^ (-e).toNat : Nat))
  | _ => 0

/-- The texel coordinate below a texture coordinate on an axis of `n` texels, and the fraction past it. -/
def texCoord (u : Word) (n : Nat) : Int × Rat :=
  let x := ratOf u * n - (if texCentred then (1 : Rat) / 2 else 0)
  (x.floor, x - x.floor)

/-- The byte offset of texel (x, y) of level `l`, both wrapped (R198). -/
def texelOff (v : TexLevel) (l : Nat) (x y : Int) : Nat :=
  let xs := (x % (v.width : Int)).toNat
  let ys := (y % (v.height : Int)).toNat
  32768 * (v.bank + 4 * (l % 2) + 2 * (ys % 2) + xs % 2) + 4 * (v.base + ys / 2 * (v.width / 2) + xs / 2)

/-- The level and its fraction that a lod names: a finite one that is not negative. -/
def lodOf (w : Word) : Option (Nat × Rat) :=
  if isFin (ofF32 w) && decide (0 ≤ ratOf w) then some ((ratOf w).floor.toNat, ratOf w - (ratOf w).floor) else none

/-- The eight texels of the footprint, levels, rows and columns ascending: offset and weight (R198). -/
def texFoot (tables : List Byte) (args : Nat → Word) : List (Nat × Rat) :=
  match lodOf (args 2) with
  | none => []
  | some (l0, fl) =>
    [0, 1].flatMap fun k =>
      let v := texTable tables ((args 3).toNat % 64) (l0 + k)
      let cx := texCoord (args 0) v.width
      let cy := texCoord (args 1) v.height
      [0, 1].flatMap fun j => [0, 1].map fun i =>
        (texelOff v (l0 + k) (cx.1 + (i : Nat)) (cy.1 + (j : Nat)),
         (if k = 0 then 1 - fl else fl) * (if j = 0 then 1 - cy.2 else cy.2) * (if i = 0 then 1 - cx.2 else cx.2))

/-- The gather of a footprint (R180, R198). -/
def texReads (tables : List Byte) (args : Nat → Word) : List (Nat × Nat) := (texFoot tables args).map fun t => (t.1, 4)

/-- A rational from 0 to 1 as FP16, rounded to nearest. -/
def ratHalf (r : Rat) : Nat := encodeF fp16 .rn false (.fin false (r * 2 ^ 40).floor.toNat (-40))

/-- A channel of TEXTRI: the free value when it lies within 2^−8 of exact trilinear filtering of the unorm values,
else the exact value rounded (R198). -/
def texChannel (args texels : List Word) (ws : List Rat) (ch : Nat) : Nat :=
  let exact : Rat := (((texels.map fun t => ((byteOf t ch : Nat) : Rat) / 255).zip ws).map fun p => p.1 * p.2).sum
  let free := texFree args texels ch
  match decodeF fp16 free.toNat with
  | .fin n m e =>
    let v := ratOf (toF32 (.fin n m e))
    if |v - exact| * 256 ≤ 1 then free.toNat else ratHalf exact
  | _ => ratHalf exact

/-- TEXTRI (R198): R and G, then B and A, as F16x2; the channels of a texel are its bytes in ascending order
(log 8). -/
def texTri (tables : List Byte) (args : Nat → Word) (mem : Nat → Byte) : List Word :=
  let foot := texFoot tables args
  let as := (List.range 4).map args
  if foot = [] then shippedFree .texTri as
  else
    let texels := portWords mem (foot.map fun t => (t.1, 4))
    let ch := texChannel as texels (foot.map (·.2))
    [BitVec.ofNat 32 (ch 0 + 2 ^ 16 * ch 1), BitVec.ofNat 32 (ch 2 + 2 ^ 16 * ch 3)]

end Sys2Proof.Machine
end

