-- ==== Sys2Proof/Machine/Fabric.lean ====
section
/-! DEFINITION. The function fabric (06): FFX and FFX.LDS, the FFX queue, loads and slot switches. The encoding of a
configuration body is not published (R182): the cells it sets are an opaque function of its bytes, and what they do
is Cells.lean (log 8). -/

namespace Sys2Proof.Machine

open Config

/-! ## Images (R182) -/

/-- One step of CRC-32C over a byte. -/
def crcByte (c : BitVec 32) (b : Byte) : BitVec 32 :=
  (List.range 8).foldl (fun c _ => if bit c 0 then (c >>> 1) ^^^ 0x82F63B78 else c >>> 1) (c ^^^ b.setWidth 32)

/-- CRC-32C of a list of bytes. -/
def crc32c (l : List Byte) : BitVec 32 := ~~~(l.foldl crcByte 0xFFFFFFFF)

/-- Little-endian field of `n` bytes at an offset. -/
def fieldAt (l : List Byte) (off n : Nat) : Nat := bytesNat ((l.drop off).take n)

/-- The header of an image is well formed for a descriptor's CONFIG_ID (Table 6.3). -/
def headerOk (h : List Byte) (config : Nat) : Bool :=
  decide (h.length = 64) && decide (fieldAt h 0 4 = 0x31584346) && decide (fieldAt h 4 2 = 1) &&
  [1, 2, 4].contains (fieldAt h 6 1) && decide (1 ≤ fieldAt h 7 1) && decide (fieldAt h 7 1 ≤ 64) &&
  decide (fieldAt h 8 8 = config) && decide (4 ≤ fieldAt h 0x10 1) &&
  decide (1 ≤ fieldAt h 0x11 1) && decide (fieldAt h 0x11 1 ≤ 8) && decide (1 ≤ fieldAt h 0x12 1) &&
  decide (fieldAt h 0x12 1 ≤ 4) && decide (fieldAt h 0x13 1 = 0) && decide (fieldAt h 0x16 2 = 0) &&
  decide (64 ≤ fieldAt h 0x18 4) && decide (fieldAt h 0x18 4 ≤ 49152) && decide (fieldAt h 0x18 4 % 64 = 0) &&
  decide (fieldAt h 0x1C 4 = 4096 * ((List.range 16).filter fun i => (fieldAt h 0x14 2).testBit i).length) &&
  ((h.drop 0x20).take 28).all fun b => b = 0

/-- The slot a header and its bodies give. -/
def slotOf (h body : List Byte) : FfxSlot :=
  { valid := true, loading := false, config := BitVec.ofNat 64 (fieldAt h 8 8), copies := fieldAt h 6 1,
    ii := fieldAt h 7 1, lat := fieldAt h 0x10 1, nIn := fieldAt h 0x11 1, nOut := fieldAt h 0x12 1,
    lutMask := BitVec.ofNat 16 (fieldAt h 0x14 2), cfgBytes := fieldAt h 0x18 4, body := body,
    ends := none }

/-! ## Descriptors and slots -/

def ldsSrc (d : BitVec 128) : Nat := bits d 0 39
def ldsForce (d : BitVec 128) : Bool := bit d 39
def ldsSlot (d : BitVec 128) : Nat := bits d 40 2
def ldsConfig (d : BitVec 128) : D64 := BitVec.ofNat 64 (bits d 64 64)

def getSlot (f : Ffx) (s : Nat) : FfxSlot := mapGet emptySlot f.slots s
def putSlot (f : Ffx) (s : Nat) (v : FfxSlot) : Ffx := { f with slots := mapPut emptySlot f.slots s v }
def putFfx (d : Dev) (n : Nat) (f : Ffx) : Dev := putCore d n { getCore d n with ffx := f }

/-- The other slots that claim a lookup cell of a mask: VALID ones, and those that an earlier load has ended. -/
def claimants (f : Ffx) (s : Nat) (mask : BitVec 16) : List Nat :=
  (List.range 4).filter fun i => i != s && ((getSlot f i).valid || (getSlot f i).ends.isSome) &&
    decide ((getSlot f i).lutMask &&& mask ≠ 0)

/-- A load that takes lookup cells makes the slots that claim them not VALID (R184). -/
def endClaimants (f : Ffx) (s id : Nat) (mask : BitVec 16) : Ffx :=
  (claimants f s mask).foldl (fun f i =>
    let v := getSlot f i
    putSlot f i { v with valid := false, ends := some (v.ends.getD id) }) f

/-- Every slot not VALID and S0 active (R186); a load that runs goes on. -/
def clearSlots (f : Ffx) : Ffx :=
  (List.range 4).foldl (fun f i => putSlot f i { emptySlot with loading := (getSlot f i).loading }) { f with active := 0 }

/-- A slot on which an FFX may run: a VALID one, or one that a load issued behind the FFX has ended (R184). -/
def runsOn (v : FfxSlot) (id : Nat) : Bool := v.valid || (match v.ends with
  | some e => decide (id < e)
  | none => false)

/-- The bytes of device memory as their homes hold them, without an access: what the image of a queued
load shows before it is fetched (R191). -/
def peekBytes (d : Dev) (addr n : Nat) : Option (List Byte) :=
  (List.range n).foldl (fun s i =>
    match s with
    | none => none
    | some l =>
      let a := addr + i
      let e := pmapEntry d (a / 2 ^ 20)
      if !pteMaps d e || pteRetired e then none
      else match (if pteCacheable e then findLine d (homeOf e (a / 128)) (a / 128) else none) with
        | some c => if c.poison then none else some (l ++ [lineByte c.data (a % 128)])
        | none => some (l ++ [memByte d (pteFrame e) (a % 2 ^ 20)])) (some [])

/-- The slots that the queued loads will leave (R191): one whose image's header is not good leaves its slot not
VALID. -/
def queuedFfx (d : Dev) (f : Ffx) : Ffx :=
  (f.q.filter fun o => o.lds).foldl (fun f o =>
    if (getSlot f o.target).valid && decide ((getSlot f o.target).config = ldsConfig o.desc) &&
        !ldsForce o.desc && !o.started then f
    else
      let h := if o.started then o.head else (peekBytes d (ldsSrc o.desc) 64).getD []
      if headerOk h (ldsConfig o.desc).toNat then
        putSlot (endClaimants f o.target o.id (slotOf h []).lutMask) o.target (slotOf h [])
      else putSlot f o.target emptySlot) f

/-- A slot is the target of a queued load. -/
def loadQueued (f : Ffx) (s : Nat) : Bool := f.q.any fun o => o.lds && decide (o.target = s)

/-- The first failed load of a slot by a group, issued before `id` (R192). -/
def failOf (f : Ffx) (uid s id : Nat) : Option FfxFail :=
  f.fails.find? fun e => decide (e.uid = uid) && decide (e.slot = s) && decide (e.id < id)

def dropFail (f : Ffx) (e : FfxFail) : Ffx := { f with fails := f.fails.filter fun x => x.id != e.id }

/-! ## Issue (R187 to R191) -/

/-- The task that issues was launched with USES_FFX (R186). -/
def taskFfx (c : Core) (pos : Bool) : Bool :=
  match getTask c pos with
  | some t => t.usesFfx
  | none => false

def ffxSlot (f : FmtR) : Nat := bits f.func 0 2
def ffxNo (f : FmtR) : Nat := bits f.mod 5 3 + 1
def ffxNr (f : FmtR) : Nat := bits f.mod 3 2 + 1

/-- The field checks of FFX; its register ranges are runs without alignment (R191). -/
def ffxForm (f : FmtR) : Form :=
  { guard := f.guard, code := codeR f,
    legal := decide (f.b = 0) && decide (f.c = 0) && decide (f.bsel = 0) && decide (f.func.toNat < 4) &&
      decide (bits f.mod 0 3 = 0),
    regs := [.xs f.a.toNat (ffxNo f), .xs f.d.toNat (ffxNr f)], outs := [.xs f.d.toNat (ffxNr f)],
    words := 1, needFfx := true }

/-- Thread register `i` of a run from `r`. -/
def runReg (r i : Nat) : Nat := if r = 255 then 255 else r + i

/-- FFX enters the FFX queue with its operands read (R185, R188). -/
def ffx (x : At) (f : FmtR) : Dev → Option Dev :=
  issue x ((ffxForm f).op 0xB0 .mx) fun l d =>
    let c := getCore d l.core
    let s := ffxSlot f
    let no := ffxNo f
    let nr := ffxNr f
    if lanesOf l.run = [] then some (commit d l 1 l.g)
    else match failOf c.ffx l.g.uid s d.nextId with
    | some e =>
      some (issueFault (putFfx d l.core (dropFail c.ffx e)) l e.code
        (if e.code = 0x0E then l.pc.toNat else e.addr.toNat) l.run)
    | none =>
      let v := getSlot (queuedFfx d c.ffx) s
      if !v.valid && !loadQueued c.ffx s then some (issueFault d l 0x0E l.pc.toNat l.run)
      else if v.valid && (decide (v.nIn < no) || decide (v.nOut < nr)) then
        some (issueFault d l 0x0F l.pc.toNat l.run)
      else
        let (id, d) := takeId d
        let o : FfxOp :=
          { id := id, uid := l.g.uid, slot := l.slot, pos := l.g.pos, pc := l.pc, lds := false, target := s,
            desc := 0, started := false, head := [], bad := none, dreg := f.d.toNat, nres := nr,
            args := (lanesOf l.run).map fun t =>
              (t, (List.range no).map fun i => readX l.g (runReg f.a.toNat i) t) }
        let d := commit d l 1 l.g
        let c := getCore d l.core
        some (putFfx d l.core { c.ffx with q := c.ffx.q ++ [o] })

/-- The form of FFX.LDS (R127, R187). -/
def ffxLdsForm (f : FmtR) : Form := { descForm f with needFfx := true }

/-- FFX.LDS enters the FFX queue (R183, R185). Its SRC is a 39-bit device address, which lies in the window with
the 64 bytes from it when it is aligned. -/
def ffxLds (x : At) (f : FmtR) : Dev → Option Dev :=
  issue x ((ffxLdsForm f).op 0xB1 .mx) fun l d =>
    let desc := readUQuad l.g f.a.toNat
    if bits desc 42 22 ≠ 0 then some (issueFault d l 0x03 l.pc.toNat l.act)
    else if ldsSrc desc % 64 ≠ 0 then some (issueFault d l 0x06 (ldsSrc desc) l.act)
    else
      let (id, d) := takeId d
      let o : FfxOp :=
        { id := id, uid := l.g.uid, slot := l.slot, pos := l.g.pos, pc := l.pc, lds := true,
          target := ldsSlot desc, desc := desc, started := false, head := [], bad := none, dreg := 255,
          nres := 0, args := [] }
      let d := commit d l 1 l.g
      let c := getCore d l.core
      some (putFfx d l.core { c.ffx with q := c.ffx.q ++ [o] })

/-! ## Loads (R183, R184) -/

/-- An FFX queued ahead of `id` on a slot of a list. -/
def ffxAhead (f : Ffx) (id : Nat) (ss : List Nat) : Bool :=
  f.q.any fun o => !o.lds && decide (o.id < id) && ss.contains o.target

/-- Remove a queue entry. -/
def dropFfx (f : Ffx) (id : Nat) : Ffx := { f with q := f.q.filter fun o => o.id != id }

/-- Read the header of an image in class TC5: it, or the cause of failure and its address (R182, R183, R192). -/
def fetchHead (d : Dev) (n : Nat) (desc : BitVec 128) : Sum (Nat × Nat) (List Byte) × Dev :=
  let a := ldsSrc desc
  let (h, d) := readCoreMem d n 5 a 64
  (if h.1 ≠ 0 then .inl (statusFault h.1, a)
   else if !headerOk h.2 (ldsConfig desc).toNat then .inl (0x0E, a)
   else .inr h.2, d)

/-- Read the bodies of an image whose header is read: its slot, or the cause of failure and its address. -/
def fetchBody (d : Dev) (n : Nat) (desc : BitVec 128) (h : List Byte) : Sum (Nat × Nat) FfxSlot × Dev :=
  let a := ldsSrc desc
  let (b, d) := readCoreMem d n 5 (a + 64) (fieldAt h 0x18 4 + fieldAt h 0x1C 4)
  (if b.1 ≠ 0 then .inl (statusFault b.1, a + 64)
   else if (crc32c (h.take 0x3C ++ [0, 0, 0, 0] ++ b.2)).toNat ≠ fieldAt h 0x3C 4 then .inl (0x0E, a)
   else .inr (slotOf h b.2), d)

/-- FFX_LOAD_START: the oldest queued load begins; a load of the configuration that its slot holds
completes at once (R183, R185). The slots whose lookup cells the image takes become not VALID (R184). -/
def ffxLoadStart (core : BitVec 11) (d : Dev) : Option Dev :=
  let n := core.toNat
  let f := (getCore d n).ffx
  match f.q.find? fun o => o.lds with
  | none => none
  | some o =>
    let v := getSlot f o.target
    if !coreUp d n || o.started || ffxAhead f o.id [o.target] || !budgetOk d n then none
    else if v.valid && decide (v.config = ldsConfig o.desc) && !ldsForce o.desc then
      some (putFfx d n (dropFfx f o.id))
    else
      let (h, d) := fetchHead d n o.desc
      let f := (getCore d n).ffx
      let mark (o' : FfxOp) : Ffx := { f with q := f.q.map fun e => if e.id = o.id then o' else e }
      let f := match h with
        | .inl e => mark { o with started := true, bad := some e }
        | .inr h => endClaimants (mark { o with started := true, head := h }) o.target o.id (slotOf h []).lutMask
      some (putFfx d n (putSlot f o.target { emptySlot with loading := true }))

/-- A load that fails leaves its slot not VALID and its cause with its group (R192). -/
def failLoad (d : Dev) (n : Nat) (o : FfxOp) (e : Nat × Nat) : Dev :=
  let f := dropFfx (getCore d n).ffx o.id
  putFfx d n { putSlot f o.target emptySlot with
    fails := f.fails ++ [{ id := o.id, uid := o.uid, pos := o.pos, slot := o.target, code := e.1,
                           addr := BitVec.ofNat 64 e.2 }] }

/-- A load that has passed: the slot is VALID, its words and those of its tables have good check bits, and the slots
that it ended are no more. -/
def passLoad (d : Dev) (n : Nat) (o : FfxOp) (v : FfxSlot) : Dev :=
  let f := (claimants (getCore d n).ffx o.target v.lutMask).foldl (fun f i => putSlot f i emptySlot) (getCore d n).ffx
  let d := dropMarks d 0x09 n (o.target * 2 ^ 16) ((o.target + 1) * 2 ^ 16) fun _ => true
  let d := dropMarks d 0x09 n (2 ^ 20) (17 * 2 ^ 20) fun x => bit v.lutMask (x / 2 ^ 20 - 1)
  putFfx (writeWord d 6 0x09 n (o.target * 2 ^ 16)) n (putSlot (dropFfx f o.id) o.target v)

/-- FFX_LOAD_COMPLETE: the running load has fetched and checked its image (R183); it waits for the FFX
queued ahead on slots whose lookup cells it takes (R184). -/
def ffxLoadComplete (core : BitVec 11) (d : Dev) : Option Dev :=
  let n := core.toNat
  let f := (getCore d n).ffx
  match f.q.find? fun o => o.lds && o.started with
  | none => none
  | some o =>
    if !coreUp d n || !budgetOk d n then none
    else match o.bad with
    | some e => some (failLoad d n o e)
    | none =>
      if ffxAhead f o.id (claimants f o.target (slotOf o.head []).lutMask) then none
      else match fetchBody d n o.desc o.head with
      | (.inl e, d) => some (failLoad d n o e)
      | (.inr v, d) => some (passLoad d n o v)

/-! ## Switches and completion (R185, R188, R190 to R193) -/

/-- The oldest queued FFX. -/
def nextFfx (f : Ffx) : Option FfxOp := f.q.find? fun o => !o.lds

/-- An FFX waits for every earlier load into its slot (R185). -/
def ffxLoading (f : Ffx) (o : FfxOp) : Bool :=
  f.q.any fun e => e.lds && decide (e.id < o.id) && decide (e.target = o.target)

/-- FFX_SLOT_SWITCH: the next FFX names a slot other than the active one, which then becomes active
(R185 item 3). -/
def ffxSlotSwitch (core : BitVec 11) (d : Dev) : Option Dev :=
  let n := core.toNat
  let f := (getCore d n).ffx
  match nextFfx f with
  | some o =>
    if coreUp d n && decide (o.target ≠ f.active) && !ffxLoading f o then
      some (putFfx d n { f with active := o.target })
    else none
  | none => none

/-- The FFX in flight: those at the head of the queue that need no load and no switch (R185, R193). -/
def ffxRunning (f : Ffx) : List FfxOp :=
  (f.q.filter fun o => !o.lds).takeWhile fun o => decide (o.target = f.active) && !ffxLoading f o

/-- A switch is under way: the next FFX names another slot and waits for no load (R185 item 3). -/
def ffxSwitching (f : Ffx) : Bool := match nextFfx f with
  | some o => decide (o.target ≠ f.active) && !ffxLoading f o
  | none => false

/-- The scratchpad accesses of one invocation, each an offset and a length: its first fault of Table 6.7 with the
access's offset. -/
def fabricAccess (d : Dev) (n : Nat) (pos : Bool) (rs : List (Nat × Nat)) : Option (Nat × Nat) × Dev :=
  let c := getCore d n
  let hit (p : Nat × Nat → Bool) (code : Nat) : Option (Nat × Nat) := (rs.find? p).map fun r => (code, r.1)
  let bankIs (code : Nat) (r : Nat × Nat) : Bool :=
    decide (banksFault c pos true c.spx.owner portFabric (banksIn r) = some code)
  match hit (fun r => decide (0x80000 < r.1 + r.2)) 0x0A with
  | some e => (some e, d)
  | none => match hit (bankIs 0x0B) 0x0B with
    | some e => (some e, d)
    | none => match hit (bankIs 0x0C) 0x0C with
      | some e => (some e, d)
      | none =>
        rs.foldl (fun (s : Option (Nat × Nat) × Dev) r =>
          let (v, d) := spxGets s.2 n r.1 r.2
          (match s.1, v with
           | none, none => some (0x11, r.1)
           | e, _ => e, d)) (none, d)

/-- The 4 KiB table of a lookup cell in an image's lookup body: the cells of LUT_MASK in ascending order. -/
def lutTable (v : FfxSlot) (cell : Nat) : List Byte :=
  (v.body.drop (v.cfgBytes + 4096 * ((List.range cell).filter fun i => bit v.lutMask i).length)).take 4096

/-- The shipped image in a slot: the one that its CONFIG_ID names, with the figures of Table 6.11 (R196). -/
def shippedOf (v : FfxSlot) : Option Shipped :=
  match shippedAs v.config with
  | some .rayBox4 =>
    if v.nIn = 8 ∧ v.nOut = 4 ∧ v.copies = 1 ∧ v.ii = 1 ∧ v.lat = 18 then some .rayBox4 else none
  | some .texTri =>
    if v.nIn = 4 ∧ v.nOut = 2 ∧ v.copies = 1 ∧ v.ii = 1 ∧ v.lat = 36 then some .texTri else none
  | none => none

/-- The cells of a slot's copy, if the fabric can hold them (R172, R177, R178). -/
def slotNet (v : FfxSlot) : List Cell :=
  if netOk (fabricNet (v.body.take v.cfgBytes)) v.copies then fabricNet (v.body.take v.cfgBytes) else []

/-- One invocation with its operands and the scratchpad's bytes: the accesses it makes, the words of lookup tables
it reads, and its results (R174, R180, R181). -/
def invocation (v : FfxSlot) (args : Nat → Word) (mem : Nat → Byte) : List (Nat × Nat) × List (Nat × Nat) × List Word :=
  let tables := v.body.drop v.cfgBytes
  match shippedOf v with
  | some .rayBox4 => (rayReads args, [], rayBox4 args mem)
  | some .texTri => (texReads tables args, [], texTri tables args mem)
  | none =>
    let env : NetEnv := { args := args, mem := mem, lut := lutTable v, ii := v.ii }
    (netReads env (slotNet v) v.lat, netLuts env (slotNet v) v.lat, netResult env (slotNet v) v.lat)

/-- The check of the lookup words that an invocation reads (R193). -/
def lutCheck (d : Dev) (n : Nat) (ws : List (Nat × Nat)) : Bool × Dev :=
  readMarks d n 0x09 (2 ^ 20) (17 * 2 ^ 20) (fun x => ws.contains (x / 2 ^ 20 - 1, x % 2 ^ 20))
    fun x => (x / 2 ^ 20 - 1, x % 2 ^ 20)

/-- The invocations of an FFX, one for each lane: faults by lane, results by lane, and whether a lookup word had an
uncorrectable error (R188, R193). -/
def invoke (d : Dev) (n : Nat) (o : FfxOp) (v : FfxSlot) :
    List (Nat × Nat × Nat) × List (Nat × List Word) × Bool × Dev :=
  o.args.foldl (fun s a =>
    let d := s.2.2.2
    let i := invocation v (fun i => a.2.getD i 0) (fun x => mapGet 0 (getCore d n).spx.bytes x)
    let (r, d) := fabricAccess d n o.pos i.1
    match r with
    | some e => (s.1 ++ [(a.1, e)], s.2.1, s.2.2.1, d)
    | none =>
      let (bad, d) := lutCheck d n i.2.1
      if bad then (s.1 ++ [(a.1, 0x11, 0)], s.2.1, true, d)
      else (s.1, s.2.1 ++ [(a.1, i.2.2)], s.2.2.1, d)) ([], [], false, d)

/-- The fault of Table 3.18's order among the lanes' faults, with its lanes and the lowest lane's
offset. -/
def firstFault (es : List (Nat × Nat × Nat)) : Option (Nat × List Nat × Nat) :=
  match es with
  | [] => none
  | e :: rest =>
    let code := rest.foldl (fun c x => min c x.2.1) e.2.1
    let hit := es.filter fun x => decide (x.2.1 = code)
    some (code, hit.map (·.1), (hit.map (·.2.2)).headD 0)

/-- An FFX that faults at run: it leaves the queue and its group takes the fault, recorded also behind an earlier
one (R192, 03 R109). -/
def ffxFault (d : Dev) (n : Nat) (o : FfxOp) (code addr lanes : Nat) : Dev :=
  let c := getCore d n
  takeFault (putFfx d n (dropFfx c.ffx o.id)) n o.slot o.uid o.pos o.id code o.pc.toNat addr lanes

/-- The check of the active slot's words as an FFX uses them (R193): whether they are good. -/
def checkSlot (d : Dev) (n s : Nat) : Bool × Dev :=
  let r := readMarks d n 0x09 (s * 2 ^ 16) ((s + 1) * 2 ^ 16) (fun _ => true) fun x => (x / 2 ^ 16, x % 2 ^ 16)
  (!r.1, r.2)

/-- The lanes of an FFX as a mask. -/
def ffxLanes (o : FfxOp) : Nat := laneMask (perLane fun t => o.args.any fun a => a.1 = t)

/-- An uncorrectable error in the active slot: every FFX in flight faults, and the slots are cleared (R186, R193). -/
def slotUe (d : Dev) (n : Nat) : Dev :=
  let d := (ffxRunning (getCore d n).ffx).foldl (fun d o => ffxFault d n o 0x11 o.pc.toNat (ffxLanes o)) d
  putFfx (dropMarks d 0x09 n 0 (17 * 2 ^ 20) fun _ => true) n (clearSlots (getCore d n).ffx)

/-- The results of an FFX enter its group's registers (R188). -/
def ffxWrite (c : Core) (o : FfxOp) (rs : List (Nat × List Word)) : Core :=
  match getGroup c o.slot with
  | some g =>
    if g.uid = o.uid then
      putGroup c o.slot (some ((List.range o.nres).foldl (fun g j =>
        writeX g (runReg o.dreg j) (perLane fun t => rs.any fun r => r.1 = t) fun t =>
          ((rs.find? fun r => r.1 = t).map fun r => r.2.getD j 0).getD 0) g))
    else c
  | none => c

/-- FFX_COMPLETE: the oldest FFX has run on the active slot and its results are written (R188, R190). An
uncorrectable lookup word also clears the slots (R186, R193). -/
def ffxComplete (core : BitVec 11) (d : Dev) : Option Dev :=
  let n := core.toNat
  let c := getCore d n
  match nextFfx c.ffx with
  | none => none
  | some o =>
    if !coreUp d n || decide (o.target ≠ c.ffx.active) || ffxLoading c.ffx o ||
        c.spx.hands.any (fun h => decide (h.id < o.id)) then none
    else match failOf c.ffx o.uid o.target o.id with
    | some e =>
      some (ffxFault (putFfx d n (dropFail c.ffx e)) n o e.code
        (if e.code = 0x0E then o.pc.toNat else e.addr.toNat) (ffxLanes o))
    | none =>
      let v := getSlot c.ffx o.target
      if !runsOn v o.id then some (ffxFault d n o 0x0E o.pc.toNat (ffxLanes o))
      else if v.nIn < (o.args.map fun a => a.2.length).headD 0 ∨ v.nOut < o.nres then
        some (ffxFault d n o 0x0F o.pc.toNat (ffxLanes o))
      else
        let (good, d) := checkSlot d n o.target
        if !good then some (slotUe d n)
        else
          let (es, rs, lut, d) := invoke d n o v
          let d := match firstFault es with
            | some e => ffxFault d n o e.1 e.2.2 (laneMask (perLane fun t => e.2.1.contains t))
            | none =>
              let c := getCore d n
              putCore d n (ffxWrite { c with ffx := dropFfx c.ffx o.id } o rs)
          some (if lut then putFfx d n (clearSlots (getCore d n).ffx) else d)

/-! ## The commands of this family -/

/-- FFX (06 R189). -/
def execFfx (x : At) (f : FmtR) (s : State) : Host.Outcome State Fault Refusal := gated s "FFX" (ffx x f s.dev)
/-- FFX_LDS (06 R183). -/
def execFfxLds (x : At) (f : FmtR) (s : State) : Host.Outcome State Fault Refusal :=
  gated s "FFX_LDS" (ffxLds x f s.dev)
/-- FFX_LOAD_START (06 R185). -/
def execFfxLoadStart (core : BitVec 11) (s : State) : Host.Outcome State Fault Refusal :=
  gated s "FFX_LOAD_START" (ffxLoadStart core s.dev)
/-- FFX_LOAD_COMPLETE (06 R183). -/
def execFfxLoadComplete (core : BitVec 11) (s : State) : Host.Outcome State Fault Refusal :=
  gated s "FFX_LOAD_COMPLETE" (ffxLoadComplete core s.dev)
/-- FFX_SLOT_SWITCH (06 R185). -/
def execFfxSlotSwitch (core : BitVec 11) (s : State) : Host.Outcome State Fault Refusal :=
  gated s "FFX_SLOT_SWITCH" (ffxSlotSwitch core s.dev)
/-- FFX_COMPLETE (06 R189). -/
def execFfxComplete (core : BitVec 11) (s : State) : Host.Outcome State Fault Refusal :=
  gated s "FFX_COMPLETE" (ffxComplete core s.dev)

end Sys2Proof.Machine
end

