-- ==== Sys2Proof/Machine/CacheOps.lean ====
section
/-! DEFINITION. Cache die maintenance (08 R254 to R260), the page map window, shootdowns, controller
events and the scrubber (09). -/

namespace Sys2Proof.Machine

/-- A write that a rule says is ignored and logged: FIRMWARE record 0x02 (15 Table 15.2), made by the
control processor core CP1 (R454; log 18). -/
def ignored (d : Dev) (addr : Nat) (v : D64) : Dev := fwRecord d 1 0x02 addr v.toNat 0

/-! ## Counters and thrash detection (08 R254, R255, R259) -/

def thrashKey (h k : Nat) : Nat := 8 * h + k
def getThrash (d : Dev) (h k : Nat) : Thrash := mapGet freshThrash d.thrash (thrashKey h k)
def putThrash (d : Dev) (h k : Nat) (t : Thrash) : Dev :=
  { d with thrash := mapPut freshThrash d.thrash (thrashKey h k) t }

/-- Counter `e` of class `k` of half `h` (08 Table 8.14). -/
def cnt (d : Dev) (h k e : Nat) : Nat := regField d (aCnt h k e) 0 48

/-- The difference of two 48-bit counter values. -/
def since (now start : Nat) : Nat := (now + 2 ^ 48 - start % 2 ^ 48) % 2 ^ 48

/-- THRASH_WINDOW_END: the window of class `k` in half `h` is evaluated (08 R255). -/
def thrashWindowEnd (half : BitVec 1) (cls : BitVec 3) (d : Dev) : Dev :=
  let h := half.toNat
  let k := cls.toNat
  let t := getThrash d h k
  let cfg := regGet d (aThrashCfg h k)
  let hits := since (cnt d h k 0) t.hits0
  let misses := since (cnt d h k 1) t.miss0
  let a := hits + misses
  let high := decide (2 ^ bits cfg 24 4 ≤ a) && decide (bits cfg 0 8 * a < misses * 256)
  let run := if high then min (t.run + 1) 15 else 0
  let armed := if high then t.armed else true
  let above := decide (max (bits cfg 20 4) 1 ≤ run)
  let raise := above && armed && bit cfg 31
  let d := regSet d (aThrashStatus h) k 1 (b2n above)
  let d := if raise then
      regSet (event d (src 1 (1024 * h)) 0x0302 h k hits misses) (aThrashStatus h) (8 + k) 1 1
    else d
  putThrash d h k { hits0 := cnt d h k 0, miss0 := cnt d h k 1, run := run, armed := armed && !raise }

/-- Clear the six counters of one class; the window under way keeps counting from where it was. -/
def clearClass (h : Nat) (d : Dev) (k : Nat) : Dev :=
  let t := getThrash d h k
  let d := putThrash d h k { t with hits0 := since t.hits0 (cnt d h k 0), miss0 := since t.miss0 (cnt d h k 1) }
  (List.range 6).foldl (fun d e => regSet d (aCnt h k e) 0 48 0) d

/-- CNT_CLEAR: a write of CDC_CNT_CLEAR (08 R259). -/
def cntClear (half : BitVec 1) (v : D64) (d : Dev) : Dev :=
  ((List.range 8).filter fun k => bit v k).foldl (clearClass half.toNat) d

/-! ## WRITEBACK_ALL (08 R256) -/

/-- The slices of a half that hold a line. -/
def slicesOf (d : Dev) (h : Nat) : List Nat := (d.slices.map (·.1)).filter fun s => halfOf s = h

/-- Write a dirty line of a sweep back in TC7 and leave it clean; one that its read poisons is skipped. -/
def sweepLine (s i : Nat) (x : Nat × Dev) (c : CLine) : Nat × Dev :=
  match readBack x.2 s 7 c with
  | (some y, d) => if y.poison then (x.1, d)
    else (x.1 + 1, putSet d s i ((getSet d s i).map fun z => if z = y then { y with dirty := false } else z))
  | (none, d) => (x.1, d)

/-- Sweep one set of a slice: dirty lines are written back and left clean, then unpinned lines are dropped
when DROP_CLEAN is 1; poisoned lines are skipped. Counts the lines written. -/
def sweepSet (drop : Bool) (i : Nat) (x : Nat × Dev) (s : Nat) : Nat × Dev :=
  let (n, d) := ((getSet x.2 s i).filter fun c => c.dirty && !c.poison).foldl (sweepLine s i) x
  (n, if drop then putSet d s i ((getSet d s i).filter fun c => c.pinned || c.poison) else d)

/-- Sweep `n` further sets of every slice of a half, in ascending order (08 R256). -/
def sweepHalf (h n : Nat) (d : Dev) : Dev :=
  let done := regField d (aWbStatus h) 32 12
  let next := min 3072 (done + n)
  let (k, d) := ((List.range (next - done)).map (done + ·)).foldl (fun x i =>
    (slicesOf x.2 h).foldl (sweepSet (bit (regGet d (aWbCtrl h)) 1) i) x) (0, d)
  regSat (regSet d (aWbStatus h) 32 12 next) (aWbStatus h) 0 32 k

/-- A microsecond of the sweeps under way: one set of every slice of the half, so that a sweep takes 3.072 ms (log
17). -/
def sweepTick (d : Dev) : Dev :=
  [0, 1].foldl (fun d h => if bit (regGet d (aWbStatus h)) 63 then sweepHalf h 1 d else d) d

/-- WRITEBACK_ALL: a write of CDC_WB_CTRL; START begins a sweep when none runs (08 R256). -/
def writebackAll (half : BitVec 1) (v : D64) (d : Dev) : Dev :=
  let h := half.toNat
  let d := regSet d (aWbCtrl h) 1 1 (bits v 1 1)
  if bit v 0 && !bit (regGet d (aWbStatus h)) 63 then
    regSet (regSet (regSet d (aWbStatus h) 63 1 1) (aWbStatus h) 32 12 0) (aWbStatus h) 0 32 0
  else d

/-- WRITEBACK_ALL_DONE: every slice has swept every set (08 R256). The sets that no microsecond between has swept are
swept in this step (log 17). -/
def writebackAllDone (half : BitVec 1) (d : Dev) : Option Dev :=
  let h := half.toNat
  if bit (regGet d (aWbStatus h)) 63 then
    let d := sweepHalf h 3072 d
    some (regSet (regSet d (aWbStatus h) 63 1 0) (aWbStatus h) 62 1 1)
  else none

/-! ## Retiring a bank (08 R226, R244, R260) -/

/-- Unpin the lines of the highest-numbered pinned way of a set that holds more pinned ways than
WAYS − 4 (R244 item 2). -/
def trimPins (s : Nat) (d : Dev) (i : Nat) : Dev :=
  let ls := getSet d s i
  if waysOf (getSlice d s) - 4 < pinWays ls then
    match ((List.range 16).filter fun w => pinnedWay ls w).getLast? with
    | some w =>
      let gone := ls.filter fun c => decide (c.way = w) && c.pinned
      let d := putSet d s i (ls.map fun c => if decide (c.way = w) then { c with pinned := false } else c)
      gone.foldl (fun d c => pinEvicted d s c.line) d
    | none => d
  else d

/-- Evict the lines of a way of one set: written back if dirty and counted (R244, R254); a pinned line that leaves so
is reported. Poisoned lines lie in no way. -/
def evictSet (s w : Nat) (d : Dev) (i : Nat) : Dev :=
  let d := ((getSet d s i).filter fun c => decide (c.way = w)).foldl (fun d c =>
    let d := evict d s c
    if c.pinned && (findLine d s c.line).isNone then pinEvicted d s c.line else d) d
  putSet d s i ((getSet d s i).filter fun c => c.way != w)

/-- Evict the lines of a way in every set of the slice. -/
def evictWay (d : Dev) (s w : Nat) : Dev := ((getSlice d s).sets.map (·.1)).foldl (evictSet s w) d

/-- Retire bank `b` of slice `s`: whether it had an effect, and the state after (R260). -/
def retireBank (d : Dev) (s b : Nat) : Bool × Dev :=
  let v := getSlice d s
  let bad := (false, d)
  let leave (w : Nat) : Bool × Dev :=
    if waysOf v ≤ 8 then bad
    else
      let d := evictWay d s w
      let v := getSlice d s
      let d := putSlice d s { v with retired := setBits v.retired b 1 1, out := setBits v.out w 1 1 }
      (true, (((getSlice d s).sets.map (·.1)).foldl (trimPins s) d))
  if 16 < b ∨ bit v.retired b then bad
  else if b = 16 then
    if v.spareFor = 31 then (true, putSlice d s { v with retired := setBits v.retired 16 1 1 })
    else leave v.spareFor
  else if v.spareFor = 31 ∧ !bit v.retired 16 then
    let d := evictWay d s b
    let v := getSlice d s
    (true, putSlice d s { v with retired := setBits v.retired b 1 1, spareFor := b })
  else leave b

/-- BANK_RETIRE: a write of CDC_SLICE_s; a retirement without effect is logged (R260). -/
def bankRetire (slice : BitVec 11) (v : D64) (d : Dev) : Dev :=
  if bit v 5 then
    let (done, d) := retireBank d slice.toNat (bits v 0 5)
    if done then d
    else ignored d (cdcw (slice.toNat / 1024) + 0x80000 + 8 * (slice.toNat % 1024)) v
  else d

/-! ## The page map window and shootdowns (09 R265, R270 to R272) -/

/-- PAGE_MAP_WRITE: a 64-bit write replaces the entry; a narrower one is ignored and logged (R265). -/
def pageMapWrite (page : BitVec 19) (bytes : BitVec 4) (v : D64) (d : Dev) : Dev :=
  if bytes.toNat = 8 then writePage d page.toNat v
  else ignored d (0x7B0000000000 + 8 * page.toNat) v

/-- Drop translation cache copies of a page, or all of them (R270 step 1). -/
def dropCopies (d : Dev) (page : Nat) (all : Bool) : Dev :=
  let keep (x : Nat × D64) : Bool := !all && x.1 != page
  let d := { d with btc := d.btc.filter keep }
  (d.cores.map (·.1)).foldl (fun d n =>
    let c := getCore d n
    putCore d n { c with tlb := c.tlb.filter keep }) d

/-- Begin a shootdown of a page (R270 steps 1 and 2): the accesses translated with a dropped copy are
those of the page that have not been performed. -/
def startShoot (d : Dev) (page : Nat) (all flush : Bool) : Dev :=
  let waits := (d.reqs.filter fun r => unperformed r && (all || decide (pageOfLine r.line = page))).map (·.id)
  { dropCopies d page all with shoot := some { page := page, all := all, flush := flush, waits := waits } }

/-- SHOOTDOWN_START: a write of PGM_SHOOTDOWN; a START while BUSY is ignored (R272). -/
def shootdownStart (v : D64) (d : Dev) : Dev :=
  let d := regSet (regSet (regSet d aShoot 0 19 (bits v 0 19)) aShoot 32 2 (bits v 32 2)) aShoot 62 1
    (if bit v 62 then 0 else regField d aShoot 62 1)
  if bit v 34 && !bit (regGet d aShoot) 63 then
    regSet (startShoot d (bits v 0 19) (bit v 32) (bit v 33)) aShoot 63 1 1
  else d

/-- Drop the page's lines of one set: dirty ones are written back in TC7, poisoned ones are logged as
lost, with no tombstone and no EV_PIN_EVICTED (R270 step 3). -/
def flushSet (page s : Nat) (d : Dev) (i : Nat) : Dev :=
  let mine := (getSet d s i).filter fun c => decide (pageOfLine c.line = page)
  let d := mine.foldl (fun d c =>
    match readBack d s 7 c with
    | (some x, d) => if x.poison then memRecord d (src 1 s) 4 0x0A s i x.way (c.line * 128) false else d
    | (none, d) => d) d
  putSet d s i ((getSet d s i).filter fun c => pageOfLine c.line != page)

/-- Flush a page from every slice, then invalidate every core's caches (R270 step 3). -/
def flushPage (d : Dev) (page : Nat) : Dev :=
  let d := (d.slices.map (·.1)).foldl (fun d s =>
    ((getSlice d s).sets.map (·.1)).foldl (flushSet page s) d) d
  (d.cores.map (·.1)).foldl (fun d n =>
    let c := getCore d n
    putCore d n { c with l1 := [], ic := [], constc := [], descc := [] }) d

/-- The accesses a shootdown waits for have ended (R270 step 2). -/
def shootReady (d : Dev) (s : Shoot) : Bool :=
  s.waits.all fun id => match getReq d id with
    | some r => !unperformed r
    | none => true

/-- SHOOTDOWN_DONE (R270 steps 3 and 4); during a bond quiesce it waits (R272). -/
def shootdownDone (d : Dev) : Option Dev :=
  match d.shoot with
  | none => none
  | some s =>
    if shootReady d s && !d.boot.quiesce then
      let d := if s.flush && !s.all then flushPage d s.page else d
      some (regSet (regSet { d with shoot := none } aShoot 63 1 0) aShoot 62 1 1)
    else none

/-- Firmware may shoot down pages in one step of a command: no shootdown runs (R272) and no access to them is under way
(R270 step 2; log 19). -/
def mayShoot (d : Dev) (pages : List Nat) : Bool :=
  !bit (regGet d aShoot) 63 && !d.reqs.any fun r => unperformed r && pages.contains (pageOfLine r.line)

/-- A whole shootdown made by firmware as one step of a command, when `mayShoot` (R271; log 19). -/
def shootNow (d : Dev) (page : Nat) (flush : Bool) : Dev :=
  let d := dropCopies d page false
  let d := if flush then flushPage d page else d
  regSet d aShoot 62 1 1

/-! ## Controllers (09 R277) -/

/-- MEM_RETRAIN_INTERVAL: a trained channel retrains its timing; commands are only held (R277). -/
def memRetrainInterval (ch : BitVec 5) (d : Dev) : Option Dev :=
  if bit (regGet d (aChan ch.toNat)) 63 then some d else none

/-- The access of a miss or of an uncached request ends with UE at its controller (R277): a read of its first unit
meets an uncorrectable error, and a write answers UE. -/
def burstEnds (c req : Nat) (d : Dev) : Option Dev :=
  let fails (e : D64) (line : Nat) (run : Dev → Option Dev) : Option Dev :=
    let f := pteFrame e
    let o := 128 * lineIdx line
    if chanOf f o ≠ c then none
    else
      let had := markOf d (memCode d) c (unitOf f o)
      (run (addMark d { mem := memCode d, unit := c, index := unitOf f o, dbl := true, inj := false, seen := false })).map
        fun d =>
          let d := clearMark d (memCode d) c (unitOf f o)
          match had with
          | some e => addMark d e
          | none => d
  match d.miss.find? fun m => decide (m.id = req) with
  | some m => fails m.pte m.line (lineFill req)
  | none =>
    match getReq d req with
    | none => none
    | some r =>
      if pteCacheable r.pte || !mayArrive d r then none
      else if isWrite r && decide (serveStop d (some r.core) r.pte r.line r.op = 0) then
        let o := 128 * lineIdx r.line
        if chanOf (pteFrame r.pte) o ≠ c then none
        else
          let d := regSat (spendReq (leaveNet d r) r) (aChan c) 0 8 1
          let u := unitOf (pteFrame r.pte) o
          some (memRecord (settleReq d { r with st := .performed, status := .ue, spent := true }) (src 2 c) 2 (memCode d)
            u u (pteFrame r.pte) (128 * r.line) false)
      else fails r.pte r.line fun d => performReq d req

/-- BURST_CRC_FAIL: `fails` failures of one burst; the fourth retrains the channel, the failure after
that completes the access with UE (R277). `req` is the miss or the uncached request whose burst it is, or 0 for an
access that another command performs whole, whose UE is only counted (log 12). -/
def burstCrcFail (ch : BitVec 5) (req : Nat) (fails : BitVec 3) (d : Dev) : Option Dev :=
  let c := ch.toNat
  let n := fails.toNat
  if n = 0 ∨ 5 < n ∨ !bit (regGet d (aChan c)) 63 then none
  else
    let d := regSat d (aChan c) 32 16 (min n 4)
    let d := if 4 ≤ n then regSat d (aChan c) 48 8 1 else d
    if n < 5 then some d
    else if req = 0 then some (regSat d (aChan c) 0 8 1)
    else burstEnds c req d

/-! ## The scrubber (09 R287 to R289) -/

/-- Ways of the cache die, and units of one channel in Protected mode. -/
def cacheSteps : Nat := 2048 * 3072 * 16
def unitsPerChan : Nat := 368640 * 512

/-- Begin a pass: the cache die when EN_CACHE, external memory when EN_MEM in Protected mode. -/
def scrubBegin (d : Dev) : Dev :=
  let cfg := regGet d aScrubCtrl
  let c := bit cfg 21
  let m := bit cfg 20 && protectedMode d
  let d := regSet (regSet d aScrubStatus 12 10 0) aScrubStatus 2 10 0
  { d with scrub := { running := c || m, again := false, cacheDone := !c, memDone := !m, cachePos := 0,
                      memPos := 0 } }

/-- SCRUB_PASS_START: a period ends. A pass still running sets BEHIND, and the next begins when it ends
(R287). -/
def scrubPassStart (d : Dev) : Option Dev :=
  if bit (regGet d aSecBoot) 63 then
    if d.scrub.running then some (regSet { d with scrub := { d.scrub with again := true } } aScrubStatus 0 1 1)
    else some (scrubBegin (regSet d aScrubStatus 0 1 0))
  else none

/-- What follows when both parts of a pass are done. -/
def scrubSettle (d : Dev) : Dev :=
  if d.scrub.cacheDone && d.scrub.memDone then
    if d.scrub.again then scrubBegin d else { d with scrub := { d.scrub with running := false } }
  else d

/-- Read one way of one set: every line of it is checked (08 R253). -/
def scrubWay (d : Dev) (s i w : Nat) : Dev :=
  ((getSet d s i).filter fun c => decide (c.way = w)).foldl (fun d c => (checkLine d s c.line).2) d

/-- Read one unit with its check word (R279, R288, R289). -/
def scrubUnit (d : Dev) (c u : Nat) : Dev :=
  let f := u / 512
  let a := u % 512 * 64
  let o := a / 128 * 4096 + (c ^^^ (f % 32)) * 128 + a % 128
  countMbw (readUnit d f o 0).2 6 1

/-- SCRUB_READ: the scrubber reads the next way or unit of its pass (R287 to R289). -/
def scrubRead (tgt : ScrubTarget) (d : Dev) : Option Dev :=
  let s := d.scrub
  if !s.running || !bit (regGet d aSecBoot) 63 || !budgetOk d 2122 then none
  else match tgt with
    | .cache =>
      if s.cacheDone then none
      else
        let p := s.cachePos
        let d := scrubWay (spend d 2122) (p / 49152) (p / 16 % 3072) (p % 16)
        let d := regSet d aScrubStatus 12 10 ((p + 1) * 1000 / cacheSteps)
        let d := { d with scrub := { d.scrub with cachePos := p + 1, cacheDone := decide (p + 1 = cacheSteps) } }
        some (scrubSettle (if p + 1 = cacheSteps then regSat d aScrubStatus 48 16 1 else d))
    | .memory =>
      if s.memDone then none
      else
        let p := s.memPos
        let d := scrubUnit (spend d 2122) (p / unitsPerChan) (p % unitsPerChan)
        let n := 32 * unitsPerChan
        let d := regSet d aScrubStatus 2 10 ((p + 1) * 1000 / n)
        let d := { d with scrub := { d.scrub with memPos := p + 1, memDone := decide (p + 1 = n) } }
        some (scrubSettle (if p + 1 = n then regSat d aScrubStatus 32 16 1 else d))

/-! ## The commands of this family -/

/-- THRASH_WINDOW_END (08 R255). -/
def execThrashWindowEnd (half : BitVec 1) (cls : BitVec 3) (s : State) : Host.Outcome State Fault Refusal :=
  ok s (thrashWindowEnd half cls s.dev)
/-- WRITEBACK_ALL (08 R256). -/
def execWritebackAll (half : BitVec 1) (v : BitVec 64) (s : State) : Host.Outcome State Fault Refusal :=
  ok s (writebackAll half v s.dev)
/-- WRITEBACK_ALL_DONE (08 R256). -/
def execWritebackAllDone (half : BitVec 1) (s : State) : Host.Outcome State Fault Refusal :=
  gated s "WRITEBACK_ALL_DONE" (writebackAllDone half s.dev)
/-- CNT_CLEAR (08 R259). -/
def execCntClear (half : BitVec 1) (v : BitVec 64) (s : State) : Host.Outcome State Fault Refusal :=
  ok s (cntClear half v s.dev)
/-- BANK_RETIRE (08 R260). -/
def execBankRetire (slice : BitVec 11) (v : BitVec 64) (s : State) : Host.Outcome State Fault Refusal :=
  ok s (bankRetire slice v s.dev)
/-- PAGE_MAP_WRITE (09 R265). -/
def execPageMapWrite (page : BitVec 19) (bytes : BitVec 4) (v : BitVec 64) (s : State) : Host.Outcome State Fault Refusal :=
  ok s (pageMapWrite page bytes v s.dev)
/-- SHOOTDOWN_START (09 R270). -/
def execShootdownStart (v : BitVec 64) (s : State) : Host.Outcome State Fault Refusal := ok s (shootdownStart v s.dev)
/-- SHOOTDOWN_DONE (09 R270). -/
def execShootdownDone (s : State) : Host.Outcome State Fault Refusal := gated s "SHOOTDOWN_DONE" (shootdownDone s.dev)
/-- MEM_RETRAIN_INTERVAL (09 R277). -/
def execMemRetrainInterval (ch : BitVec 5) (s : State) : Host.Outcome State Fault Refusal :=
  gated s "MEM_RETRAIN_INTERVAL" (memRetrainInterval ch s.dev)
/-- BURST_CRC_FAIL (09 R277). -/
def execBurstCrcFail (ch : BitVec 5) (req : Nat) (fails : BitVec 3) (s : State) : Host.Outcome State Fault Refusal :=
  gated s "BURST_CRC_FAIL" (burstCrcFail ch req fails s.dev)
/-- SCRUB_PASS_START (09 R287). -/
def execScrubPassStart (s : State) : Host.Outcome State Fault Refusal :=
  gated s "SCRUB_PASS_START" (scrubPassStart s.dev)
/-- SCRUB_READ (09 R288). -/
def execScrubRead (tgt : ScrubTarget) (s : State) : Host.Outcome State Fault Refusal :=
  gated s "SCRUB_READ" (scrubRead tgt s.dev)

end Sys2Proof.Machine
end

