-- ==== Sys2Proof/Machine/Network.lean ====
section
/-! DEFINITION. Bank ports, the networks' cycles and the shares of the queues (10). -/

namespace Sys2Proof.Machine

/-! ## Bank ports (R302 to R304) -/

/-- Cache cycles of an access (Table 10.2). -/
def bankCycles : BankKind → Nat
  | .line => 1
  | .fullWrite => 1
  | .merged => 2
  | .move => 2
  | .intAtomic => 3
  | .fpAtomic n => n.toNat + 2

/-- Whether a waiting request is the head of its requester's queue. -/
def isHead (ws : List PortReq) (i : Nat) : Bool :=
  match ws[i]? with
  | some r => !(ws.take i).any fun x => decide (x.who = r.who)
  | none => false

/-- The waiting requests with every head at least at its base priority and every other request with no
priority yet. -/
def headPrios (d : Dev) (ws : List PortReq) : List PortReq :=
  (ws.zip (List.range ws.length)).map fun x =>
    if isHead ws x.2 then { x.1 with prio := some (x.1.prio.getD (basePrio d x.1.cls)) }
    else { x.1 with prio := none }

/-- The priority of a waiting request; one that is not a head does not compete. -/
def prioOf (r : PortReq) : Nat := r.prio.getD 0

/-- The first head in rotation order from `rot` with the largest priority. -/
def bankWinner (ws : List PortReq) (rot : Nat) : Option PortReq :=
  let heads := ws.filter fun r => r.prio.isSome
  let top := heads.foldl (fun m r => max m (prioOf r)) 0
  ((List.range 6).map fun i => (rot + i) % 6).findSome? fun w =>
    heads.find? fun r => decide (r.who = w) && decide (prioOf r = top)

/-- Remove the head of a requester's queue. -/
def popHead (ws : List PortReq) (w : Nat) : List PortReq :=
  match ws.findIdx? fun r => decide (r.who = w) with
  | some i => ws.eraseIdx i
  | none => ws

/-- One cache cycle of a bank port, after the arrivals of the cycle (R302), with the access whose last
occupied cycle it is. -/
def bankCycle (d : Dev) (b : BankPort) (arrivals : List PortReq) : BankPort × Option PortReq :=
  let ws := headPrios d (b.waits ++ arrivals)
  let abort := match b.holder with
    | some h => !b.ended && ws.any fun r => r.prio.isSome && decide (prioOf h < prioOf r)
    | none => false
  let ws := if abort then headPrios d (b.holder.toList ++ ws) else ws
  let ended := b.ended || abort
  let holder := if ended then none else b.holder
  let ws := if ended ∧ holder = none then
      ws.map fun r => { r with prio := r.prio.map fun p => min (p + 1) 15 }
    else ws
  let b := match holder with
    | some h => { b with holder := some h, waits := ws, ended := false }
    | none =>
      match bankWinner ws b.rot with
      | some w => { holder := some w, left := w.cycles, ended := false, waits := popHead ws w.who,
                    rot := (w.who + 1) % 6 }
      | none => { b with holder := none, left := 0, ended := false, waits := ws }
  match b.holder with
  | none => (b, none)
  | some h =>
    if b.left ≤ 1 then ({ b with holder := none, left := 0, ended := true }, some h)
    else ({ b with left := b.left - 1 }, none)

/-- Cycles until an access performs: the port after them, the access, and the cycle it performs in. -/
def bankRun (d : Dev) (arrivals : List BankReq) : Nat → Nat → BankPort → Option (BankPort × PortReq × Nat)
  | 0, _, _ => none
  | fuel + 1, t, b =>
    let now := (arrivals.filter fun a => decide (a.delay = t)).map fun a =>
      ({ who := a.who.toNat, cls := a.cls.toNat, cycles := bankCycles a.kind, prio := none, req := a.req } : PortReq)
    match bankCycle d b now with
    | (b, some h) => some (b, h, t)
    | (b, none) => bankRun d arrivals fuel (t + 1) b

/-- The bank access of a request (Table 10.2). -/
def kindOfReq (r : Req) : BankKind := match r.op with
  | .read => .line
  | .write _ _ => if isFullWrite r.op then .fullWrite else .merged
  | .atomic c => if c.ty = 4 ∧ c.op = .add then .fpAtomic (BitVec.ofNat 6 c.lanes.length) else .intAtomic

/-- An arrival names a request that may arrive at this bank as it says. -/
def arrivalOk (d : Dev) (slice bank : Nat) (a : BankReq) : Bool :=
  decide (a.req = 0) || (match getReq d a.req with
    | some r => mayArrive d r && decide (reqHome r = slice) && decide (a.cls.toNat = r.cls) &&
        decide (a.who.toNat = whoOf d r) && decide (a.kind = kindOfReq r) &&
        decide ((lineBank d slice r.line).getD bank = bank) &&
        (getPort d slice bank).waits.all fun w => w.req != r.id
    | none => false)

/-- A request is at the bank port: it has left its core's port and the networks. -/
def reachPort (d : Dev) (a : BankReq) : Dev :=
  match (if a.req = 0 then none else getReq d a.req) with
  | some r => putReq (spendReq (leaveNet d r) r) { r with st := .moving, spent := true }
  | none => d

/-- BANK_ACCESS_PERFORM: the port runs until a granted access reaches its last occupied cycle and
performs all its effects there (R302, R303). An arrival names a request of a core, or 0 for an access of another
requester. -/
def bankAccessPerform (slice : BitVec 11) (bank : BitVec 5) (arrivals : List BankReq) (d : Dev) : Option Dev :=
  let p := getPort d slice.toNat bank.toNat
  let last := arrivals.foldl (fun m a => max m a.delay) 0
  let work := (arrivals.map fun a => bankCycles a.kind) ++ (p.waits ++ p.holder.toList).map (·.cycles)
  let fuel := last + 16 * work.foldl (· + ·) 0 + 2
  let ids := (arrivals.map (·.req)).filter fun i => i != 0
  if 16 < bank.toNat ∨ (arrivals.any fun a => decide (5 < a.who.toNat) || !arrivalOk d slice.toNat bank.toNat a) ∨
      ¬ ids.Nodup then none
  else match bankRun d arrivals fuel 0 p with
    | none => none
    | some (q, h, t) =>
      if t < last then none
      else
        let d := putPort (arrivals.foldl reachPort d) slice.toNat bank.toNat q
        if h.req = 0 then some d else performReq d h.req

/-! ## Packets in an interval without a command (log 61) -/

/-- The oldest request that a core's port may send enters its crossing (01 R29). -/
def sendNext (d : Dev) (n : Nat) : Dev :=
  match d.reqs.find? fun r => decide (r.core = n) && decide (r.st = .waiting) && !reqHeld d r && fifoRoom d r with
  | some r => sendReq d r
  | none => d

/-- A receiving port has room for one more packet of a VC. -/
def roomAt (d : Dev) (place vc : Nat) : Bool := decide ((inBuffer d.net place vc).length < 4)

/-- The oldest request of a core's crossing leaves it: into the mesh, or to the slice beneath the core. -/
def crossNext (d : Dev) (n : Nat) : Dev :=
  match fifoOf d n with
  | [] => d
  | id :: rest =>
    match getReq d id with
    | none => putFifo d n rest
    | some r =>
      let gone := putFifo (putReq d { r with st := .moving }) n rest
      if reqHome r = n then gone
      else match routeOf d n (reqHome r) (bit20 r.line) with
        | none => gone
        | some (yx, ports) =>
          if roomAt d (entryId n) (b2n yx) then
            let p : Packet :=
              { kind := .request, id := id, cls := r.cls, vc := b2n yx, beats := b2n (isWrite r), place := entryId n,
                route := ports ++ [meshPort (reqHome r) 4], prio := none, seq := 0 }
            { gone with net := sendPacket gone.net p }
          else d

/-- The response of a performed request enters the mesh at its home (10 R296, R297). -/
def respondNext (d : Dev) (r : Req) : Dev :=
  let s := reqHome r
  if unperformed r || r.back || decide (s = r.core) then d
  else match routeOf d s r.core (bit20 r.line) with
    | none => d
    | some (yx, ports) =>
      if roomAt d (entryId s) (2 + b2n yx) then
        let d := putReq d { r with back := true }
        let p : Packet :=
            { kind := .response, id := r.id, cls := r.cls, vc := 2 + b2n yx, beats := b2n (decide (r.op = .read)),
              place := entryId s, route := ports ++ [meshPort r.core 4], prio := none, seq := 0 }
        { d with net := sendPacket d.net p }
      else d

/-- A miss leaves for external memory: over the mesh to its down-channel and through the base die crossbar to its
controller (10 R299, R301). -/
def missNext (d : Dev) (m : Miss) : Dev :=
  if m.sent || bit (regGet d (aCdcStatus m.half)) 62 then d
  else match downChannel d 0 m.home with
    | none => d
    | some c =>
      match routeOf d m.home (landing c) 0 with
      | none => d
      | some (yx, ports) =>
        if roomAt d (entryId m.home) (b2n yx) then
          let p : Packet :=
            { kind := .miss, id := m.id, cls := m.cls, vc := b2n yx, beats := 0, place := entryId m.home,
              route := ports ++ [channelId 0 c, xbarId (controllerOf m.pte m.line)], prio := none, seq := 0 }
          { d with miss := d.miss.map fun x => if x.id = m.id then { x with sent := true } else x,
                   net := sendPacket d.net p }
        else d

/-- A miss at its controller takes a command slot of its class (10 R312). -/
def commandNext (d : Dev) (m : Miss) : Dev :=
  if m.sent && !m.cmd && !(d.net.pkts.any fun p => decide (p.kind = .miss) && decide (p.id = m.id)) &&
      mayCommand d (controllerOf m.pte m.line) m.cls then
    { d with miss := d.miss.map fun x => if x.id = m.id then { x with cmd := true } else x }
  else d

/-- The packets of requests and misses that are no more have left the networks. -/
def pruneNet (d : Dev) : Dev :=
  { d with net := { d.net with pkts := d.net.pkts.filter fun p => match p.kind with
      | .miss => d.miss.any fun m => decide (m.id = p.id)
      | .request => (getReq d p.id).any unperformed
      | .response => (getReq d p.id).any fun r => !unperformed r } }

/-- One cycle of the ports, crossings and networks. -/
def linkStep (d : Dev) : Dev :=
  let ns := (d.reqs.map (·.core)).eraseDups
  let d := ns.foldl sendNext (ns.foldl crossNext d)
  let d := d.miss.foldl commandNext (d.miss.foldl missNext (d.reqs.foldl respondNext d))
  { d with net := linkCycle d d.net }

/-- Cycles until nothing moves. -/
def linkRun : Nat → Dev → Dev
  | 0, d => d
  | n + 1, d =>
    let e := linkStep d
    if e.net = d.net ∧ e.reqs = d.reqs ∧ e.miss = d.miss then d else linkRun n e

/-- A microsecond of the networks, 1,500 cache cycles. -/
def linkTick (d : Dev) : Dev := if d.reqs = [] ∧ d.net.pkts = [] then d else linkRun 1500 (pruneNet d)

/-! ## Aborts (R307, R309) -/

/-- A request ends with ABORT wherever it stands: its master receives the status (R307 item 2). -/
def abortReq (d : Dev) (id : Nat) : Dev :=
  match getReq d id with
  | some r =>
    let d := leaveNet d r
    putReq d { r with st := .performed, status := .abort, back := true }
  | none => d

/-- A miss ends without its data: every request that waits for it is aborted. -/
def abortMiss (d : Dev) (id : Nat) : Dev :=
  match d.miss.find? fun m => decide (m.id = id) with
  | some m =>
    m.reqs.foldl abortReq { d with net := takePacket d.net .miss id, miss := d.miss.filter fun x => x.id != id }
  | none => d

/-- Abort what a packet carries. -/
def abortPacket (d : Dev) (p : Packet) : Dev := match p.kind with
  | .miss => abortMiss d p.id
  | _ => abortReq { d with net := takePacket d.net p.kind p.id } p.id

/-! ## Regulation (R312, R314) -/

/-- The window length in force for a master (R314). -/
def windowUs (b : Budget) : Nat := min 1000 (max 1 (bits b.cfg 32 10))

/-- A share write: ignored and logged when the minima would exceed the slots (R312). -/
def shareWrite (addr : Nat → Nat) (minW maxW slots : Nat) (k : Nat) (v : D64) (d : Dev) : Dev :=
  let others := ((List.range 8).filter fun j => j != k).foldl (fun s j => s + regField d (addr j) 32 minW) 0
  if slots < others + bits v 32 minW then ignored d (addr k) v
  else regPut d (addr k) (BitVec.ofNat 64 (bits v 32 minW * 2 ^ 32 + bits v 0 maxW))

/-- MISS_SHARE_WRITE (R312, Table 10.14). -/
def missShareWrite (cls : BitVec 3) (v : D64) (d : Dev) : Dev := shareWrite aMissShare 17 17 65536 cls.toNat v d

/-- MCQ_SHARE_WRITE (R312, Table 10.15). -/
def mcqShareWrite (cls : BitVec 3) (v : D64) (d : Dev) : Dev := shareWrite aMcqShare 9 9 256 cls.toNat v d

/-! ## The commands of this family -/

/-- BANK_ACCESS_PERFORM (10 R303). -/
def execBankAccessPerform (slice : BitVec 11) (bank : BitVec 5) (arrivals : List BankReq) (s : State) : Host.Outcome State Fault Refusal :=
  gated s "BANK_ACCESS_PERFORM" (bankAccessPerform slice bank arrivals s.dev)
/-- MISS_SHARE_WRITE (10 R312). -/
def execMissShareWrite (cls : BitVec 3) (v : BitVec 64) (s : State) : Host.Outcome State Fault Refusal :=
  ok s (missShareWrite cls v s.dev)
/-- MCQ_SHARE_WRITE (10 R312). -/
def execMcqShareWrite (cls : BitVec 3) (v : BitVec 64) (s : State) : Host.Outcome State Fault Refusal :=
  ok s (mcqShareWrite cls v s.dev)

end Sys2Proof.Machine
end

