-- ==== Sys2Proof/Machine/Clusters.lean ====
section
/-! DEFINITION. Load notices and regulators, and the sleep and wake of clusters (13 R410 to R423). -/

namespace Sys2Proof.Machine

/-! ## Check codes (R411, R412) -/

/-- One bit of a CRC of width `w` in normal form. -/
def crcBit (w poly : Nat) (c : Nat) (b : Bool) : Nat :=
  let top := c.testBit (w - 1) != b
  let s := c * 2 % 2 ^ w
  if top then s ^^^ poly else s

/-- The bits [hi − 1 : lo] of a word, most significant first. -/
def bitsDown {n : Nat} (x : BitVec n) (hi lo : Nat) : List Bool :=
  ((List.range (hi - lo)).map fun i => bit x (hi - 1 - i))

/-- CRC-16 of a notice frame or commit word, over bits [63:16] (R411, 16 R490). -/
def crc16 (x : D64) : Nat := (bitsDown x 64 16).foldl (crcBit 16 0x1021) 0xFFFF
/-- CRC-8 of an acknowledgement, over bits [31:8] (R412). -/
def crc8 (x : Word) : Nat := (bitsDown x 32 8).foldl (crcBit 8 0x07) 0

/-- A word with its CRC-16 in bits [15:0]. -/
def seal16 (x : D64) : D64 := setBits x 0 16 (crc16 x)

/-! ## Load notices (R410 to R415) -/

/-- The envelope in force (14 Table 14.5). -/
def envNow (d : Dev) : Nat := regField d aEnv 56 2

/-- STEP of the envelope in force, and LEAD within its range (Table 13.13). -/
def stepCfg (d : Dev) : Nat := regField d aNoticeCfg (32 + 8 * min (envNow d) 2) 8
def leadCfg (d : Dev) : Nat := min 100 (max 5 (regField d aNoticeCfg 0 8))

/-- A notice frame (Table 13.7). -/
def noticeFrame (kind c step lead seq : Nat) : D64 :=
  seal16 (BitVec.ofNat 64 (kind * 2 ^ 60 + c % 64 * 2 ^ 54 + step % 1024 * 2 ^ 44 + lead % 128 * 2 ^ 37 +
    seq % 256 * 2 ^ 29))

/-- An acknowledgement frame (Table 13.8). -/
def ackFrame (c seq : Nat) : Word :=
  let w : Word := BitVec.ofNat 32 (3 * 2 ^ 28 + c % 64 * 2 ^ 22 + seq % 256 * 2 ^ 14)
  setBits w 0 8 (crc8 w)

/-- Send an UP notice to a cluster (R413). -/
def sendUp (d : Dev) (c step queue item : Nat) : Dev :=
  let k := getCluster d c
  let n : Notice := { seq := k.nextSeq, step := step, queue := queue, item := item }
  regSat (putCluster d c { k with
    ups := k.ups ++ [n], nextSeq := (k.nextSeq + 1) % 256,
    line := k.line ++ [noticeFrame 1 c step (leadCfg d) k.nextSeq] }) aNoticeStatus 48 16 1

/-- The UP notice of an item with `tasks` tasks on a cluster: sent when EN is 1 and the expected step
exceeds THRESH (R413). -/
def noticeFor (d : Dev) (c tasks queue item : Nat) : Dev :=
  let step := min 600 (tasks * stepCfg d)
  if bit (regGet d aNoticeCfg) 63 ∧ regField d aNoticeCfg 16 8 < step then sendUp d c step queue item else d

/-- Send a DOWN notice, when notices are sent (R413). -/
def sendDown (d : Dev) (c : Nat) : Dev :=
  if bit (regGet d aNoticeCfg) 63 then
    let k := getCluster d c
    putCluster d c { k with line := k.line ++ [noticeFrame 2 c 0 0 0] }
  else d

/-- REGULATOR_NOTICE: a cluster's regulator receives a frame. A bad CRC or a reserved KIND discards it;
an UP notice is added to those pending and acknowledged when the regulator can be ready in time; a
DOWN notice sheds the phases (R411, R415). -/
def regulatorNotice (cluster : BitVec 6) (frame : D64) (canBeReady : Bool) (d : Dev) : Dev :=
  let c := cluster.toNat
  let k := getCluster d c
  let k := { k with line := k.line.erase frame }
  let good := decide (bits frame 0 16 = crc16 frame)
  if good ∧ bits frame 60 4 = 1 then
    putCluster d c { k with
      phases := k.phases ++ [(bits frame 29 8, bits frame 44 10)],
      acks := if canBeReady then k.acks ++ [ackFrame c (bits frame 29 8)] else k.acks }
  else if good ∧ bits frame 60 4 = 2 then putCluster d c { k with phases := [] }
  else putCluster d c k

/-- REGULATOR_PHASE_SHED: 50 µs after its current has fallen back the regulator sheds phases (R415). -/
def regulatorPhaseShed (cluster : BitVec 6) (d : Dev) : Option Dev :=
  let k := getCluster d cluster.toNat
  if k.phases = [] then none else some (putCluster d cluster.toNat { k with phases := [] })

/-- NOTICE_ACK: an acknowledgement reaches the base die. It ends the hold of its notice's item; one
whose CRC fails or whose SEQ matches no pending notice is counted in DROPPED (R412, R414). -/
def noticeAck (cluster : BitVec 6) (frame : Word) (d : Dev) : Dev :=
  let c := cluster.toNat
  let k := getCluster d c
  let k := { k with acks := k.acks.erase frame }
  let good := decide (bits frame 0 8 = crc8 frame) && decide (bits frame 28 4 = 3) &&
    k.ups.any fun u => decide (u.seq = bits frame 14 8)
  if good then
    regSat (putCluster d c { k with
      ups := k.ups.eraseP fun u => decide (u.seq = bits frame 14 8), noAck := 0 }) aNoticeStatus 32 16 1
  else regSat (putCluster d c k) aNoticeStatus 0 16 1

/-- NOTICE_LEAD_EXPIRY: a pending notice's lead time ends. After 16 in a row to one cluster Sorrel logs
EV_NOTICE_NO_ACK (R414). -/
def noticeLeadExpiry (cluster : BitVec 6) (seq : Byte) (d : Dev) : Option Dev :=
  let c := cluster.toNat
  let k := getCluster d c
  if k.ups.any fun u => decide (u.seq = seq.toNat) then
    let n := k.noAck + 1
    let d := regSat (putCluster d c { k with
      ups := k.ups.eraseP fun u => decide (u.seq = seq.toNat), noAck := if n = 16 then 0 else n })
      aNoticeStatus 16 16 1
    some (if n = 16 then event d (src 7 0) 0x0205 c 0 0 0 else d)
  else none

/-! ## Sleep and wake (R420 to R423) -/

/-- The core IDs of a cluster (00 R10). -/
def coresOf (c : Nat) : List Nat := (List.range 32).map fun i => 32 * c + i

/-- No group and no task is resident on the cluster. -/
def clusterIdle (d : Dev) (c : Nat) : Bool :=
  (coresOf c).all fun n =>
    let k := getCore d n
    decide (k.groups = []) && decide (k.task0 = none) && decide (k.task1 = none)

/-- The setpoint of a cluster's rail, within the envelope's range (R407). -/
def setpointOf (c env : Nat) : Nat :=
  let v := (Config.setpoint c env).toNat
  if env = 0 then min 900 (max 780 v) else if env = 1 then min 800 (max 680 v) else min 660 (max 550 v)

/-- Give a rail a setpoint; a rail with setpoint 0 is off (Table 13.17). -/
def railSet (d : Dev) (r mv : Nat) : Dev :=
  regSet (regSet d (aRail r) 32 16 mv) (aRail r) 63 1 (b2n (decide (mv ≠ 0)))

/-- Begin the wake of a cluster (R421, R423): from SLEEP at once, from sleep entry when it ends; an
AWAKE or WAKING cluster forgets a SLEEP that waits. -/
def wakeCluster (d : Dev) (c : Nat) : Dev :=
  let k := getCluster d c
  match k.st with
  | .sleep => putCluster (railSet d c (setpointOf c (envNow d))) c { k with st := .waking, sleepReq := false }
  | .entering => putCluster d c { k with wakeReq := true }
  | .waking | .awake => putCluster d c { k with sleepReq := false }
  | .off => d

/-- CLUSTER_SLEEP_REQUEST (R420, R423): an AWAKE cluster with nothing resident begins sleep entry;
with a group resident, or while WAKING, the request waits; otherwise it has no effect. -/
def clusterSleepRequest (cluster : BitVec 6) (d : Dev) : Dev :=
  let c := cluster.toNat
  let k := getCluster d c
  match k.st with
  | .awake =>
    if clusterIdle d c then putCluster d c { k with st := .entering, sleepReq := false }
    else putCluster d c { k with sleepReq := true }
  | .waking => putCluster d c { k with sleepReq := true }
  | _ => d

/-- CLUSTER_WAKE_REQUEST (R421, R423). -/
def clusterWakeRequest (cluster : BitVec 6) (d : Dev) : Dev := wakeCluster d cluster.toNat

/-- CLUSTER_IDLE_TIMEOUT: AUTO_SLEEP puts an idle AWAKE cluster to sleep (R420). -/
def clusterIdleTimeout (cluster : BitVec 6) (d : Dev) : Option Dev :=
  let c := cluster.toNat
  let k := getCluster d c
  if bit (regGet d (aCluster c)) 61 ∧ k.st = .awake ∧ clusterIdle d c then
    some (putCluster d c { k with st := .entering, sleepReq := false })
  else none

/-- What sleep leaves of a core's scratchpad: RETAIN banks with their contents and tags (R422). -/
def sleepSpx (s : Spx) : Spx :=
  let keep (b : Nat) : Bool := decide (bankState s b = bankRetain)
  let st := (List.range 16).foldl (fun w b => if keep b then setBank w b bankRetain else w) (0 : Word)
  { s with bytes := s.bytes.filter fun e => keep (e.1 / 32768),
           tags := s.tags.filter fun e => keep e.1,
           bstate := st, initing := 0, hands := [], q := [], mover := none }

/-- A core after the sleep of its cluster (R422). -/
def sleepCore (d : Dev) (n : Nat) : Dev :=
  let c := getCore d n
  let d := { d with errs := d.errs.filter fun e =>
    !(decide (e.unit = n) && decide (e.mem ≤ 0x09) &&
      (e.mem != 0x05 || decide (bankState c.spx (e.index / 32768) ≠ bankRetain))) }
  putCore d n { freshCore with cycleBase := c.cycleBase, rr := c.rr, spx := sleepSpx c.spx }

/-- SLEEP_ENTRY_DONE: entry ends with the cluster in SLEEP and its core state lost but for RETAIN banks
and the control registers; a SLEEP that waited for the last group enters here too; a wake requested
during entry begins (R420, R422, R423). -/
def sleepEntryDone (cluster : BitVec 6) (d : Dev) : Option Dev :=
  let c := cluster.toNat
  let k := getCluster d c
  if k.st = .entering ∨ (k.st = .awake ∧ k.sleepReq ∧ clusterIdle d c) then
    let d := (coresOf c).foldl sleepCore d
    let d := putCluster (railSet d c 550) c { k with st := .sleep, sleepReq := false, wakeReq := false, droop := none }
    some (if k.wakeReq then wakeCluster d c else d)
  else none

/-- CLUSTER_WAKE_DONE: the wake ends AWAKE with caches and TLB empty (R421); a SLEEP that waited takes
effect when nothing is resident (R423). -/
def clusterWakeDone (cluster : BitVec 6) (d : Dev) : Option Dev :=
  let c := cluster.toNat
  let k := getCluster d c
  if k.st = .waking then
    let d := railSet d c (setpointOf c (envNow d))
    let d := (coresOf c).foldl (fun d n =>
      let q := getCore d n
      putCore d n { q with l1 := [], ic := [], constc := [], descc := [], tlb := [] }) d
    some (putCluster d c { k with
      st := if k.sleepReq && clusterIdle d c then .entering else .awake,
      sleepReq := k.sleepReq && !clusterIdle d c })
  else none

/-! ## The commands of this family -/

/-- REGULATOR_NOTICE (13 R415). -/
def execRegulatorNotice (cluster : BitVec 6) (frame : BitVec 64) (canBeReady : Bool) (s : State) : Host.Outcome State Fault Refusal :=
  ok s (regulatorNotice cluster frame canBeReady s.dev)
/-- NOTICE_ACK (13 R414). -/
def execNoticeAck (cluster : BitVec 6) (frame : BitVec 32) (s : State) : Host.Outcome State Fault Refusal :=
  ok s (noticeAck cluster frame s.dev)
/-- NOTICE_LEAD_EXPIRY (13 R414). -/
def execNoticeLeadExpiry (cluster : BitVec 6) (seq : BitVec 8) (s : State) : Host.Outcome State Fault Refusal :=
  gated s "NOTICE_LEAD_EXPIRY" (noticeLeadExpiry cluster seq s.dev)
/-- REGULATOR_PHASE_SHED (13 R415). -/
def execRegulatorPhaseShed (cluster : BitVec 6) (s : State) : Host.Outcome State Fault Refusal :=
  gated s "REGULATOR_PHASE_SHED" (regulatorPhaseShed cluster s.dev)
/-- CLUSTER_SLEEP_REQUEST (13 R423). -/
def execClusterSleepRequest (cluster : BitVec 6) (s : State) : Host.Outcome State Fault Refusal :=
  ok s (clusterSleepRequest cluster s.dev)
/-- CLUSTER_WAKE_REQUEST (13 R423). -/
def execClusterWakeRequest (cluster : BitVec 6) (s : State) : Host.Outcome State Fault Refusal :=
  ok s (clusterWakeRequest cluster s.dev)
/-- CLUSTER_IDLE_TIMEOUT (13 R420). -/
def execClusterIdleTimeout (cluster : BitVec 6) (s : State) : Host.Outcome State Fault Refusal :=
  gated s "CLUSTER_IDLE_TIMEOUT" (clusterIdleTimeout cluster s.dev)
/-- SLEEP_ENTRY_DONE (13 R420). -/
def execSleepEntryDone (cluster : BitVec 6) (s : State) : Host.Outcome State Fault Refusal :=
  gated s "SLEEP_ENTRY_DONE" (sleepEntryDone cluster s.dev)
/-- CLUSTER_WAKE_DONE (13 R421). -/
def execClusterWakeDone (cluster : BitVec 6) (s : State) : Host.Outcome State Fault Refusal :=
  gated s "CLUSTER_WAKE_DONE" (clusterWakeDone cluster s.dev)

end Sys2Proof.Machine
end

