-- ==== Sys2Proof/Machine/Tasks.lean ====
section
/-! DEFINITION. Tasks on a core: start, admission of groups, release, and the barrier stall limit (02
R43, R52 to R68; 12 R387, R388). -/

namespace Sys2Proof.Machine

/-! ## Work items as the cores see them -/

def getQueue (d : Dev) (q : Nat) : Option Queue := mapGet none d.disp.queues q
def putQueue (d : Dev) (q : Nat) (v : Option Queue) : Dev :=
  { d with disp := { d.disp with queues := mapPut none d.disp.queues q v } }

/-- The item `i` of an open queue. -/
def getItem (d : Dev) (q i : Nat) : Option WorkItem :=
  match getQueue d q with
  | some v => v.items.find? fun w => decide (w.item = i)
  | none => none

/-- Replace an item of a queue. -/
def putItem (d : Dev) (q : Nat) (w : WorkItem) : Dev :=
  match getQueue d q with
  | some v => putQueue d q (some { v with items := v.items.map fun x => if x.item = w.item then w else x })
  | none => d

/-- Flag bits of a descriptor (12 Table 12.13). -/
def lfEndGroup (l : Launch) : Bool := bit l.lflags 0
def lfIdem (l : Launch) : Bool := bit l.lflags 1
def lfCoreBar (l : Launch) : Bool := bit l.lflags 2
def lfMx (l : Launch) : Bool := bit l.lflags 3
def lfFfx (l : Launch) : Bool := bit l.lflags 4
def lfWstage (l : Launch) : Bool := bit l.lflags 5
def lfSerial (l : Launch) : Bool := bit l.lflags 6
def lfNotify (l : Launch) : Bool := bit l.lflags 7
def lfAllCores (l : Launch) : Bool := bit l.lflags 8
def lfBankDecl (l : Launch) : Bool := bit l.lflags 9

/-- Groups of a task (12 R387), and the group registers of one group (R52). -/
def groupsOf (l : Launch) : Nat := ceilDiv l.threads.toNat 32
def allocOf (regs : Nat) : Nat := 8 * ceilDiv regs 8

/-- The state of the task of `item` when it starts on a core (12 Table 12.13, 07 R211). -/
def newTask (l : Launch) (q item entry redisp : Nat) : Task :=
  let decl := lfBankDecl l
  { queue := q, item := item, entry := BitVec.ofNat 47 entry, nregs := l.regs.toNat, ngroups := groupsOf l,
    threads := l.threads.toNat, admitted := 0, endGroup := lfEndGroup l, idem := lfIdem l,
    usesMx := lfMx l, usesFfx := lfFfx l, wstage := lfWstage l, handle := l.module,
    banks := if decl then l.banks else 0xFFFF, resident := if decl then l.resident else 0,
    keep := if decl then l.keep else 0, owner := if decl then l.owner else 0x55555555,
    args := l.args, fault := none, aborted := false, started := false, redisp := redisp }

/-! ## Free slots and registers (R53, R54) -/

/-- The first slot without a group. -/
def freeSlot (c : Core) : Option Nat := slots.find? fun s => decide (getGroup c s = none)

/-- The allocated ranges of the register file. -/
def regRanges (c : Core) : List (Nat × Nat) :=
  slots.filterMap fun s => (getGroup c s).map fun g => (g.base, g.alloc)

/-- Group registers not allocated (Table 2.5). -/
def regFree (c : Core) : Nat := 2048 - (regRanges c).foldl (fun a r => a + r.2) 0

/-- A range of `a` group registers from `b` is free. -/
def rangeFree (c : Core) (b a : Nat) : Bool :=
  decide (b + a ≤ 2048) && (regRanges c).all fun r => decide (b + a ≤ r.1) || decide (r.1 + r.2 ≤ b)

/-- The lowest free range of `a` group registers; every allocation is a multiple of 8 (R52). -/
def freeRange (c : Core) (a : Nat) : Option Nat :=
  ((List.range 256).map (8 * ·)).find? fun b => rangeFree c b a

/-- How many of `n` groups of `a` registers can be admitted now. -/
def roomFor (a : Nat) : Nat → Core → Nat
  | 0, _ => 0
  | n + 1, c =>
    match freeSlot c, freeRange c a with
    | some s, some b =>
      let g : Group := { uid := 0, pos := false, index := 0, base := b, alloc := a, nregs := 0, lanes := [],
                         x := [], u := [], hold := none, stall := 0 }
      1 + roomFor a n (putGroup c s (some g))
    | _, _ => 0

/-! ## TASK_START -/

/-- The other resident task, as seen from a position. -/
def otherTask (c : Core) (pos : Bool) : Option Task := getTask c (!pos)

/-- A resident task lets another start (R63; 04 R113; 06 R186; 07 R211). -/
def letsStart (old new : Task) : Bool :=
  decide (old.ngroups ≤ old.admitted) && !(old.usesMx && new.usesMx) &&
    !(old.usesFfx && new.usesFfx) && decide (old.banks &&& new.banks = 0)

/-- Wake or initialise the banks of a task (07 R212). -/
def startBanks (d : Dev) (n : Nat) (t : Task) : Dev :=
  (maskBanks t.banks.toNat).foldl (fun d b =>
    let s := (getCore d n).spx
    let keep := bit t.resident b && decide (bankState s b = bankRetain) &&
      decide (mapGet 0 s.tags b = t.handle) && decide (t.handle ≠ 0)
    wakeBank d n b keep) d

/-- The arrays at the start of a task with USES_MX (04 R113, 05 R149). -/
def startMx (c : Core) (t : Task) : Core :=
  if t.usesMx then
    let keep := t.wstage && decide (c.mxModule = t.handle)
    { c with mxModule := t.handle, ru := [],
             mx := { c.mx with tiles := [], fsb := [], afb := [], epoch := c.mx.epoch + 1,
                               banks := if keep then c.mx.banks else [] } }
  else c

/-- The part of an item that waits for a core. -/
def waitingPart (w : WorkItem) (core : Nat) : Option Part :=
  w.parts.find? fun p => decide (p.core = core) && decide (p.st = .waiting)

/-- Change the state of the part of an item on a core. -/
def setPart (w : WorkItem) (core : Nat) (old new : PartSt) : WorkItem :=
  match w.parts.findIdx? fun p => decide (p.core = core) && decide (p.st = old) with
  | some i => { w with parts := w.parts.modify i fun p => { p with st := new } }
  | none => w

/-- TASK_START: a task of a started item takes the lower free position of its core, with an acquire
(R63, R65), its banks (07 R212) and CORE_RU_CTRL (05 R158). -/
def taskStart (core : BitVec 11) (queue : BitVec 12) (item : Nat) (d : Dev) : Option Dev :=
  let n := core.toNat
  let c := getCore d n
  match getItem d queue.toNat item with
  | none => none
  | some w =>
    match waitingPart w n, mapGet none d.disp.modules w.launch.module.toNat with
    | some p, some m =>
      let t := newTask w.launch queue.toNat item (m.addr + w.launch.entry.toNat) p.redisp
      let pos := c.task0.isSome
      let fits := !lfCoreBar w.launch || decide (t.ngroups ≤ roomFor (allocOf t.nregs) t.ngroups c)
      let open_ := (!c.task0.isSome || !c.task1.isSome) &&
        (match otherTask c pos with
         | some o => letsStart o t
         | none => true)
      if coreUp d n && bit (regGet d aSecBoot) 63 && w.begun && open_ && fits then
        let c := startMx { putTask c pos (some t) with l1 := [], constc := [], descc := [] } t
        let d := dropFills (dropFills d n 0) n 5
        let d := putItem (putCore d n c) queue.toNat (setPart w n .waiting .resident)
        let d := if t.usesMx then
            { regPut d (aRuCtrl n) (BitVec.ofNat 64 w.launch.ftzExp.toNat) with
              errs := d.errs.filter fun e => !(decide (e.unit = n) && (e.mem == 0x07 || e.mem == 0x08 ||
                (e.mem == 0x06 && decide (2 ≤ e.index / 2 ^ 16)))) }
          else d
        some (startWhenOn (startBanks d n t) n pos)
      else none
    | _, _ => none

/-! ## GROUP_ADMIT (R43, R53, R63, R64) -/

/-- The state of a new group (Table 2.3). DESIGN CHOICE (log 68): X0 of a lane that never holds a thread is 0. -/
def newGroup (t : Task) (uid : Nat) (pos : Bool) (core base : Nat) : Group :=
  let live (l : Nat) : Bool := decide (32 * t.admitted + l < t.threads)
  let lane (l : Nat) : Lane :=
    if live l then { pc := t.entry, st := .active, yld := false, preds := 0 } else deadLane
  let x0 : Row := perLane fun l => if live l then BitVec.ofNat 32 (32 * t.admitted + l) else 0
  let us := (List.range 16).map fun i => (i, t.args.getD i 0)
  let us := us ++ [(16, BitVec.ofNat 32 t.admitted), (17, BitVec.ofNat 32 core)]
  { uid := uid, pos := pos, index := t.admitted, base := base, alloc := allocOf t.nregs, nregs := t.nregs,
    lanes := perLane lane, x := mapPut zeroRow [] 0 x0, u := us.foldl (fun m e => mapPut 0 m e.1 e.2) [],
    hold := none, stall := 0 }

/-- GROUP_ADMIT: the next group of a task takes the lowest free slot and the lowest free register range
(R53, R54, R63). -/
def groupAdmit (core : BitVec 11) (pos : Bool) (d : Dev) : Option Dev :=
  let n := core.toNat
  let c := getCore d n
  match getTask c pos with
  | none => none
  | some t =>
    if coreUp d n && bit (regGet d aSecBoot) 63 && t.started && !t.aborted && decide (t.admitted < t.ngroups) then
      match freeSlot c, freeRange c (allocOf t.nregs) with
      | some s, some b =>
        let (uid, d) := takeId d
        let c := putGroup c s (some (newGroup t uid pos n b))
        some (putCore d n (putTask c pos (some { t with admitted := t.admitted + 1 })))
      | _, _ => none
    else none

/-! ## TASK_RELEASE (R66; 04 R144; 06 R192; 07 R213) -/

/-- The work of a task that its release still waits for. -/
def releaseBusy (d : Dev) (n : Nat) (pos : Bool) : Bool :=
  let c := getCore d n
  let t := getTask c pos
  let set := bankSet c pos
  (match t with
   | some t => !t.started && !t.aborted || decide (t.admitted < t.ngroups) && !t.aborted
   | none => true) ||
  decide (taskGroups c pos ≠ []) ||
  d.reqs.any (fun r => decide (r.core = n) && r.pos == pos && isWrite r) ||
  (c.mx.q.any fun o => o.pos == pos) || (c.spx.q.any fun o => o.pos == pos) ||
  (c.ffx.q.any fun o => o.pos == pos) ||
  (c.spx.hands.any fun h => h.banks.any fun b => bit set b.1)

/-- The faults of a task's queued operations that nothing has taken, by issue order: code and address. -/
def leftFaults (c : Core) (pos : Bool) : List (Nat × Nat × Nat × Nat) :=
  let a := (c.mx.deferred.filter fun e => e.pos == pos).map fun e => (e.id, e.slot, e.code, e.addr.toNat)
  let b := (c.ffx.fails.filter fun e => e.pos == pos).map fun e => (e.id, 0, e.code, e.addr.toNat)
  sortBy (fun x y => decide (x.1 ≤ y.1)) (a ++ b)

/-- Record the faults a release takes; the first in issue order is the task's status unless it has one
(04 R144). -/
def takeLeft (d : Dev) (n : Nat) (pos : Bool) : Dev :=
  let c := getCore d n
  let t := getTask c pos
  let fs := leftFaults c pos
  let d := fs.foldl (fun d f => post d (faultRecord n f.2.1 f.2.2.1 0 f.2.2.2 0 pos t)) d
  let t := t.map fun t => { t with fault := t.fault <|> (fs.head?.map fun f => f.2.2.1) }
  let c := putTask c pos t
  putCore d n { c with
    mx := { c.mx with deferred := c.mx.deferred.filter fun e => e.pos != pos },
    ffx := { c.ffx with fails := c.ffx.fails.filter fun e => e.pos != pos } }

/-- The banks of a task that ends: KEEP banks become RETAIN with its handle as tag, the others OFF (07
R213). A bank that never finished waking keeps no contents. -/
def endBanks (d : Dev) (n : Nat) (t : Task) : Dev :=
  (maskBanks t.banks.toNat).foldl (fun d b =>
    if bit t.keep b then
      let d := if isOn (getCore d n).spx b then d else clearBank d n b
      setTag (setBankState d n b bankRetain) n b t.handle
    else bankTurnOff d n b) d

/-- The dispatcher learns that a task of an item has ended on a core, with its fault if any. -/
def endPart (d : Dev) (q item core : Nat) (fault : Option Nat) : Dev :=
  match getItem d q item with
  | none => d
  | some w =>
    let w := setPart w core .resident .ended
    putItem d q (match fault with
      | some f => { w with fault := w.fault <|> some (f, core), faulted := w.faulted + 1 }
      | none => w)

/-- A core of the cluster holds a task with USES_MX. -/
def clusterMx (d : Dev) (c : Nat) : Bool :=
  (coresOf c).any fun n =>
    let k := getCore d n
    (k.task0.any (·.usesMx)) || (k.task1.any (·.usesMx))

/-- Take a task off its core: its position frees, loads still out are discarded when they return, and the last task with USES_MX of a cluster sends the
DOWN notice (13 R413). -/
def freeTask (d : Dev) (n : Nat) (pos : Bool) (t : Task) : Dev :=
  let d := putCore d n (endLoads (putTask (getCore d n) pos none) fun l => l.pos == pos)
  if t.usesMx && !clusterMx d (n / 32) then sendDown d (n / 32) else d

/-- TASK_RELEASE: every thread has exited and every store and atomic is acknowledged: the task takes the
faults nothing has taken, its banks are retained or turned off, and it reports its completion (R66). -/
def taskRelease (core : BitVec 11) (pos : Bool) (d : Dev) : Option Dev :=
  let n := core.toNat
  if !coreUp d n || releaseBusy d n pos then none
  else
    let d := takeLeft d n pos
    match getTask (getCore d n) pos with
    | some t => some (freeTask (endBanks (endPart d t.queue t.item n t.fault) n t) n pos t)
    | none => none

/-! ## The barrier stall limit (R59 to R61, R68) -/

/-- BAR_LIMIT as it acts: `none` when disabled. -/
def barLimit (d : Dev) (n : Nat) : Option Nat :=
  let v := regField d (aBarLimit n) 0 32
  if v = 0 then none else some (max v 4096)

/-- The lowest lane that is PARKED. DESIGN CHOICE (log 68): where lanes are PARKED at different barriers, its PC and
barrier are the ones reported. -/
def parkedLane (g : Group) : Option (Nat × Option (BitVec 3)) :=
  (List.range 32).findSome? fun t => match (laneOf g t).st with
    | .parked b => some (t, b)
    | _ => none

/-- LOC1 of the record: counts of ACTIVE, PARKED and EXITED threads, barrier kind and number (15 Table
15.2). -/
def stallInfo (g : Group) (b : Option (BitVec 3)) : Nat :=
  let count (p : Lane → Bool) : Nat := ((List.range 32).filter fun t => p (laneOf g t)).length
  let parked (l : Lane) : Bool := isLive l && !isActive l
  count isActive * 2 ^ 18 + count parked * 2 ^ 12 + count (fun l => !isLive l) * 2 ^ 6 +
    (match b with | some n => 8 + n.toNat | none => 0)

/-- FAULT_BARRIER_STALL: a group with PARKED threads whose count has reached BAR_LIMIT takes the fault
(R59). -/
def faultBarrierStall (x : At) (d : Dev) : Option Dev :=
  let n := x.core.toNat
  match getGroup (getCore d n) x.slot.toNat, barLimit d n with
  | some g, some lim =>
    (match parkedLane g with
    | some (t, b) =>
      if coreUp d n && decide (lim ≤ g.stall) then
        let mask := laneMask (perLane fun i => decide ((laneOf g i).st = .parked b))
        some (takeFault d n x.slot.toNat g.uid g.pos d.nextId 0x13 (laneOf g t).pc.toNat (stallInfo g b) mask)
      else none
    | none => none)
  | _, _ => none

/-- CORE_BAR_LIMIT_WRITE (R68, Table 2.4); the window of a fenced core ignores writes (R67). -/
def coreBarLimitWrite (core : BitVec 11) (v : D64) (d : Dev) : Dev :=
  if coreFenced d core.toNat then d else regPut d (aBarLimit core.toNat) (BitVec.ofNat 64 (bits v 0 32))

/-! ## The commands of this family -/

/-- FAULT_BARRIER_STALL (02 R59). -/
def execFaultBarrierStall (x : At) (s : State) : Host.Outcome State Fault Refusal :=
  gated s "FAULT_BARRIER_STALL" (faultBarrierStall x s.dev)
/-- CORE_BAR_LIMIT_WRITE (02 R68). -/
def execCoreBarLimitWrite (core : BitVec 11) (v : BitVec 64) (s : State) : Host.Outcome State Fault Refusal :=
  ok s (coreBarLimitWrite core v s.dev)
/-- TASK_START (07 R212). -/
def execTaskStart (core : BitVec 11) (queue : BitVec 12) (item : Nat) (s : State) : Host.Outcome State Fault Refusal :=
  gated s "TASK_START" (taskStart core queue item s.dev)
/-- GROUP_ADMIT (02 R63). -/
def execGroupAdmit (core : BitVec 11) (pos : Bool) (s : State) : Host.Outcome State Fault Refusal :=
  gated s "GROUP_ADMIT" (groupAdmit core pos s.dev)
/-- TASK_RELEASE (02 R66). -/
def execTaskRelease (core : BitVec 11) (pos : Bool) (s : State) : Host.Outcome State Fault Refusal :=
  gated s "TASK_RELEASE" (taskRelease core pos s.dev)

end Sys2Proof.Machine
end

