-- ==== Sys2Proof/Machine/Links.lean ====
section
/-! DEFINITION. Fabric ports, lanes and credits, routing, and sending messages (11 R319 to R341). -/

namespace Sys2Proof.Machine

/-! ## The device's place in the fabric -/

/-- Whether the device has an ID (R328), and its ID. -/
def hasId (d : Dev) : Bool := bit (regGet d aFabId) 63
def devId (d : Dev) : Nat := regField d aFabId 0 17

/-- FAB_ROLE: ROLE, MGR_VALID and MANAGER_ID (R349). -/
def fabRole (d : Dev) : Nat := regField d aFabRole 62 2
def isManager (d : Dev) : Bool := decide (fabRole d = 2)
def isWorker (d : Dev) : Bool := decide (fabRole d = 1)
def mgrValid (d : Dev) : Bool := bit (regGet d aFabRole) 61
def managerId (d : Dev) : Nat := regField d aFabRole 0 17

def setFab (d : Dev) (f : Fab) : Dev := { d with fab := f }
def getLink (d : Dev) (p : Nat) : FabPort := mapGet downPort d.fab.ports p
def putLink (d : Dev) (p : Nat) (v : FabPort) : Dev :=
  setFab d { d.fab with ports := mapPut downPort d.fab.ports p v }

/-- Port states (Table 11.17). -/
def lsDown : Nat := 0
def lsTraining : Nat := 1
def lsKeying : Nat := 2
def lsUp : Nat := 3
def portUp (d : Dev) (p : Nat) : Bool := decide ((getLink d p).st = lsUp)

/-! ## Messages on a link (R322, R326, R333, R334) -/

/-- The virtual channel of a TYPE (Table 11.3): 0 REQ, 1 RSP, 2 RED, 3 MGT; `none` for a reserved one. -/
def vcOf (typ : Nat) : Option Nat :=
  if typ ≤ 2 then some 0
  else if typ = 3 then some 3
  else if typ = 4 ∨ typ = 5 then some 2
  else if 8 ≤ typ ∧ typ ≤ 10 then some 1
  else none

/-- CRED_LANE of a message (Table 11.3). -/
def laneIx (m : Msg) : Nat := 2 * (vcOf m.typ.toNat).getD 0 + b2n m.lane

/-- Slots of a message: the header and its data; a GET carries none (R333). -/
def slotsOf (m : Msg) : Nat := 1 + if m.typ = 1 then 0 else ceilDiv m.len.toNat 32

/-- Flits of a message: it begins in a flit of its own and TYPE 15 marks the rest of its last one as
padding (R322, R323; log 23). -/
def flitsOf (m : Msg) : Nat := ceilDiv (slotsOf m) 7

/-- Base priority of a virtual channel (Table 11.3). -/
def vcPrio (vc : Nat) : Nat := [6, 10, 8, 12].getD vc 0

/-- A header with no data and everything else 0. -/
def blankMsg : Msg :=
  { typ := 0, op := 0, dst := 0, src := 0, ttl := 0, status := 0, len := 0, seq := 0, tag := 0, addr := 0,
    rtag := 0, chunk := 0, fence := false, abort := false, result := false, opened := false, lane := false,
    noId := false, data := [] }

/-- A message's data as sent. -/
def withData (m : Msg) (bs : List Byte) : Msg := { m with len := BitVec.ofNat 10 bs.length, data := bs }

/-- The response to a request (R334): its TAG, source and destination swapped, SEQ 0. -/
def respTo (m : Msg) (status : Nat) (bs : List Byte) : Msg :=
  let typ := if m.typ = 1 then 9 else if m.typ = 2 then 10 else 8
  withData { blankMsg with typ := typ, dst := m.src, src := m.dst, tag := m.tag,
                           status := BitVec.ofNat 4 status } bs

/-- PUT, GET, ATOMIC and MSG have responses (Table 11.6). -/
def isRequest (m : Msg) : Bool := decide (m.typ.toNat ≤ 3)
def isResponse (m : Msg) : Bool := decide (8 ≤ m.typ.toNat) && decide (m.typ.toNat ≤ 10)

/-! ## The output port (R305, R325, R326) -/

/-- The input of a waiting message: 2 × lane + forwarded. -/
def inputOf (e : Bool × Msg) : Nat := 2 * laneIx e.2 + b2n e.1

/-- The first waiting message of an input. -/
def headOf (v : FabPort) (i : Nat) : Option (Bool × Msg) := v.txq.find? fun e => decide (inputOf e = i)

/-- Whether a message may start: credits for every slot, room in the replay buffer, and a nonce left in
the epoch (R324 to R326). -/
def maySend (v : FabPort) (m : Msg) : Bool :=
  decide (slotsOf m ≤ v.credits.getD (laneIx m) 0) &&
  decide (v.replay.length + flitsOf m ≤ 512) && decide (v.nonce + flitsOf m < 2 ^ 40)

/-- The inputs whose head may start. -/
def readyInputs (v : FabPort) : List Nat :=
  (List.range 16).filter fun i => match headOf v i with
    | some e => maySend v e.2
    | none => false

/-- The priority of input `i`: the base priority of its channel when its head arrived, raised since. -/
def inputPrio (v : FabPort) (i : Nat) : Nat := max (vcPrio (i / 4)) (v.prio.getD i 0)

/-- The input granted: the first in rotation with the largest priority (R305). -/
def grantInput (v : FabPort) : Option Nat :=
  let c := readyInputs v
  let top := c.foldl (fun m i => max m (inputPrio v i)) 0
  ((List.range 16).map fun k => (v.rot + k) % 16).find? fun i =>
    c.contains i && decide (inputPrio v i = top)

/-- Replace an element of a list. -/
def setAt {α : Type} (l : List α) (i : Nat) (x : α) : List α :=
  (l.zip (List.range l.length)).map fun e => if e.2 = i then x else e.1

/-- Send the head of input `i`: its slots are taken from the lane's credits and its flits stand in the
replay buffer under new nonces (R324 to R326); every other ready input rises by one (R305). -/
def sendInput (v : FabPort) (i : Nat) : FabPort :=
  match headOf v i with
  | none => v
  | some e =>
    let n := flitsOf e.2
    let l := laneIx e.2
    let c := readyInputs v
    { v with
      txq := v.txq.erase e, credits := setAt v.credits l (v.credits.getD l 0 - slotsOf e.2),
      replay := v.replay ++ (List.range n).map fun k => ((v.txSeq + k) % 2 ^ 16, e.2),
      txSeq := (v.txSeq + n) % 2 ^ 16, nonce := v.nonce + n, rot := (i + 1) % 16,
      prio := (List.range 16).map fun j =>
        if j = i then 0 else if c.contains j then min (inputPrio v j + 1) 15 else v.prio.getD j 0 }

/-- Send whatever may start, message by message. -/
def pumpLink : Nat → FabPort → FabPort
  | 0, v => v
  | n + 1, v =>
    if v.st ≠ lsUp then v
    else match grantInput v with
      | some i => pumpLink n (sendInput v i)
      | none => v

/-- Send whatever may start; a device without an ID sends only messages with NO_ID (R328, R329). -/
def pump (d : Dev) (v : FabPort) : FabPort :=
  let may (e : Bool × Msg) : Bool := hasId d || e.2.noId
  let w := pumpLink v.txq.length { v with txq := v.txq.filter may }
  { w with txq := w.txq ++ v.txq.filter fun e => !may e }

/-- Every port goes on: an ID lets the messages go that waited for it. -/
def pumpPorts (d : Dev) : Dev := (List.range 8).foldl (fun d p => putLink d p (pump d (getLink d p))) d

/-- Give a port a message to send (R326). -/
def linkSend (d : Dev) (p : Nat) (fwd : Bool) (m : Msg) : Dev :=
  let v := getLink d p
  putLink d p (pump d { v with txq := v.txq ++ [(fwd, m)] })

/-! ## Received messages (R326, R327) -/

/-- A received message has been taken: it leaves the port's buffer and its slots are credited back. A message that
the buffer does not hold is one whose last flit verifies in the event that takes it (R354; log 23). -/
def takeRx (d : Dev) (p : Nat) (m : Msg) : Dev :=
  let v := getLink d p
  if v.rxq.contains m then
    let l := laneIx m
    let d := setFab d { d.fab with arrived := d.fab.arrived.erase (p, m) }
    putLink d p { v with rxq := v.rxq.erase m,
                         returned := setAt v.returned l (v.returned.getD l 0 + slotsOf m) }
  else d

/-- The messages that arrived before one and have not been taken; before one that is not in the buffers, all. -/
def ahead (d : Dev) (p : Nat) (m : Msg) : List (Nat × Msg) := d.fab.arrived.takeWhile fun e => e != (p, m)

/-- Two messages of one source and destination on one virtual channel (R341 item 1). -/
def sameFlow (a b : Msg) : Bool :=
  decide (a.src = b.src) && decide (a.dst = b.dst) && decide (vcOf a.typ.toNat = vcOf b.typ.toNat)

/-- No message of the flow that came over the same port stands before this one (R341 item 1). -/
def inTurn (d : Dev) (p : Nat) (m : Msg) : Bool :=
  !(ahead d p m).any fun e => decide (e.1 = p) && sameFlow e.2 m

/-- The lines a PUT, GET or ATOMIC touches: the first and the last. -/
def msgLines (m : Msg) : Nat × Nat :=
  let a := m.addr.toNat
  (a / 128, if m.typ = 2 then a / 128 else (a + m.len.toNat - 1) / 128)

/-- Two REQ messages of one source touch a common line, so that they are performed in order (R341 item 2). -/
def sharesLine (a b : Msg) : Bool :=
  decide ((msgLines a).1 ≤ (msgLines b).2) && decide ((msgLines b).1 ≤ (msgLines a).2)

/-! ## Routing (R328 to R332) -/

/-- A route table entry (Table 11.4). -/
def routeEntry (d : Dev) (dst : Nat) : Word := mapGet 0 d.fab.routes dst
def rtValid (e : Word) : Bool := bit e 31
def rtPrimary (e : Word) : Nat := bits e 28 3
def rtAltValid (e : Word) : Bool := bit e 27
def rtAlt (e : Word) : Nat := bits e 24 3
def rtDateline (e : Word) : Bool := bit e 23
def rtHops (e : Word) : Nat := bits e 0 17

/-- The port a message to `dst` takes (R331 items 1 and 3, R332). -/
def routePort (d : Dev) (dst : Nat) : Option Nat :=
  let e := routeEntry d dst
  if !rtValid e then none
  else if portUp d (rtPrimary e) && !mapGet false d.fab.sticky dst then some (rtPrimary e)
  else if rtAltValid e && portUp d (rtAlt e) then some (rtAlt e)
  else none

/-- EV_ROUTE_UNREACHABLE (R331): its record names no value of the rule. -/
def unreachableEvent (d : Dev) (m : Msg) : Dev := event d (src 8 2) 0x0504 m.dst.toNat m.src.toNat 0 0

/-- TTL of a message the device originates (R331 item 1). -/
def startTtl (d : Dev) (dst : Nat) : Nat := min 131071 (rtHops (routeEntry d dst) + regField d aFabCfg 0 8)

/-- Send a message of the device itself: on a port, or not with the status of R331. A device without an
ID sends none (R328). -/
def sendOwn (d : Dev) (m : Msg) : Option Nat × Dev :=
  if !hasId d then (none, d)
  else match routePort d m.dst.toNat with
    | none => (none, unreachableEvent d m)
    | some p =>
      let m := { m with lane := false, ttl := BitVec.ofNat 17 (startTtl d m.dst.toNat) }
      (some p, linkSend d p false m)

/-- Discard, count and log a message (R334, R338, R340): FIRMWARE record 0x03 of CP2 (15 R454). -/
def discardMsg (d : Dev) (m : Msg) : Dev :=
  fwRecord (setFab d { d.fab with discards := d.fab.discards + 1 }) 2 0x03 m.tag.toNat m.status.toNat 0

/-- Send a response of this device; one it cannot deliver is discarded, counted and logged (R338). -/
def sendResponse (d : Dev) (m : Msg) : Dev :=
  match sendOwn d m with
  | (some _, d) => d
  | (none, d) => discardMsg d m

/-! ## Requests of this device (R339, R340) -/

/-- The channel of a request in the counters of R339: 0 REQ, 1 MGT. -/
def chanIx (m : Msg) : Nat := if m.typ = 3 then 1 else 0

/-- The first TAG from `t` that no outstanding request has. -/
def unusedTag (outs : List Out) : Nat → Nat → Nat
  | 0, t => t % 2 ^ 16
  | n + 1, t => if outs.any fun o => decide (o.tag = t % 2 ^ 16) then unusedTag outs n (t + 1) else t % 2 ^ 16

/-- The next SEQ to a destination on a channel (R339). -/
def takeSeq (d : Dev) (dst ch : Nat) : Word × Dev :=
  let s := mapGet 0 d.fab.seqs (2 * dst + ch)
  (s, setFab d { d.fab with seqs := mapPut 0 d.fab.seqs (2 * dst + ch) (s + 1) })

/-- Send a request with its TAG and SEQ; its TAG, or `none` with the state when no route takes it. -/
def sendRequest (d : Dev) (m : Msg) (use : OutUse) : Option Nat × Dev :=
  let tag := unusedTag d.fab.outs d.fab.outs.length d.fab.nextTag
  let (seq, d1) := takeSeq d m.dst.toNat (chanIx m)
  let m := { m with src := BitVec.ofNat 17 (devId d), tag := BitVec.ofNat 16 tag, seq := seq }
  match sendOwn d1 m with
  | (some p, d) =>
    (some tag, setFab d { d.fab with
      nextTag := (tag + 1) % 2 ^ 16, outs := d.fab.outs ++ [{ tag := tag, port := p, use := use, msg := m }] })
  | (none, d) => (none, d)

/-- Send a request again with the SEQ and TAG it had (R336). -/
def resendRequest (d : Dev) (o : Out) : Bool × Dev :=
  match sendOwn d o.msg with
  | (some p, d) => (true, setFab d { d.fab with outs := d.fab.outs ++ [{ o with port := p }] })
  | (none, d) => (false, d)

/-- The outstanding request with a TAG. -/
def findOut (d : Dev) (tag : Nat) : Option Out := d.fab.outs.find? fun o => decide (o.tag = tag)

/-- A request has completed. -/
def dropOut (d : Dev) (tag : Nat) : Dev :=
  setFab d { d.fab with outs := d.fab.outs.filter fun o => o.tag != tag }

/-! ## The duplicate filter (R339) -/

/-- What the filter says of a SEQ. -/
inductive DupState where
  | fresh | duplicate | old
deriving DecidableEq, Repr

def getFilter (d : Dev) (src ch : Nat) : DupFilter := mapGet clearFilter d.fab.filters (2 * src + ch)

/-- A SEQ above H modulo 2^32, or within the window and not recorded, is fresh. -/
def dupState (f : DupFilter) (seq : Word) : DupState :=
  let up := (seq - f.high).toNat
  let back := (f.high - seq).toNat
  if 0 < up ∧ up < 2 ^ 31 then .fresh
  else if back < 64 then (if bit f.seen back then .duplicate else .fresh)
  else .old

/-- Record a SEQ that was answered with status OK. -/
def recordSeq (d : Dev) (src ch : Nat) (seq : Word) : Dev :=
  let f := getFilter d src ch
  let up := (seq - f.high).toNat
  let back := (f.high - seq).toNat
  let f := if 0 < up ∧ up < 2 ^ 31 then { high := seq, seen := (f.seen <<< up) ||| 1 }
    else if back < 64 then { f with seen := setBits f.seen back 1 1 } else f
  setFab d { d.fab with filters := mapPut clearFilter d.fab.filters (2 * src + ch) f }

end Sys2Proof.Machine
end

