-- ==== Sys2Proof/Machine/Hostport.lean ====
section
/-! DEFINITION. Host ports, sessions, responses and events as the device sends them, signals and waits
(12 R358 to R380, R390). -/

namespace Sys2Proof

/-! ## The Spaolo header (12 R364, Table 12.7) -/

/-- A header of its fields, the most significant first; bits [33:8] are reserved. -/
def spaoloHeader (tag seq : D64) (length : Word) (alive session : BitVec 16) (opcode status flags : Byte)
    (mailbox : BitVec 6) (version : Byte) : BitVec 256 :=
  tag ++ seq ++ length ++ alive ++ session ++ opcode ++ status ++ flags ++ mailbox ++ (0 : BitVec 26) ++ version

def Frame.version (f : Frame) : Byte := f.header.extractLsb' 0 8
def Frame.mailbox (f : Frame) : BitVec 6 := f.header.extractLsb' 34 6
def Frame.clear (f : Frame) : Bool := f.header.getLsbD 41
def Frame.session (f : Frame) : BitVec 16 := f.header.extractLsb' 64 16
def Frame.opcode (f : Frame) : Byte := f.header.extractLsb' 56 8
def Frame.alive (f : Frame) : BitVec 16 := f.header.extractLsb' 80 16
def Frame.length (f : Frame) : Word := f.header.extractLsb' 96 32
def Frame.seq (f : Frame) : D64 := f.header.extractLsb' 128 64
def Frame.tag (f : Frame) : D64 := f.header.extractLsb' 192 64
/-- Reserved fields are 0: bits [33:8] and FLAGS bits [47:44]. -/
def Frame.reserved (f : Frame) : Bool :=
  decide (f.header.extractLsb' 8 26 = 0) && decide (f.header.extractLsb' 44 4 = 0)

end Sys2Proof

namespace Sys2Proof.Machine

/-! ## Ports and sessions -/

def setHpt (d : Dev) (h : Hpt) : Dev := { d with hpt := h }
def setDisp (d : Dev) (p : Disp) : Dev := { d with disp := p }
def getHost (d : Dev) (p : Nat) : HostPort := mapGet idleHost d.hpt.ports p
def putHost (d : Dev) (p : Nat) (v : HostPort) : Dev :=
  setHpt d { d.hpt with ports := mapPut idleHost d.hpt.ports p v }
def getSession (d : Dev) (n : Nat) : Option Session := mapGet none d.hpt.sessions n
def putSession (d : Dev) (n : Nat) (v : Option Session) : Dev :=
  setHpt d { d.hpt with sessions := mapPut none d.hpt.sessions n v }
/-- The sessions in use, ascending. -/
def openSessions (d : Dev) : List Nat := d.hpt.sessions.map (·.1)

/-- Fields of HPT_PORT_CFG_p (Table 12.2). -/
def hpEn (d : Dev) (p : Nat) : Bool := bit (regGet d (aHptCfg p)) 63
def hpCmdEn (d : Dev) (p : Nat) : Bool := bit (regGet d (aHptCfg p)) 62
def hpWakeEn (d : Dev) (p : Nat) : Bool := bit (regGet d (aHptCfg p)) 61
def hpPfcEn (d : Dev) (p : Nat) : Bool := bit (regGet d (aHptCfg p)) 60
def hpPrio (d : Dev) (p : Nat) : Nat := regField d (aHptCfg p) 57 3
/-- MAX_PAY in bytes, within its range. -/
def maxPay (d : Dev) (p : Nat) : Nat := 64 * min 128 (max 16 (regField d (aHptCfg p) 32 8))

/-- Whether a port is in LISTEN (R361): EN 0, or no power to the fast domains. -/
def listening (d : Dev) (p : Nat) : Bool := !hpEn d p || !d.sor.rails

/-- The device is READY (16 Table 16.9). -/
def isReady (d : Dev) : Bool := bit (regGet d aSecBoot) 63

/-! ## Frames the device sends (R363, R364, R369) -/

/-- VLAN_EN and VLAN_ID, ENCAP, ETHERTYPE, UDP_PORT and the port's addresses (Tables 12.2, 12.4 to 12.6). -/
def hpVlanEn (d : Dev) (p : Nat) : Bool := bit (regGet d (aHptCfg p)) 56
def hpVlan (d : Dev) (p : Nat) : BitVec 12 := BitVec.ofNat 12 (regField d (aHptCfg p) 44 12)
/-- ENCAP; the reserved value 3 acts as 0 (log 68). -/
def hpEncap (d : Dev) (p : Nat) : Nat := regField d (aHptCfg p) 42 2 % 3
def hpEthertype (d : Dev) (p : Nat) : BitVec 16 := BitVec.ofNat 16 (regField d (aHptCfg p) 16 16)
def hpUdpPort (d : Dev) (p : Nat) : BitVec 16 := BitVec.ofNat 16 (regField d (aHptCfg p) 0 16)
def hpIpv4 (d : Dev) (p : Nat) : Word := BitVec.ofNat 32 (regField d (aHptIpv4 p) 0 32)
def hpIpv6 (d : Dev) (p : Nat) : BitVec 128 := regGet d (aHptIpv6Hi p) ++ regGet d (aHptIpv6Lo p)

/-- The tag of what a port sends: VLAN_ID, with PCP equal to PFC_PRIO (R359, R360). -/
def txTag (d : Dev) (p : Nat) : Option (BitVec 12 × BitVec 3) :=
  if hpVlanEn d p then some (hpVlan d p, BitVec.ofNat 3 (hpPrio d p)) else none

/-- How a port's frames are carried (R363). -/
def txCarried (d : Dev) (p : Nat) : TxCarried :=
  match hpEncap d p with
  | 1 => .udp4 (hpIpv4 d p)
  | 2 => .udp6 (hpIpv6 d p)
  | _ => .raw (hpEthertype d p)

/-- The header of a frame as sent (R364): VERSION 1, RESPONSE set in every frame but an EVENT, LENGTH the bytes of
payload. -/
def txHeader (f : TxFrame) : BitVec 256 :=
  spaoloHeader f.tag f.seq (BitVec.ofNat 32 f.payload.length) f.alive (BitVec.ofNat 16 f.session)
    (BitVec.ofNat 8 f.opcode) (BitVec.ofNat 8 f.status)
    (BitVec.ofNat 8 (b2n !f.event + 2 * b2n f.clear + 4 * b2n f.more + 8 * b2n f.event))
    (BitVec.ofNat 6 f.mailbox) 1

/-- A frame as port `p` sends it; the UDP checksum is computed on IPv6 and 0 on IPv4 (R363). -/
def packet (d : Dev) (p : Nat) (nonce : Option (BitVec 96)) (f : TxFrame) : TxPacket :=
  { tag := txTag d p, carried := txCarried d p, summed := decide (hpEncap d p = 2), header := txHeader f,
    nonce := nonce, frame := f }

/-- Queue a frame on a port. -/
def pushFrame (d : Dev) (p : Nat) (nonce : Option (BitVec 96)) (f : TxFrame) : Dev :=
  let v := getHost d p
  putHost d p { v with txq := v.txq ++ [packet d p nonce f] }

/-- A clear frame of the handshake (R367): fragment `idx` of a step, with MORE on all but the last. -/
def clearFrame (source idx : Nat) (more : Bool) (status : Nat) (payload : List Byte) : TxFrame :=
  { session := 0, source := source, clear := true, event := false, more := more, opcode := 1,
    status := status, mailbox := 0, seq := BitVec.ofNat 64 idx, tag := 0, alive := 0, payload := payload }

/-- The largest value FCNT takes: a session ends before FCNT would reach 2^48 (R369). -/
def lastCount : Nat := 2 ^ 48 - 1

/-- The nonce of a frame from the device: direction bit 1, 47 zero bits and FCNT (R369). -/
def frameNonce (fcnt : Nat) : BitVec 96 := BitVec.ofNat 96 (2 ^ 95 + fcnt)

/-- Send one frame of a session, under its next frame counter (R369). At the counter's last value the session sends
nothing more: FRAME_COUNTER_LIMIT ends it. -/
def sendFrame (d : Dev) (sn p : Nat) (f : TxFrame) : Dev :=
  match getSession d sn with
  | none => d
  | some s =>
    if lastCount ≤ s.txCnt then d
    else
      let f := { f with session := sn, alive := BitVec.ofNat 16 s.txCnt }
      pushFrame (putSession d sn (some { s with txCnt := s.txCnt + 1 })) p (some (frameNonce s.txCnt)) f

/-- Cut a payload into pieces of at most `n` bytes, at least one piece. -/
def pieces (n : Nat) : Nat → List Byte → List (List Byte)
  | 0, l => [l]
  | k + 1, l => if l.length ≤ n then [l] else l.take n :: pieces n k (l.drop n)

/-- The frames of one response: MORE on all but the last (log 24). -/
def responseFrames (d : Dev) (r : Resp) (mailbox status : Nat) (payload : List Byte) : List TxFrame :=
  let ps := pieces (maxPay d r.port) payload.length payload
  (ps.zip (List.range ps.length)).map fun e =>
    { session := 0, source := r.source, clear := false, event := false, more := decide (e.2 + 1 < ps.length),
      opcode := r.opcode, status := status, mailbox := mailbox, seq := r.seq, tag := r.tag, alive := 0,
      payload := e.1 }

/-- Keep a response among the last 64 of its stream (R371). -/
def storeResponse (s : Session) (mailbox seq : Nat) (fs : List TxFrame) : Session :=
  let st := mapGet newStream s.streams mailbox
  let l := st.resps ++ [(seq, fs)]
  { s with streams := mapPut newStream s.streams mailbox { st with resps := l.drop (l.length - 64) } }

/-- A result header (Table 12.10): devices that returned OK, the first that failed, those with no
answer. -/
def resultHeader (okCount : Nat) (fail : Option (Nat × Nat)) (noAnswer : Nat) : List Byte :=
  natBytes 4 okCount ++
    (match fail with
      | some f => natBytes 4 f.1 ++ natBytes 1 f.2 ++ natBytes 1 1
      | none => natBytes 6 0) ++ natBytes 2 0 ++ natBytes 4 noAnswer

/-- The result header of a command on the device itself; one that fails names this device (log 25). -/
def selfHeader (d : Dev) (status : Nat) : List Byte :=
  resultHeader (b2n (status == 0)) (if status = 0 then none else some (devId d, status)) 0

/-- Answer a command (R375 to R380): to its host session on the port it came in on, or to the manager
that fanned it out, as a MSG to its FMB2 with the manager's number of the fan-out, the status and the
result header (R372; log 26). -/
def respondWith (d : Dev) (r : Resp) (status : Nat) (header data : List Byte) : Dev :=
  match r.origin with
  | .host sn mb =>
    (match getSession d sn.toNat with
    | none => d
    | some s =>
      let fs := responseFrames d r mb.toNat status (header ++ data)
      let d := putSession d sn.toNat (some (storeResponse s mb.toNat r.seq.toNat fs))
      fs.foldl (fun d f => sendFrame d sn.toNat r.port f) d)
  | .fabric mgr fan =>
    let m := withData { blankMsg with typ := 3, dst := mgr, addr := 2 }
      (natBytes 4 fan.toNat ++ natBytes 1 status ++ header)
    (sendRequest d m .notice).2

/-- Answer a command of the device itself (TARGET SELF). -/
def respond (d : Dev) (r : Resp) (status : Nat) (data : List Byte) : Dev :=
  respondWith d r status (selfHeader d status) data

/-- Send an EVENT to a session (R366, R371, Table 12.12): to the source of its most recent
authenticated frame, with the next EVENT SEQ. -/
def sendEvent (d : Dev) (sn kind : Nat) (data : List Byte) : Dev :=
  match getSession d sn with
  | none => d
  | some s =>
    let d := putSession d sn (some { s with evSeq := s.evSeq + 1 })
    sendFrame d sn s.port
      { session := sn, source := s.source, clear := false, event := true, more := false, opcode := 0x80,
        status := 0, mailbox := 0, seq := BitVec.ofNat 64 (s.evSeq + 1), tag := 0, alive := 0,
        payload := natBytes 4 kind ++ data }

/-- Send the same EVENT to every open session. -/
def broadcastEvent (d : Dev) (kind : Nat) (data : List Byte) : Dev :=
  (openSessions d).foldl (fun d n => sendEvent d n kind data) d

/-! ## Signals (R390) -/

def getSignal (d : Dev) (i : Nat) : D64 := mapGet 0 d.disp.signals i

/-- Answer the WAITs that a signal satisfies, in the order they were made. -/
def wakeWaits (d : Dev) (i : Nat) : Dev :=
  let v := getSignal d i
  let hit (w : PendWait) : Bool := decide (w.index = i) && decide (w.value.toNat ≤ v.toNat)
  let d1 := setDisp d { d.disp with waits := d.disp.waits.filter fun w => !hit w }
  (d.disp.waits.filter hit).foldl (fun d w => respond d w.resp 0 (natBytes 8 v.toNat)) d1

/-- Give a signal a value; pending WAITs are evaluated after the change. 0xFFFF names no signal. -/
def setSignal (d : Dev) (i : Nat) (v : D64) : Dev :=
  if i = 0xFFFF then d
  else wakeWaits (setDisp d { d.disp with signals := mapPut 0 d.disp.signals i v }) i

/-- Add 1 to a signal, modulo 2^64. -/
def raiseSignal (d : Dev) (i : Nat) : Dev := setSignal d i (getSignal d i + 1)

/-- Whether a gate or start signal has reached a value; 0xFFFF is no signal. -/
def signalReached (d : Dev) (i : Nat) (v : D64) : Bool :=
  decide (i = 0xFFFF) || decide (v.toNat ≤ (getSignal d i).toNat)

/-! ## Ends of sessions (R370) -/

/-- The answer to a session that has ended goes nowhere: session 0 is never in use. -/
def orphanResp (sn : Nat) (r : Resp) : Resp :=
  match r.origin with
  | .host s m => if s.toNat = sn then { r with origin := .host 0 m } else r
  | .fabric _ _ => r

/-- A work item outlives the session that launched it, and notifies nobody then. -/
def orphanItems (gone : Nat → Bool) (v : Queue) : Queue :=
  { v with items := v.items.map fun w => if w.session.any gone then { w with session := none } else w }

/-- What a session began and has not been answered: a later session of the same number gets none of it. -/
def orphan (d : Dev) (sn : Nat) : Dev :=
  let d := setDisp d { d.disp with
    queues := d.disp.queues.map fun e => (e.1, e.2.map (orphanItems (· == sn))),
    engines := d.disp.engines.map fun e =>
      (e.1, { e.2 with descs := e.2.descs.map fun c => { c with resp := orphanResp sn c.resp } }),
    fencing := d.disp.fencing.map fun e => (e.1, orphanResp sn e.2) }
  setFab d { d.fab with fans := d.fab.fans.map fun f => { f with resp := orphanResp sn f.resp } }

/-- End a session: its pending WAITs and subscriptions end without response, its commands that have not begun are
not executed, and no answer or notice of what it began is sent. -/
def endSession (d : Dev) (sn : Nat) : Dev :=
  let mine (r : Resp) : Bool := match r.origin with
    | .host s _ => decide (s.toNat = sn)
    | .fabric _ _ => false
  let d := orphan (putSession d sn none) sn
  let d := setDisp d { d.disp with waits := d.disp.waits.filter fun w => !mine w.resp }
  let d := setHpt d { d.hpt with boxes := d.hpt.boxes.filterMap fun e =>
    let l := e.2.filter fun f => decide (f.2.session.toNat ≠ sn)
    if l = [] then none else some (e.1, l), heads := d.hpt.heads.filter fun k => k.1 != sn }
  let d := [0, 1].foldl (fun d p =>
    let v := getHost d p
    putHost d p { v with xfers := v.xfers.filter fun f => decide (f.session.toNat ≠ sn) }) d
  if d.fab.sink = some sn then setFab d { d.fab with sink := none } else d

/-- EVENT of kind SESSION_END to every session, before a commanded reset that clears the base die. -/
def sessionEndEvents (d : Dev) : Dev := broadcastEvent d 5 []

end Sys2Proof.Machine
end

