-- ==== Sys2Proof/Machine/Engines.lean ====
section
/-! DEFINITION. Accesses to the local address space by base die masters, and the copy engine channels
(09 R261 to R264; 10 R314, R315; 12 R378; 15 R457). -/

namespace Sys2Proof.Machine

/-! ## The ranges that masters reach (09 Table 9.1, R263, R264) -/

/-- Start of the scratchpad windows, and their size. -/
def winBase : Nat := 0x7A0000000000
def winSpan : Nat := 0x40000000

/-- A range lies in the device address window, or in the scratchpad windows. -/
def inDevice (a n : Nat) : Bool := decide (a + n ≤ 2 ^ 39)
def inWindows (a n : Nat) : Bool := decide (winBase ≤ a) && decide (a + n ≤ winBase + winSpan)
def rangeOpen (a n : Nat) : Bool := inDevice a n || inWindows a n

/-- A range lies within one device page or one scratchpad window (11 R335, 12 R382). -/
def oneRegion (a n : Nat) : Bool :=
  (inDevice a n && decide (a / 2 ^ 20 = (a + n - 1) / 2 ^ 20)) ||
  (inWindows a n && decide (a / 2 ^ 19 = (a + n - 1) / 2 ^ 19))

/-- Lines a range touches. -/
def spanLines (a n : Nat) : Nat := if n = 0 then 0 else (a + n - 1) / 128 - a / 128 + 1

/-- Count the lines of an access for its master (10 R314). -/
def spendRange (d : Dev) (m a n : Nat) : Dev := (List.range (spanLines a n)).foldl (fun d _ => spend d m) d

/-- Read `n` bytes at a local address for master `m` in class `k`: a status of 11 Table 11.7 and the
bytes. The range lies in one page run or one window. -/
def localRead (d : Dev) (m k a n : Nat) : (Nat × List Byte) × Dev :=
  if inDevice a n then readDev (spendRange d m a n) k a n
  else if inWindows a n then winRead (spendRange d m a n) ((a - winBase) / 2 ^ 19) ((a - winBase) % 2 ^ 19) n
  else ((1, []), d)

/-- Write bytes at a local address for master `m` in class `k`: the status. -/
def localWrite (d : Dev) (m k a : Nat) (bs : List Byte) : Nat × Dev :=
  let n := bs.length
  if inDevice a n then writeDev (spendRange d m a n) k a bs
  else if inWindows a n then winWrite (spendRange d m a n) ((a - winBase) / 2 ^ 19) ((a - winBase) % 2 ^ 19) bs
  else (1, d)

/-- The SCI status of a fabric status (R377). -/
def sciOf (s : Nat) : Nat :=
  [0, 0x0B, 0x0C, 0x0D, 0x0E, 0x18, 0x21, 0x22, 0x19, 0x23, 0x1F, 0x08, 0x1B, 0x1B, 0x09, 0x07].getD s 0

/-! ## Copy engine channels -/

def getEngine (d : Dev) (e : Nat) : Engine := mapGet idleEngine d.disp.engines e
def putEngine (d : Dev) (e : Nat) (v : Engine) : Dev :=
  setDisp d { d.disp with engines := mapPut idleEngine d.disp.engines e v }

/-- The device and the local part of a global address (09 R264). -/
def gDev (a : D64) : Nat := bits a 47 17
def gLocal (a : D64) : Nat := bits a 0 47

/-- A global address of the device itself is served locally. -/
def isOwn (d : Dev) (a : D64) : Bool := decide (gDev a = devId d)

/-- Bytes of a descriptor's next piece: at most 512, within one window-sized block of both sides. -/
def pieceLen (c : CopyDesc) : Nat :=
  let s := gLocal c.src + c.off
  let t := gLocal c.dst + c.off
  min (min 512 (c.len - c.off)) (min (2 ^ 19 - s % 2 ^ 19) (2 ^ 19 - t % 2 ^ 19))

/-- Change the head descriptor of a channel. -/
def setHead (d : Dev) (e : Nat) (f : CopyDesc → CopyDesc) : Dev :=
  let v := getEngine d e
  match v.descs with
  | c :: cs => putEngine d e { v with descs := f c :: cs }
  | [] => d

/-- End the head with a status (R457 item 1). -/
def failHead (d : Dev) (e s : Nat) : Dev := setHead d e fun c => { c with status := s, tag := none }

/-- Send the PUT of the head's next piece. -/
def putPiece (d : Dev) (e : Nat) (c : CopyDesc) (bs : List Byte) : Dev :=
  let m := withData { blankMsg with typ := 0, dst := BitVec.ofNat 17 (gDev c.dst),
                                    addr := BitVec.ofNat 47 (gLocal c.dst + c.off) } bs
  match sendRequest d m (.copy e) with
  | (some t, d) => setHead d e fun c => { c with tag := some t }
  | (none, d) => failHead d e 12

/-- Send the GET of the head's next piece. -/
def getPiece (d : Dev) (e : Nat) (c : CopyDesc) : Dev :=
  let m : Msg := { blankMsg with typ := 1, dst := BitVec.ofNat 17 (gDev c.src),
                                 addr := BitVec.ofNat 47 (gLocal c.src + c.off),
                                 len := BitVec.ofNat 10 (pieceLen c) }
  match sendRequest d m (.copy e) with
  | (some t, d) => setHead d e fun c => { c with tag := some t }
  | (none, d) => failHead d e 12

/-- Begin the next piece of a descriptor with a remote side, one piece at a time. A descriptor whose
two sides are local is performed when it completes (log 27). -/
def runEngine (d : Dev) (e : Nat) : Dev :=
  let v := getEngine d e
  match v.descs with
  | [] => d
  | c :: _ =>
    if v.halted || c.status ≠ 0 || c.off ≥ c.len || c.tag.isSome || (isOwn d c.src && isOwn d c.dst) ||
        !budgetOk d (2048 + e) then d
    else if !(rangeOpen (gLocal c.src) c.len && rangeOpen (gLocal c.dst) c.len) then failHead d e 1
    else if isOwn d c.src then
      match localRead d (2048 + e) c.cls (gLocal c.src + c.off) (pieceLen c) with
      | ((0, bs), d) => putPiece d e c bs
      | ((s, _), d) => failHead d e s
    else getPiece d e c

/-- A piece's bytes are performed: the channel goes on. -/
def advanceHead (d : Dev) (e n : Nat) : Dev :=
  runEngine (setHead d e fun c => { c with off := c.off + n, tag := none }) e

/-- The response to a request of a channel (R340): a GET's bytes are written, or sent on to the other
device. -/
def copyAnswer (d : Dev) (e : Nat) (m : Msg) (status : Nat) (bs : List Byte) : Dev :=
  match (getEngine d e).descs with
  | [] => d
  | c :: _ =>
    if status ≠ 0 then failHead d e status
    else if m.typ = 1 then
      if isOwn d c.dst then
        match localWrite d (2048 + e) c.cls (gLocal c.dst + c.off) bs with
        | (0, d) => advanceHead d e bs.length
        | (s, d) => failHead d e s
      else putPiece d e c bs
    else advanceHead d e m.data.length

/-- Perform a copy between two local ranges, piece by piece in ascending order: the status, and the
bytes performed stand (R457). -/
def copyLocal (e : Nat) : Nat → Dev → CopyDesc → Nat × Dev
  | 0, d, _ => (0, d)
  | fuel + 1, d, c =>
    if c.len ≤ c.off then (0, d)
    else
      let n := pieceLen c
      match localRead d (2048 + e) c.cls (gLocal c.src + c.off) n with
      | ((0, bs), d) =>
        match localWrite d (2048 + e) c.cls (gLocal c.dst + c.off) bs with
        | (0, d) => copyLocal e fuel d { c with off := c.off + n }
        | (s, d) => (s, d)
      | ((s, _), d) => (s, d)

/-- The channel's head ends with a status: its COPY is answered; UE, ABORT, FENCED and BASE_RESET halt
the channel and write a TRANSFER record (R457, 15 Table 15.2). -/
def endHead (d : Dev) (e s : Nat) : Dev :=
  let v := getEngine d e
  match v.descs with
  | [] => d
  | c :: cs =>
    let halt := [5, 8, 9, 10].contains s
    let d := putEngine d e { v with descs := cs, halted := v.halted || halt }
    let d := if halt then
        transferRecord d (src 3 e) s (2048 + e) (gLocal c.src + c.off) c.len c.resp.tag.toNat
      else d
    respond d c.resp (sciOf s) []

/-- COPY_DESCRIPTOR_COMPLETE: the last write of the channel's descriptor is performed, or it ends with a
status (R380, R457). -/
def copyDescriptorComplete (engine : BitVec 6) (d : Dev) : Option Dev :=
  let e := engine.toNat
  let v := getEngine d e
  match v.descs with
  | [] => none
  | c :: _ =>
    if v.halted then none
    else if c.status ≠ 0 then some (runEngine (endHead d e c.status) e)
    else if c.len ≤ c.off then some (runEngine (endHead d e 0) e)
    else if isOwn d c.src && isOwn d c.dst then
      if !budgetOk d (2048 + e) then none
      else if !(rangeOpen (gLocal c.src) c.len && rangeOpen (gLocal c.dst) c.len) then
        some (runEngine (endHead d e 1) e)
      else
        let (s, d) := copyLocal e c.len d c
        some (runEngine (endHead d e s) e)
    else none

/-- COPY_CHANNEL_RESTART: firmware restarts a halted channel, which runs the descriptors behind the
failed one (R457 items 3 and 4). -/
def copyChannelRestart (engine : BitVec 6) (d : Dev) : Option Dev :=
  let e := engine.toNat
  let v := getEngine d e
  if v.halted then some (runEngine (putEngine d e { v with halted := false }) e) else none

/-- The channel a COPY takes (R378): the one named, or for 0xFF the lowest with the fewest descriptors,
halted ones last; `none` when it or every one holds 64. -/
def chooseEngine (d : Dev) (engine : Nat) : Option Nat :=
  let room (e : Nat) : Bool := decide ((getEngine d e).descs.length < 64)
  if engine ≠ 0xFF then (if room engine then some engine else none)
  else
    let cost (e : Nat) : Nat := (getEngine d e).descs.length + 64 * b2n (getEngine d e).halted
    ((List.range 64).filter room).foldl (fun b e => match b with
      | none => some e
      | some x => if cost e < cost x then some e else some x) none

/-- Give a channel a descriptor. -/
def addCopy (d : Dev) (e : Nat) (c : CopyDesc) : Dev :=
  let v := getEngine d e
  runEngine (putEngine d e { v with descs := v.descs ++ [c] }) e

/-! ## Budget windows (10 R314) -/

/-- BUDGET_WINDOW: a window of master `m` begins at a multiple of its length: its count restarts at 0
and a changed configuration takes effect. A copy engine that the budget held goes on (10 R314). -/
def budgetWindow (m : BitVec 12) (d : Dev) : Option Dev :=
  if 2123 < m.toNat ∨ (regGet d aUsec).toNat % windowUs (budgetOf d m.toNat) ≠ 0 then none
  else
    let d := { d with budget := mapPut freshBudget d.budget m.toNat
                                  { used := 0, cfg := regGet d (aBudget m.toNat) } }
    some (if 2048 ≤ m.toNat ∧ m.toNat < 2112 then runEngine d (m.toNat - 2048) else d)

/-! ## The commands of this family -/

/-- COPY_DESCRIPTOR_COMPLETE (15 R457). -/
def execCopyDescriptorComplete (engine : BitVec 6) (s : State) : Host.Outcome State Fault Refusal :=
  gated s "COPY_DESCRIPTOR_COMPLETE" (copyDescriptorComplete engine s.dev)
/-- COPY_CHANNEL_RESTART (15 R457). -/
def execCopyChannelRestart (engine : BitVec 6) (s : State) : Host.Outcome State Fault Refusal :=
  gated s "COPY_CHANNEL_RESTART" (copyChannelRestart engine s.dev)

/-- BUDGET_WINDOW (10 R314). -/
def execBudgetWindow (master : BitVec 12) (s : State) : Host.Outcome State Fault Refusal :=
  gated s "BUDGET_WINDOW" (budgetWindow master s.dev)

end Sys2Proof.Machine
end

