-- ==== Sys2Proof/Machine/Lovage.lean ====
section
/-! DEFINITION. Lovage, the reduction engine: contexts, reductions and barriers (11 R342 to R348; 12
R391). -/

namespace Sys2Proof.Machine

def getCtx (d : Dev) (c : Nat) : LovCtx := mapGet freeCtx d.lov c
def putCtx (d : Dev) (c : Nat) (x : LovCtx) : Dev := { d with lov := mapPut freeCtx d.lov c x }

/-! ## The context image (Table 11.8) -/

def lcState (x : LovCtx) : Nat := bits x.image 509 3
def lcGen (x : LovCtx) : Nat := bits x.image 464 32
def lcProgress (x : LovCtx) : Nat := bits x.image 432 32
def lcTimeout (x : LovCtx) : Nat := bits x.image 416 16
def lcRtag (x : LovCtx) : Nat := bits x.image 384 32
def lcHasParent (x : LovCtx) : Bool := bit x.image 383
def lcParent (x : LovCtx) : Nat := bits x.image 380 3
/-- The ports to the children, ascending. -/
def lcChildren (x : LovCtx) : List Nat := (List.range 8).filter fun p => bit x.image (372 + p)
def lcLocal (x : LovCtx) : Bool := bit x.image 371
def lcDeliver (x : LovCtx) : Bool := bit x.image 370
def lcType (x : LovCtx) : Nat := bits x.image 368 2
def lcOp (x : LovCtx) : Nat := bits x.image 366 2
def lcWindow (x : LovCtx) : Nat := bits x.image 353 13
def lcCount (x : LovCtx) : Nat := bits x.image 321 32
def lcSrc (x : LovCtx) : Nat := bits x.image 282 39
def lcDst (x : LovCtx) : Nat := bits x.image 243 39

/-- States of a context. -/
def lcFree : Nat := 0
def lcOpen : Nat := 1
def lcRunning : Nat := 2
def lcDone : Nat := 3
def lcError : Nat := 4

/-- A context in use: OPEN, RUNNING or DONE. -/
def lcLive (x : LovCtx) : Bool := decide (1 ≤ lcState x) && decide (lcState x ≤ 3)

/-- A barrier context (R348). -/
def isBarrier (x : LovCtx) : Bool := decide (lcCount x = 0)

/-- Its tree edges: the parent and the children. -/
def lcEdges (x : LovCtx) : List Nat := (if lcHasParent x then [lcParent x] else []) ++ lcChildren x

/-- Chunks of a generation, and elements of chunk `i` (R342). -/
def lcChunks (x : LovCtx) : Nat := ceilDiv (lcCount x) 128
def lcElems (x : LovCtx) (i : Nat) : Nat := min 128 (lcCount x - 128 * i)

/-- Bytes of an element in memory. -/
def lcWidth (x : LovCtx) : Nat := if lcType x = 1 then 2 else 4

def setImg (x : LovCtx) (lo w v : Nat) : LovCtx := { x with image := setBits x.image lo w v }

/-- The RW fields of Table 11.8. -/
def lcRwMask : BitVec 512 := BitVec.ofNat 512 ((2 ^ 189 - 1) * 2 ^ 243)

/-! ## Edges -/

/-- A message of a context along a tree edge (R344 to R348): a BARRIER for a barrier context, a REDUCE
otherwise. Edges are direct links, so it goes to the port's peer. -/
def edgeMsg (d : Dev) (x : LovCtx) (p chunk : Nat) : Msg :=
  { blankMsg with typ := if isBarrier x then 5 else 4, dst := BitVec.ofNat 17 (getLink d p).peer,
                  src := BitVec.ofNat 17 (devId d), ttl := 1, rtag := BitVec.ofNat 32 (lcRtag x),
                  chunk := BitVec.ofNat 32 chunk }

/-- Whether a message can be delivered on an edge. -/
def edgeUp (d : Dev) (p : Nat) : Bool := hasId d && portUp d p

/-- Move a context to ERROR (R347): an ABORT goes to every edge but the one it came from, and
EV_REDUCE_ABORT is raised. -/
def ctxError (d : Dev) (c status : Nat) (origin : Option Nat) : Dev :=
  let x := getCtx d c
  let ps := (lcEdges x).filter fun p => decide (some p ≠ origin) && edgeUp d p
  let d := ps.foldl (fun d p => linkSend d p false { edgeMsg d x p 0 with abort := true }) d
  let x := setImg (setImg x 509 3 lcError) 505 4 status
  event (putCtx d c { x with chunks := [], armed := false }) (src 6 c) 0x0506 0 0 0 0

/-- Send along edges; one that is not up ends the context with UNREACHABLE (R338, R347). -/
def edgeSend (d : Dev) (ps : List Nat) (f : Nat → Msg) : Option Dev :=
  if ps.all (edgeUp d) then some (ps.foldl (fun d p => linkSend d p false (f p)) d) else none

/-- A failed access of the context: TRANSFER record for the statuses of 15 Table 15.2, then ERROR. -/
def ctxFail (d : Dev) (c status addr len : Nat) : Dev :=
  ctxError (noteTransfer d (src 6 c) status (src 6 c).toNat addr len 0) c status none

/-! ## Actions (R344) -/

/-- Chunk store in use. -/
def storeUsed (d : Dev) : Nat := (d.lov.map fun e => e.2.store).foldl (· + ·) 0

/-- RESULT of FAB_LOV_CMD. -/
def lovResult (d : Dev) (r : Nat) : Dev := regSet d aLovCmd 60 3 r

/-- OPEN: RESULT and the state after. -/
def ctxOpen (d : Dev) (c : Nat) : Nat × Dev :=
  let x := getCtx d c
  let store := lcWindow x * ((lcChildren x).length + 1) * 512
  if lcState x ≠ lcFree then (2, d)
  else if lcType x = 3 ∨ lcOp x = 3 ∨ lcWindow x = 0 ∨ 4096 < lcWindow x ∨ lcSrc x % 128 ≠ 0 ∨
      lcDst x % 128 ≠ 0 then (3, d)
  else if 2 ^ 24 < storeUsed d + store then (1, d)
  else
    let x := setImg (setImg (setImg x 509 3 lcOpen) 505 4 0) 432 64 0
    let x := { x with opened := false, store := store, chunks := [] }
    let d := putCtx d c x
    match edgeSend d (lcChildren x) fun p => { edgeMsg d x p 0 with opened := true } with
    | some d => (0, d)
    | none => (0, ctxError d c 12 none)

/-- CLOSE. -/
def ctxClose (d : Dev) (c : Nat) : Nat × Dev :=
  let x := getCtx d c
  if lcState x = lcOpen ∨ lcState x = lcDone ∨ lcState x = lcError then
    (0, putCtx d c { freeCtx with image := x.image &&& lcRwMask })
  else (2, d)

/-- ABORT. -/
def ctxAbort (d : Dev) (c : Nat) : Nat × Dev :=
  let x := getCtx d c
  if lcState x = lcOpen ∨ lcState x = lcRunning then (0, ctxError d c 8 none) else (2, d)

/-! ## Generations (R345, R348, 12 R391) -/

/-- A generation has ended: DONE, GEN rises, DONE_SIGNAL and the event of tree done. The record of the
event is the context's number (log 28). -/
def ctxDone (d : Dev) (c : Nat) : Dev :=
  let x := getCtx d c
  let x := setImg (setImg x 509 3 lcDone) 464 32 (lcGen x + 1)
  let d := putCtx d c { x with chunks := [] }
  let d := raiseSignal d x.doneSig
  match x.asked with
  | some s => sendEvent d s 3 (natBytes 4 c)
  | none => d

/-- Release a barrier downward (R348). -/
def releaseBarrier (d : Dev) (c : Nat) : Dev :=
  let x := getCtx d c
  match edgeSend d (lcChildren x) fun p => { edgeMsg d x p 0 with result := true } with
  | some d => ctxDone d c
  | none => ctxError d c 12 none

/-- A barrier member that has started and has a BARRIER from every child sends one up, once its parent's
OPENED has come; the root releases (R345 item 1, R348). -/
def tryBarrier (d : Dev) (c : Nat) : Dev :=
  let x := getCtx d c
  let k := mapGet emptyChunk x.chunks 0
  let here (p : Nat) : Bool := k.kids.any fun e => decide (e.1 = p)
  if lcState x = lcRunning ∧ isBarrier x ∧ !k.sent ∧ (lcChildren x).all here then
    if !lcHasParent x then releaseBarrier d c
    else if x.opened then
      match edgeSend d [lcParent x] fun p => edgeMsg d x p 0 with
      | some d => putCtx d c { x with chunks := mapPut emptyChunk x.chunks 0 { k with sent := true } }
      | none => ctxError d c 12 none
    else d
  else d

/-- START: RESULT and the state after. -/
def ctxStart (d : Dev) (c : Nat) : Nat × Dev :=
  let x := getCtx d c
  if lcState x = lcOpen ∨ lcState x = lcDone then
    (0, tryBarrier (putCtx d c (setImg (setImg x 509 3 lcRunning) 432 32 0)) c)
  else (2, d)

/-! ## Combining (R346) -/

/-- One operation on two elements. -/
def lovOp (x : LovCtx) (a b : Word) : Word :=
  if lcType x = 2 then
    (match lcOp x with
    | 0 => a + b
    | 1 => if a.toInt ≤ b.toInt then a else b
    | _ => if a.toInt ≤ b.toInt then b else a)
  else
    let f : FV → FV → FV := match lcOp x with
      | 0 => fvAdd
      | 1 => fvMin
      | _ => fvMax
    toF32 (f (ofF32 a) (ofF32 b))

/-- Combine contributions in order, element by element; `none` when there is no contribution. -/
def lovFold (x : LovCtx) : List (List Word) → Option (List Word)
  | [] => none
  | a :: l => some (l.foldl (fun s b => (s.zip b).map fun e => lovOp x e.1 e.2) a)

/-- The elements of bytes in memory: BF16 is widened exactly to FP32. -/
def lovWords (x : LovCtx) (bs : List Byte) : List Word :=
  let w := lcWidth x
  (List.range (bs.length / w)).map fun i =>
    let v := bytesNat ((bs.drop (w * i)).take w)
    if lcType x = 1 then BitVec.ofNat 32 (v * 2 ^ 16) else BitVec.ofNat 32 v

/-- The result as it travels and is written: BF16 is rounded once, to nearest even, at the root. -/
def lovBytes (x : LovCtx) (ws : List Word) : List Byte :=
  ws.flatMap fun w =>
    if lcType x = 1 then natBytes 2 (encodeF bf16 .rn false (ofF32 w)) else natBytes 4 w.toNat

/-- Words of a partial as it travels (R346), and back. -/
def wordBytes (ws : List Word) : List Byte := ws.flatMap fun w => natBytes 4 w.toNat
def bytesWords (bs : List Byte) : List Word :=
  (List.range (bs.length / 4)).map fun i => BitVec.ofNat 32 (bytesNat ((bs.drop (4 * i)).take 4))

/-- Elements that nothing contributes to: free values (log 3). -/
def freeWords : Nat → Dev → List Word × Dev
  | 0, d => ([], d)
  | n + 1, d =>
    let (v, d) := takeFree d
    let (l, d) := freeWords n d
    (BitVec.ofNat 32 v.toNat :: l, d)

/-- Deliver and forward the result of chunk `i` (R345 items 4 and 5). -/
def deliverResult (d : Dev) (c i : Nat) (bs : List Byte) : Dev :=
  let x := getCtx d c
  let addr := lcDst x + 128 * lcWidth x * i
  let bs := bs.take (lcWidth x * lcElems x i)
  if lcChunks x ≤ i ∨ (mapGet emptyChunk x.chunks i).done then d else
  let (s, d) := if lcDeliver x then
      (if inDevice addr bs.length then writeDev d 3 addr bs else (1, d)) else (0, d)
  if s ≠ 0 then ctxFail d c s addr bs.length
  else
    match edgeSend d (lcChildren x) fun p =>
        withData { edgeMsg d x p i with result := true } bs with
    | none => ctxError d c 12 none
    | some d =>
      let x := getCtx d c
      let x := setImg x 432 32 (lcProgress x + 1)
      let x := { x with chunks := mapPut emptyChunk x.chunks i { kids := [], sent := true, done := true } }
      let d := putCtx d c x
      if lcProgress x = lcChunks x then ctxDone d c else d

/-- The local contribution to chunk `i`: a status and its elements (R342, R345). -/
def ownPart (d : Dev) (x : LovCtx) (i : Nat) : (Nat × List Word) × Dev :=
  let n := lcWidth x * lcElems x i
  let a := lcSrc x + 128 * lcWidth x * i
  if !inDevice a n then ((1, []), d)
  else
    let (r, d) := readDev d 3 a n
    ((r.1, lovWords x r.2), d)

/-- Whether a member may complete chunk `i` (R345 items 1 to 3). -/
def chunkReady (x : LovCtx) (i : Nat) : Bool :=
  let k := mapGet emptyChunk x.chunks i
  decide (lcState x = lcRunning) && decide (i < lcChunks x) && !k.sent &&
  (lcChildren x).all (fun p => k.kids.any fun e => decide (e.1 = p)) &&
  (!lcHasParent x ||
    (x.opened && (decide (i < lcWindow x) || (mapGet emptyChunk x.chunks (i - lcWindow x)).done)))

/-- LOVAGE_CHUNK_COMPLETE: the combination of a chunk finishes; the partial goes up, or at the root the
result is delivered and forwarded (R345, R346). -/
def lovageChunkComplete (ctx : BitVec 10) (chunk : Word) (d : Dev) : Option Dev :=
  let c := ctx.toNat
  let i := chunk.toNat
  let x := getCtx d c
  if !chunkReady x i then none
  else
    let k := mapGet emptyChunk x.chunks i
    let (own, d) := if lcLocal x then
        let (r, d) := ownPart d x i
        ((r.1, [r.2]), d)
      else ((0, []), d)
    if own.1 ≠ 0 then some (ctxFail d c own.1 (lcSrc x + 128 * lcWidth x * i) (lcWidth x * lcElems x i))
    else
      let kids := (lcChildren x).map fun p => match k.kids.find? fun e => decide (e.1 = p) with
        | some e => e.2
        | none => []
      let (ws, d) := match lovFold x (own.2 ++ kids) with
        | some l => (l, d)
        | none => freeWords (lcElems x i) d
      if !lcHasParent x then some (deliverResult d c i (lovBytes x ws))
      else match edgeSend d [lcParent x] fun p => withData (edgeMsg d x p i) (wordBytes ws) with
        | some d => some (putCtx d c { x with
            chunks := mapPut emptyChunk x.chunks i { kids := [], sent := true, done := false } })
        | none => some (ctxError d c 12 none)

/-- LOVAGE_TIMEOUT: a RUNNING generation has made no progress for TIMEOUT_US (R347). -/
def lovageTimeout (ctx : BitVec 10) (d : Dev) : Option Dev :=
  let x := getCtx d ctx.toNat
  if lcState x = lcRunning ∧ lcTimeout x ≠ 0 then some (ctxError d ctx.toNat 8 none) else none

/-- TREE_GENERATION_START: an armed generation starts when its signal has reached its value; with AUTO
generation g waits for START_VALUE + g (12 R391). -/
def treeGenerationStart (ctx : BitVec 10) (d : Dev) : Option Dev :=
  let c := ctx.toNat
  let x := getCtx d c
  let v := x.startVal + BitVec.ofNat 64 (if x.auto then x.gen else 0)
  if x.armed ∧ (lcState x = lcOpen ∨ lcState x = lcDone) ∧ signalReached d x.startSig v then
    some (ctxStart (putCtx d c { x with armed := x.auto, gen := x.gen + 1 }) c).2
  else none

/-! ## Actions through FAB_LOV_CMD -/

def runAction (act : Dev → Nat → Nat × Dev) (ctx : BitVec 10) (d : Dev) : Dev :=
  let (r, d) := act d ctx.toNat
  lovResult d r

/-- LOVAGE_OPEN, LOVAGE_START, LOVAGE_CLOSE and LOVAGE_ABORT: writes of FAB_LOV_CMD (R344). -/
def lovageOpen (ctx : BitVec 10) (d : Dev) : Dev := runAction ctxOpen ctx d
def lovageStart (ctx : BitVec 10) (d : Dev) : Dev := runAction ctxStart ctx d
def lovageClose (ctx : BitVec 10) (d : Dev) : Dev := runAction ctxClose ctx d
def lovageAbort (ctx : BitVec 10) (d : Dev) : Dev := runAction ctxAbort ctx d

/-- LOVAGE_CONTEXT_WRITE: the RW fields of one 64-bit word while FREE; otherwise ignored and logged
(R343). -/
def lovageContextWrite (ctx : BitVec 10) (word : BitVec 3) (v : D64) (d : Dev) : Dev :=
  let c := ctx.toNat
  let x := getCtx d c
  if lcState x = lcFree then
    let img := setBits x.image (64 * word.toNat) 64 v.toNat
    putCtx d c { x with image := (x.image &&& ~~~lcRwMask) ||| (img &&& lcRwMask) }
  else ignored d (aLovCtx c + 8 * word.toNat) v

/-! ## Arriving messages (R345, R348) -/

/-- The context in use for a message's RTAG: of the message's kind, with the port among its edges. -/
def ctxFor (d : Dev) (p : Nat) (m : Msg) : Option Nat :=
  (d.lov.find? fun e => lcLive e.2 && decide (lcRtag e.2 = m.rtag.toNat) && (lcEdges e.2).contains p &&
    isBarrier e.2 == decide (m.typ = 5)).map (·.1)

/-- Keep a child's contribution. -/
def addKid (x : LovCtx) (i p : Nat) (ws : List Word) : LovCtx :=
  let k := mapGet emptyChunk x.chunks i
  { x with chunks := mapPut emptyChunk x.chunks i
             { k with kids := (k.kids.filter fun e => e.1 != p) ++ [(p, ws)] } }

/-- A REDUCE or BARRIER arrives on a port. One for an RTAG without a context in use is answered there
with ABORT, unless it is an ABORT itself (R345; log 29). -/
def lovArrive (d : Dev) (p : Nat) (m : Msg) : Dev :=
  match ctxFor d p m with
  | none =>
    if m.abort || !edgeUp d p then d
    else linkSend d p false { blankMsg with
      typ := m.typ, dst := m.src, src := BitVec.ofNat 17 (devId d), ttl := 1, rtag := m.rtag, abort := true }
  | some c =>
    let x := getCtx d c
    let up := lcHasParent x && decide (lcParent x = p)
    if m.abort then ctxError d c 8 (some p)
    else if m.opened then (if up then tryBarrier (putCtx d c { x with opened := true }) c else d)
    else if m.result then
      if up && decide (lcState x = lcRunning) then
        if isBarrier x then releaseBarrier d c else deliverResult d c m.chunk.toNat m.data
      else d
    else if (lcChildren x).contains p then
      tryBarrier (putCtx d c (addKid x m.chunk.toNat p (bytesWords m.data))) c
    else d

/-! ## The commands of this family -/

/-- LOVAGE_CONTEXT_WRITE (11 R343). -/
def execLovageContextWrite (ctx : BitVec 10) (word : BitVec 3) (v : BitVec 64) (s : State) : Host.Outcome State Fault Refusal :=
  ok s (lovageContextWrite ctx word v s.dev)
/-- LOVAGE_OPEN (11 R344). -/
def execLovageOpen (ctx : BitVec 10) (s : State) : Host.Outcome State Fault Refusal := ok s (lovageOpen ctx s.dev)
/-- LOVAGE_START (11 R344). -/
def execLovageStart (ctx : BitVec 10) (s : State) : Host.Outcome State Fault Refusal := ok s (lovageStart ctx s.dev)
/-- LOVAGE_CLOSE (11 R344). -/
def execLovageClose (ctx : BitVec 10) (s : State) : Host.Outcome State Fault Refusal := ok s (lovageClose ctx s.dev)
/-- LOVAGE_ABORT (11 R347). -/
def execLovageAbort (ctx : BitVec 10) (s : State) : Host.Outcome State Fault Refusal := ok s (lovageAbort ctx s.dev)
/-- LOVAGE_CHUNK_COMPLETE (11 R346). -/
def execLovageChunkComplete (ctx : BitVec 10) (chunk : BitVec 32) (s : State) : Host.Outcome State Fault Refusal :=
  gated s "LOVAGE_CHUNK_COMPLETE" (lovageChunkComplete ctx chunk s.dev)
/-- LOVAGE_TIMEOUT (11 R347). -/
def execLovageTimeout (ctx : BitVec 10) (s : State) : Host.Outcome State Fault Refusal :=
  gated s "LOVAGE_TIMEOUT" (lovageTimeout ctx s.dev)
/-- TREE_GENERATION_START (12 R391). -/
def execTreeGenerationStart (ctx : BitVec 10) (s : State) : Host.Outcome State Fault Refusal :=
  gated s "TREE_GENERATION_START" (treeGenerationStart ctx s.dev)

end Sys2Proof.Machine
end

