-- ==== Sys2Proof/Machine/Manager.lean ====
section
/-! DEFINITION. The manager role: error records as bytes, telemetry, heartbeats, members and fan-out (11
R349 to R353; 12 R372, R384; 15 R454). -/

namespace Sys2Proof.Machine

/-! ## Error records as bytes (15 Table 15.1) -/

def recordBytes (r : ErrRec) : List Byte :=
  natBytes 8 r.seq.toNat ++ natBytes 8 r.usec.toNat ++ natBytes 2 r.code.toNat ++ natBytes 1 r.cls.toNat ++
    natBytes 1 r.flags.toNat ++ natBytes 4 r.source.toNat ++ natBytes 4 r.count.toNat ++ natBytes 4 0 ++
    natBytes 8 r.loc0.toNat ++ natBytes 8 r.loc1.toNat ++ natBytes 8 r.loc2.toNat ++ natBytes 8 r.detail.toNat

def bytesRecord (l : List Byte) : ErrRec :=
  let f (w off n : Nat) : BitVec w := BitVec.ofNat w (fieldAt l off n)
  { seq := f 64 0 8, usec := f 64 8 8, code := f 16 0x10 2, cls := f 8 0x12 1, flags := f 8 0x13 1,
    source := f 32 0x14 4, count := f 32 0x18 4, loc0 := f 64 0x20 8, loc1 := f 64 0x28 8,
    loc2 := f 64 0x30 8, detail := f 64 0x38 8 }

/-- Severity of a record (15 Table 15.1). -/
def recSeverity (r : ErrRec) : Nat := bits r.flags 0 2

/-- The records in `n` 64-byte places from `off`. -/
def recordsAt (l : List Byte) (off n : Nat) : List ErrRec :=
  (List.range n).map fun i => bytesRecord ((l.drop (off + 64 * i)).take 64)

/-! ## Enabled cores (00 R8, 15 Table 15.21) -/

/-- The enabled cores, ascending. -/
def enabledCores (d : Dev) : List Nat := (List.range 2048).filter fun n => !coreFenced d n
def enabledCount (d : Dev) : Nat := (enabledCores d).length

/-! ## Telemetry (12 R384, Table 12.14) -/

/-- The latest value of a source (14 R426, R450). -/
def srcVal (d : Dev) (v : Nat) : Int := signed 20 (regField d (aSrc v) 0 20)

/-- A temperature in 1/16 °C as 0.01 °C in 16 bits, rounded down (log 30). -/
def centi (t : Int) : Nat := wrap 16 (t * 100 / 16)

/-- The device's own record. -/
def ownTelemetry (d : Dev) : List Byte :=
  natBytes 8 (regGet d aUsec).toNat ++ natBytes 4 (regField d aPwrInput 32 32) ++ natBytes 1 (envNow d) ++
    natBytes 1 ((List.range 64).foldl (fun m c => max m (levelOf d c)) 0) ++ natBytes 2 (enabledCount d) ++
    natBytes 2 (centi (srcVal d 232)) ++
    [252, 253, 254, 249, 250, 251].flatMap (fun v => natBytes 2 (centi (srcVal d v))) ++ natBytes 2 0 ++
    d.funnel.sevs.flatMap (natBytes 4) ++
    (List.range 72).flatMap (fun r => natBytes 2 (regField d (aRail r) 0 16)) ++
    natBytes 2 (regField d aWearUp 48 10) ++ natBytes 2 (regField d aWearLo 48 10) ++ natBytes 60 0

/-- Combine a member's summary into a record (11 R352): power, enabled cores and error counts are summed,
temperatures are maxima; every other field is the first record's. -/
def addSummary (a b : List Byte) : List Byte :=
  if b = [] then a
  else
    let sum (off n : Nat) : List Byte := natBytes n (fieldAt a off n + fieldAt b off n)
    let top (off : Nat) : List Byte :=
      natBytes 2 (wrap 16 (max (signed 16 (fieldAt a off 2)) (signed 16 (fieldAt b off 2))))
    a.take 8 ++ sum 8 4 ++ (a.drop 0xC).take 2 ++ sum 0xE 2 ++
      [0x10, 0x12, 0x14, 0x16, 0x18, 0x1A, 0x1C].flatMap top ++ (a.drop 0x1E).take 2 ++
      [0x20, 0x24, 0x28, 0x2C].flatMap (fun o => sum o 4) ++ a.drop 0x30

/-- The record the device answers with: a manager's takes in the summaries of its members. -/
def telemetryRecord (d : Dev) : List Byte :=
  if isManager d then d.fab.members.foldl (fun a m => addSummary a m.summary) (ownTelemetry d)
  else ownTelemetry d

/-! ## Members -/

def isMember (d : Dev) (id : Nat) : Bool := d.fab.members.any fun m => decide (m.id = id)

/-- Lowest severity escalated (15 Table 15.18). -/
def escMin (d : Dev) : Nat := regField d aErrCfg 54 2

/-- Queue records for the device's own manager (15 R453 item 3). -/
def escalate (d : Dev) (rs : List ErrRec) : Dev :=
  if mgrValid d then { d with funnel := { d.funnel with escq := d.funnel.escq ++ rs } } else d

/-- A heartbeat arrives in FMB1 (R352): its member is heard, the latest summary kept, and its records that
meet the escalation severity go on to the device's own manager. -/
def takeHeartbeat (d : Dev) (id : Nat) (l : List Byte) : Dev :=
  let v : Member := { id := id, lost := false, summary := (l.drop 8).take 256 }
  let ms := if isMember d id then d.fab.members.map fun m => if m.id = id then v else m
    else if d.fab.members.length < 4096 then d.fab.members ++ [v] else d.fab.members
  let rs := (recordsAt l 264 ((l.length - 264) / 64)).filter fun r => decide (escMin d ≤ recSeverity r)
  escalate (setFab d { d.fab with members := ms }) rs

/-- A MSG of the device itself. -/
def sendMsg (d : Dev) (dst box : Nat) (l : List Byte) (use : OutUse) : Option Nat × Dev :=
  sendRequest d (withData { blankMsg with typ := 3, dst := BitVec.ofNat 17 dst, addr := BitVec.ofNat 47 box } l) use

/-- HEARTBEAT_SEND (R352): a MSG to the manager's FMB1 with the heartbeat count, the telemetry summary
and the records raised since, three to a message (log 31); EV_MANAGER_LOST when the three before it were
not acknowledged. -/
def heartbeatSend (d : Dev) : Option Dev :=
  if !(mgrValid d && (isWorker d || isManager d)) then none
  else
    let f := d.fab
    let d := if f.unacked = 3 then event d (src 8 2) 0x0508 0 0 0 0 else d
    let head := natBytes 8 f.beats ++ telemetryRecord d
    let rs := d.funnel.escq
    let d := { d with funnel := { d.funnel with escq := [] } }
    let d := setFab d { d.fab with beats := f.beats + 1, unacked := f.unacked + 1 }
    let body (i : Nat) : List Byte := head ++ ((rs.drop (3 * i)).take 3).flatMap recordBytes
    let d := (sendMsg d (managerId d) 1 (body 0) .heartbeat).2
    some ((List.range (ceilDiv rs.length 3 - 1)).foldl
      (fun d i => (sendMsg d (managerId d) 1 (body (i + 1)) .notice).2) d)

/-! ## Fan-out (R351, R376) -/

/-- The devices a TARGET names (12 Table 12.9). -/
def inTarget (q : SciReq) (id : Nat) : Bool :=
  match q.target.toNat with
  | 1 => decide (id = q.targetId.toNat)
  | 2 => true
  | _ => decide (q.targetId.toNat ≤ id) && decide (id < q.targetId.toNat + q.count.toNat)

/-- The messages of a fan-out: each direct member of the set gets the command itself (`self`), and each
member whose subtree holds members of the set gets it to fan out again, for as many devices. -/
def fanList (d : Dev) (q : SciReq) : List Awaited :=
  d.fab.members.flatMap fun m =>
    let l := (Config.subtree m.id).filter (inTarget q)
    (if inTarget q m.id then [{ member := m.id, self := true, devices := 1 }] else []) ++
      (if l = [] then [] else [{ member := m.id, self := false, devices := l.length }])

/-- The number under which a member knows a message of a fan-out: the two messages to one member differ, so that
their answers do (log 26). -/
def fanTag (id : Nat) (self : Bool) : Nat := 2 * id + b2n !self

/-- The 16-byte SCI header as sent (12 Table 12.9), for SELF when the member runs the command itself. -/
def sciHeader (q : SciReq) (self : Bool) : List Byte :=
  let t := if self then 0 else q.target.toNat
  natBytes 1 t ++ natBytes 1 (b2n q.fence) ++ natBytes 2 (if self then 0 else q.count.toNat) ++
    natBytes 4 (if self then 0 else q.targetId.toNat) ++ natBytes 8 0

/-- The data of a fan-out MSG: a 32-byte Spaolo header with the opcode and, as TAG, the message's number,
then the payload (log 26). -/
def fanData (q : SciReq) (opcode id : Nat) (self : Bool) : List Byte :=
  natBytes 7 1 ++ natBytes 1 opcode ++ natBytes 4 0 ++ natBytes 4 (16 + q.body.length) ++ natBytes 8 0 ++
    natBytes 8 (fanTag id self) ++ sciHeader q self ++ q.body

/-- The status a fan-out ends with: OK when every device answered OK, else the first failing status, else
UNREACHABLE. -/
def fanStatus (f : Fan) : Nat :=
  match f.fail with
  | some x => x.2
  | none => if f.noAnswer = 0 then 0 else 0x1B

def getFan (d : Dev) (id : Nat) : Option Fan := d.fab.fans.find? fun f => decide (f.id = id)
def dropFan (d : Dev) (id : Nat) : Dev := setFab d { d.fab with fans := d.fab.fans.filter fun f => f.id != id }
def putFan (d : Dev) (f : Fan) : Dev :=
  setFab d { d.fab with fans := d.fab.fans.map fun x => if x.id = f.id then f else x }

/-- Answer a fan-out that no member is waited for in (R351 item 4). -/
def settleFan (d : Dev) (id : Nat) : Dev :=
  match getFan d id with
  | some f =>
    if f.waiting = [] then
      respondWith (dropFan d id) f.resp (fanStatus f) (resultHeader f.okCount f.fail f.noAnswer) []
    else d
  | none => d

/-- The answer of a member, itself or for its subtree, that a fan-out waits for. -/
def awaited (f : Fan) (member : Nat) (self : Bool) : Option Awaited :=
  f.waiting.find? fun w => decide (w.member = member) && w.self == self

/-- An answer that will not come: its devices count in NO_ANSWER (R351 items 4 and 5). -/
def fanNoAnswer (d : Dev) (id member : Nat) (self : Bool) : Dev :=
  match getFan d id with
  | some f =>
    (match awaited f member self with
    | some w => settleFan (putFan d { f with waiting := f.waiting.erase w, noAnswer := f.noAnswer + w.devices }) id
    | none => d)
  | none => d

/-- A member's result: counts and the first failing device (R351 item 4). -/
def fanResult (d : Dev) (id member : Nat) (self : Bool) (okCount : Nat) (fail : Option (Nat × Nat))
    (noAnswer : Nat) : Dev :=
  match getFan d id with
  | some f =>
    (match awaited f member self with
    | some w =>
      settleFan (putFan d { f with waiting := f.waiting.erase w, okCount := f.okCount + okCount,
                                   fail := f.fail <|> fail, noAnswer := f.noAnswer + noAnswer }) id
    | none => d)
  | none => d

/-- Send a command to a member set and wait for the answers (R351 items 1 to 3). A member that is lost or
cannot be reached counts as one without answer. -/
def startFan (d : Dev) (q : SciReq) (opcode : Nat) (r : Resp) : Dev :=
  let id := d.fab.nextFan
  let l := fanList d q
  let lost (m : Nat) : Bool := d.fab.members.any fun x => decide (x.id = m) && x.lost
  let f : Fan := { id := id, resp := r, waiting := l, okCount := 0, fail := none, noAnswer := 0 }
  let d := setFab d { d.fab with nextFan := (id + 1) % 2 ^ 31, fans := d.fab.fans ++ [f] }
  let d := l.foldl (fun d e =>
    if lost e.member then fanNoAnswer d id e.member e.self
    else match sendMsg d e.member 0 (fanData q opcode id e.self) (.fan id e.member e.self) with
      | (some _, d) => d
      | (none, d) => fanNoAnswer d id e.member e.self) d
  settleFan d id

/-- A result arrives in FMB2: message number, status, result header (12 R372; log 26). -/
def takeResult (d : Dev) (member : Nat) (l : List Byte) : Dev :=
  let fail := if (fieldAt l 14 1) % 2 = 1 then some (fieldAt l 9 4, fieldAt l 13 1) else none
  let n := fieldAt l 0 4
  fanResult d (n / 2) member (decide (n % 2 = 0)) (fieldAt l 5 4) fail (fieldAt l 17 4)

/-- FANOUT_TIMEOUT: FANOUT_MS ends (R351 items 4 and 5). -/
def fanoutTimeout (id : Nat) (d : Dev) : Option Dev :=
  (getFan d id).map fun f =>
    settleFan (putFan d { f with waiting := [], noAnswer := f.noAnswer + (f.waiting.map (·.devices)).foldl (· + ·) 0 }) id

/-- MEMBER_HEARTBEAT_TIMEOUT: no heartbeat during 3 intervals of HB_MS (R352, R353): the member is lost,
EV_WORKER_LOST names it, the device's own manager gets a notice in FMB3, and commands that wait for the
member complete as UNREACHABLE. -/
def memberHeartbeatTimeout (member : BitVec 17) (d : Dev) : Option Dev :=
  let id := member.toNat
  if !isManager d || !d.fab.members.any (fun m => decide (m.id = id) && !m.lost) then none
  else
    let d := setFab d { d.fab with members := d.fab.members.map fun m =>
      if m.id = id then { m with lost := true } else m }
    let d := event d (src 8 2) 0x0507 id 0 0 0
    let d := if mgrValid d then (sendMsg d (managerId d) 3 (natBytes 4 id) .notice).2 else d
    some ((d.fab.fans.map (·.id)).foldl (fun d f => fanNoAnswer (fanNoAnswer d f id true) f id false) d)

/-! ## The commands of this family -/

/-- HEARTBEAT_SEND (11 R352). -/
def execHeartbeatSend (s : State) : Host.Outcome State Fault Refusal := gated s "HEARTBEAT_SEND" (heartbeatSend s.dev)
/-- MEMBER_HEARTBEAT_TIMEOUT (11 R352). -/
def execMemberHeartbeatTimeout (member : BitVec 17) (s : State) : Host.Outcome State Fault Refusal :=
  gated s "MEMBER_HEARTBEAT_TIMEOUT" (memberHeartbeatTimeout member s.dev)
/-- FANOUT_TIMEOUT (11 R351). -/
def execFanoutTimeout (id : Nat) (s : State) : Host.Outcome State Fault Refusal :=
  gated s "FANOUT_TIMEOUT" (fanoutTimeout id s.dev)

end Sys2Proof.Machine
end

