-- ==== Sys2Proof/Machine/Messages.lean ====
section
/-! DEFINITION. Inbound fabric messages, responses, forwarding, and the events of a fabric port (11 R319
to R341). -/

namespace Sys2Proof.Machine

/-! ## Completing requests (R336, R340) -/

/-- Send a request again with the SEQ it had; one that no route takes is dropped. -/
def sendAgain (d : Dev) (o : Out) : Bool × Dev := resendRequest d o

/-- A request of this device completes with a status and the bytes of its response. A MSG answered BUSY is sent
again with the same SEQ, and so is a heartbeat or a notice that was refused; a refused command of a fan-out is its
member's answer (R336, R353; log 33). -/
def completeOut (d : Dev) (o : Out) (status : Nat) (bs : List Byte) : Dev :=
  let d := dropOut d o.tag
  match o.use with
  | .copy e => copyAnswer d e o.msg status bs
  | .heartbeat =>
    if status = 0 then setFab d { d.fab with unacked := 0 }
    else if status = 11 ∨ status = 14 then (sendAgain d o).2 else d
  | .notice => if status = 11 ∨ status = 14 then (sendAgain d o).2 else d
  | .fan id m self =>
    if status = 0 then d
    else if status = 11 then
      match sendAgain d o with
      | (true, d) => d
      | (false, d) => fanNoAnswer d id m self
    else if status = 12 then fanNoAnswer d id m self
    else fanResult d id m self 0 (some (m, sciOf status)) 0

/-- Whether a message is for this device. -/
def forMe (d : Dev) (m : Msg) : Bool := hasId d && decide (m.dst.toNat = devId d)

/-- A response arrives: it completes the request with its TAG, or is discarded, counted and logged
(R340). -/
def takeResponse (typ : Nat) (port : BitVec 3) (m : Msg) (d : Dev) : Option Dev :=
  if !(forMe d m && decide (m.typ.toNat = typ) && inTurn d port.toNat m) then none
  else
    let d := takeRx d port.toNat m
    match findOut d m.tag.toNat with
    | some o => some (completeOut d o m.status.toNat m.data)
    | none => some (discardMsg d m)

/-- COMPLETION, GET_DATA and ATOMIC_DATA (R340). -/
def completion (port : BitVec 3) (m : Msg) : Dev → Option Dev := takeResponse 8 port m
def getData (port : BitVec 3) (m : Msg) : Dev → Option Dev := takeResponse 9 port m
def atomicData (port : BitVec 3) (m : Msg) : Dev → Option Dev := takeResponse 10 port m

/-- FAB_REQUEST_TIMEOUT: no response within TIMEOUT_US (R340). -/
def fabRequestTimeout (tag : BitVec 16) (d : Dev) : Option Dev :=
  (findOut d tag.toNat).map fun o => completeOut (event d (src 4 o.port) 0x0505 0 0 0 0) o 12 []

/-! ## Undeliverable messages (R338) -/

/-- What follows when a message cannot be sent on. -/
def undeliverable (d : Dev) (m : Msg) (status : Nat) : Dev :=
  let d := unreachableEvent d m
  if isRequest m then
    if m.src.toNat = devId d then
      match findOut d m.tag.toNat with
      | some o => completeOut d o status []
      | none => d
    else sendResponse d (respTo m status [])
  else if isResponse m then discardMsg d m
  else match d.lov.find? fun e => lcLive e.2 && decide (lcRtag e.2 = m.rtag.toNat) with
    | some e => ctxError d e.1 status none
    | none => d

/-- MESSAGE_FORWARD: a message for another device is looked up and sent on with TTL lowered, on L1 from a
DATELINE entry onward (R328, R331). -/
def messageForward (port : BitVec 3) (m : Msg) (d : Dev) : Option Dev :=
  if !hasId d || decide (m.dst.toNat = devId d) || !inTurn d port.toNat m then none
  else
    let d := takeRx d port.toNat m
    if m.ttl.toNat ≤ 1 then some (undeliverable d m 13)
    else match routePort d m.dst.toNat with
      | none => some (undeliverable d m 12)
      | some p =>
        some (linkSend d p true { m with
          ttl := m.ttl - 1, lane := m.lane || rtDateline (routeEntry d m.dst.toNat) })

/-! ## Requests from other devices (R335 to R341) -/

/-- A request may be performed now: it is of its type and for this device, its port's budget lets it
(10 R314), and no REQ request of its source for this device waits that arrived before it and touches a line of
its own, or with FENCE any line (R341 items 2 and 3). -/
def mayPerform (typ : Nat) (d : Dev) (p : Nat) (m : Msg) : Bool :=
  forMe d m && decide (m.typ.toNat = typ) && budgetOk d (2112 + p) &&
    !((ahead d p m).any fun e => decide (e.2.src = m.src) && decide (e.2.dst = m.dst) &&
      decide (e.2.typ.toNat ≤ 2) && (m.fence || sharesLine e.2 m))

/-- Answer a request with a status: OK is recorded in the duplicate filter (R339), and the statuses of 15
Table 15.2 write a TRANSFER record. -/
def answerReq (d : Dev) (p : Nat) (m : Msg) (status : Nat) (bs : List Byte) : Dev :=
  let d := if status = 0 then recordSeq d m.src.toNat (chanIx m) m.seq else d
  let d := noteTransfer d (src 4 p) status (2112 + p) m.addr.toNat m.len.toNat m.tag.toNat
  sendResponse d (respTo m status bs)

/-- The filter's answer to a request's SEQ. -/
def dupOf (d : Dev) (m : Msg) : DupState := dupState (getFilter d m.src.toNat (chanIx m)) m.seq

/-- PUT_MESSAGE (R335, R339): LEN bytes are written at ADDR for master 2,112 + p in TC3. -/
def putMessage (port : BitVec 3) (m : Msg) (d : Dev) : Option Dev :=
  let p := port.toNat
  if !mayPerform 0 d p m then none
  else
    let d := takeRx d p m
    some (match dupOf d m with
      | .old => sendResponse d (respTo m 15 [])
      | .duplicate => sendResponse d (respTo m 0 [])
      | .fresh =>
        if m.data = [] ∨ 512 < m.data.length ∨ !oneRegion m.addr.toNat m.data.length then answerReq d p m 1 []
        else
          let (s, d) := localWrite d (2112 + p) 3 m.addr.toNat m.data
          answerReq d p m s [])

/-- GET_MESSAGE (R335, R339): LEN bytes are read at ADDR; a duplicate is read again. -/
def getMessage (port : BitVec 3) (m : Msg) (d : Dev) : Option Dev :=
  let p := port.toNat
  if !mayPerform 1 d p m then none
  else
    let d := takeRx d p m
    some (match dupOf d m with
      | .old => sendResponse d (respTo m 15 [])
      | _ =>
        let n := m.len.toNat
        if n = 0 ∨ 512 < n ∨ !oneRegion m.addr.toNat n then answerReq d p m 1 []
        else
          let (r, d) := localRead d (2112 + p) 3 m.addr.toNat n
          answerReq d p m r.1 (if r.1 = 0 then r.2 else []))

/-- The atomic that OP names: the low 4 bits of the opcodes of 03 Table 3.16. -/
def atomOpOf (op : Nat) : Option AtomOp :=
  [AtomOp.add, .min, .max, .and, .or, .xor, .exch, .cas][op]?

/-- One atomic at a local address (R335): a status and the old value. In a scratchpad window it is a
window read and a window write (log 32). -/
def localAtomic (d : Dev) (m a : Nat) (op : AtomOp) (ty b c : Nat) : (Nat × Nat) × Dev :=
  let n := atomBytes ty
  if inDevice a n then
    let d := spendRange d m a n
    match baseTx d (a / 2 ^ 20) with
    | (.invalid, d) => ((2, 0), d)
    | (.retired, d) => ((3, 0), d)
    | (.entry e, d) =>
      let act : ReqOp := .atomic { op := op, ty := ty, off := a % 128, lanes := [(0, b, c)] }
      let st := serveStop d none e (a / 128) act
      if pteRo e then ((4, 0), d)
      else if st ≠ 0 then ((st, 0), noteStop d none e (a / 128) st)
      else
        let (r, d) := accessHome d 3 e (a / 128) act
        if r.status ≠ .ok then ((5, 0), d)
        else ((0, ((r.olds.head?.map (·.2)).getD 0)), d)
  else match localRead d m 3 a n with
    | ((0, bs), d) =>
      let v := bytesNat bs
      let (s, d) := localWrite d m 3 a (natBytes n (atomVal op ty v b c))
      ((s, v), d)
    | ((s, _), d) => ((s, 0), d)

/-- ATOMIC_MESSAGE (R335, R339): performed once; a duplicate is answered DUPLICATE without a value. An OP,
TYPE or alignment that 03 R87 and Table 3.16 do not allow is answered ADDR (log 32). -/
def atomicMessage (port : BitVec 3) (m : Msg) (d : Dev) : Option Dev :=
  let p := port.toNat
  if !mayPerform 2 d p m then none
  else
    let d := takeRx d p m
    let ty := fieldAt m.data 0 1
    some (match dupOf d m, atomOpOf m.op.toNat with
      | .old, _ => sendResponse d (respTo m 15 [])
      | .duplicate, _ => sendResponse d (respTo m 15 [])
      | .fresh, none => answerReq d p m 1 []
      | .fresh, some op =>
        let a := m.addr.toNat
        if !(atomTypes op).contains ty || m.data.length ≠ 32 || a % atomBytes ty ≠ 0 ||
            !oneRegion a (atomBytes ty) then answerReq d p m 1 []
        else
          let (r, d) := localAtomic d (2112 + p) a op ty (fieldAt m.data 8 8) (fieldAt m.data 16 8)
          answerReq d p m r.1 (if r.1 = 0 then natBytes 8 r.2 else []))

/-! ## MSG and the fabric mailboxes (R329, R336, R349, 12 R372) -/

def getBox (d : Dev) (f : Nat) : List Msg := mapGet [] d.fab.boxes f
def putBox (d : Dev) (f : Nat) (l : List Msg) : Dev := setFab d { d.fab with boxes := mapPut [] d.fab.boxes f l }

/-- Store a message in a mailbox of 16 places: its status. -/
def boxMsg (d : Dev) (f : Nat) (m : Msg) : Nat × Dev :=
  if 16 ≤ (getBox d f).length then (11, d) else (0, putBox d f (getBox d f ++ [m]))

/-- Give a MSG to its mailbox: the status of its COMPLETION. FMB0 to FMB3 take the MSGs of the device's manager:
commands in FMB0, and nothing that acts in the others. A manager's FMB1 to FMB3 take besides what its members send
it, which firmware reads at once; a heartbeat tells whose members they are (log 33). FMB4 to FMB63 take any
MSG, passed on as an EVENT to the session of MSG_SINK when there is one. -/
def storeMsg (d : Dev) (m : Msg) : Nat × Dev :=
  let f := m.addr.toNat % 64
  let from_ := m.src.toNat
  if f < 4 ∧ mgrValid d ∧ managerId d = from_ then (if f = 0 then boxMsg d 0 m else (0, d))
  else if f = 0 then (14, d)
  else if f = 1 then (if isManager d then (0, takeHeartbeat d from_ m.data) else (14, d))
  else if f = 2 then (if isManager d && isMember d from_ then (0, takeResult d from_ m.data) else (14, d))
  else if f = 3 then (if isManager d && isMember d from_ then (0, d) else (14, d))
  else match d.fab.sink with
    | some s => (0, sendEvent d s 4 m.data)
    | none => boxMsg d f m

/-- MSG (R329, R336, R339). A device without an ID takes one of TTL 1 to FMB0, whatever its DST_ID, and
answers on the port it came in on with NO_ID; it takes nothing else. MSGs of one source are taken in the order they
arrived over a port (R341 item 1, R351 item 3). -/
def msg (port : BitVec 3) (m : Msg) (d : Dev) : Option Dev :=
  let p := port.toNat
  if m.typ ≠ 3 then none
  else if !hasId d then
    let d := takeRx d p m
    if m.ttl = 1 ∧ m.addr.toNat % 64 = 0 then
      let (s, d) : Nat × Dev := match dupOf d m with
        | .old => (15, d)
        | .duplicate => (0, d)
        | .fresh =>
          let (s, d) := if m.data = [] ∨ 512 < m.data.length then (1, d) else boxMsg d 0 m
          (s, if s = 0 then recordSeq d m.src.toNat (chanIx m) m.seq else d)
      some (linkSend d p false { respTo m s [] with src := 0, ttl := 1, noId := true })
    else some (discardMsg d m)
  else if !forMe d m || !inTurn d p m then none
  else
    let d := takeRx d p m
    some (match dupOf d m with
      | .old => sendResponse d (respTo m 15 [])
      | .duplicate => sendResponse d (respTo m 0 [])
      | .fresh =>
        if m.data = [] ∨ 512 < m.data.length then answerReq d p m 1 []
        else
          let (s, d) := storeMsg d m
          answerReq d p m s [])

/-- REDUCE and BARRIER for a context of this device (R345, R348). -/
def reduceIn (typ : Nat) (port : BitVec 3) (m : Msg) (d : Dev) : Option Dev :=
  if forMe d m && decide (m.typ.toNat = typ) && inTurn d port.toNat m then some (lovArrive (takeRx d port.toNat m) port.toNat m) else none
def reduce (port : BitVec 3) (m : Msg) : Dev → Option Dev := reduceIn 4 port m
def barrier (port : BitVec 3) (m : Msg) : Dev → Option Dev := reduceIn 5 port m

/-! ## The route table (R330, R332) -/

/-- Write a route entry: all 32 bits at once, and the entry uses PRIMARY again. -/
def writeRoute (d : Dev) (i : Nat) (e : Word) : Dev :=
  let f : Fab := { d.fab with
    routes := mapPut 0 d.fab.routes i (e &&& 0xFF81FFFF), sticky := mapPut false d.fab.sticky i false }
  setFab d f

/-- ROUTE_ENTRY_WRITE: a write of FAB_RT_DATA (R330). -/
def routeEntryWrite (v : D64) (d : Dev) : Dev :=
  writeRoute d (regField d aRtIndex 0 17) (BitVec.ofNat 32 (bits v 0 32))

/-! ## Ports (R320, R321, R324, R332) -/

/-- Debug mode holds the identity key locked (16 R498). -/
def debugOn (d : Dev) : Bool := bit (regGet d aSecBoot) 62

/-- The step of bring-up in progress (16 Table 16.11). -/
def bootStep (d : Dev) : Nat := regField d aSecBoot 48 4

/-- The messages of a port that have a flit in the replay buffer, in order, once each. -/
def replayMsgs : List (Nat × Msg) → List Msg
  | [] => []
  | [e] => [e.2]
  | e :: f :: l => if e.2 = f.2 then replayMsgs (f :: l) else e.2 :: replayMsgs (f :: l)

/-- Send a message of a port that went DOWN on its alternate (R332). -/
def failOver (d : Dev) (e : Bool × Msg) : Dev :=
  if (e.2.typ = 4 ∨ e.2.typ = 5) then d
  else match routePort d e.2.dst.toNat with
    | some p => linkSend d p e.1 e.2
    | none => undeliverable d e.2 12

/-- The entries whose PRIMARY is a port and that have an alternate now use it (R332). -/
def failEntries (d : Dev) (p : Nat) : Dev :=
  let over_ (e : Nat × Word) : Bool := rtValid e.2 && decide (rtPrimary e.2 = p) && rtAltValid e.2
  let s := (d.fab.routes.filter over_).foldl (fun s e => mapPut false s e.1 true) d.fab.sticky
  setFab d { d.fab with sticky := s }

/-- A port goes DOWN (R321, R332, R347): its events and count, its messages sent again on their
alternates, and every context with an edge on it in ERROR. -/
def portDown (d : Dev) (p : Nat) : Dev :=
  let v := getLink d p
  let d := putLink d p { downPort with rxq := v.rxq }
  let d := event (regSat d (aFabPort p) 0 8 1) (src 4 p) 0x0503 0 0 0 0
  let d := failEntries d p
  let waiting := ((replayMsgs v.replay).map fun m => (false, m)) ++ v.txq
  let d := waiting.foldl failOver d
  (d.lov.map (·.1)).foldl (fun d c =>
    let x := getCtx d c
    if lcLive x && (lcEdges x).contains p then ctxError d c 12 none else d) d

/-- LINK_TRAINED: lane and codeword lock (R320). -/
def linkTrained (port : BitVec 3) (d : Dev) : Option Dev :=
  let v := getLink d port.toNat
  if v.st = lsTraining then some (putLink d port.toNat { v with st := lsKeying }) else none

/-- A new 256-bit link key: what the key exchange of R324 agrees is a digest of free values (log 9). -/
def newKey (d : Dev) : BitVec 256 × Dev :=
  let (a, d) := takeFree d
  (BitVec.ofNat 256 (Config.digest 2 (natBytes 8 a.toNat)).toNat, d)

/-- LINK_KEYED: KEYING ends with the peer authenticated and the port UP, or with the port DOWN and
EV_LINK_AUTH_FAIL (R320, R324; 16 R498). -/
def linkKeyed (port : BitVec 3) (peer : BitVec 17) (authOk : Bool) (d : Dev) : Option Dev :=
  let p := port.toNat
  let v := getLink d p
  if v.st ≠ lsKeying then none
  else if authOk && !debugOn d then
    let (tk, d) := newKey d
    let (rk, d) := newKey d
    let v := { downPort with st := lsUp, peer := peer.toNat, txKey := tk, rxKey := rk,
                             credits := lanes8 4096, txq := v.txq, rxq := v.rxq }
    some (putLink d p (pump d v))
  else some (portDown (event d (src 4 p) 0x0501 0 0 0 0) p)

/-- LINK_RETRY_TIMER: a DOWN port repeats bring-up, from bring-up step 4 on (R320). -/
def linkRetryTimer (port : BitVec 3) (d : Dev) : Option Dev :=
  let v := getLink d port.toNat
  if v.st = lsDown ∧ (4 ≤ bootStep d ∨ d.boot.base) then some (putLink d port.toNat { v with st := lsTraining }) else none

/-- The four-lane group a degraded port runs on: 0 for lanes 0 to 3, 1 for lanes 4 to 7. -/
def laneGroup (failed : Byte) : Option Nat :=
  if bits failed 0 4 = 0 then some 0 else if bits failed 4 4 = 0 then some 1 else none

/-- LANE_FAIL: a lane of an UP port fails (R321). -/
def laneFail (port : BitVec 3) (lane : BitVec 3) (d : Dev) : Option Dev :=
  let p := port.toNat
  let v := getLink d p
  if v.st ≠ lsUp ∨ bit v.failed lane.toNat then none
  else
    let f := setBits v.failed lane.toNat 1 1
    match laneGroup f with
    | none => some (portDown d p)
    | some g =>
      let d' := putLink d p { v with failed := f, degraded := true }
      if v.degraded ∧ laneGroup v.failed = some g then some d'
      else some (event d' (src 4 p) 0x0502 0 0 0 0)

/-- LINK_DOWN: a port that is not DOWN goes DOWN (R321, R332). -/
def linkDown (port : BitVec 3) (d : Dev) : Option Dev :=
  if (getLink d port.toNat).st = lsDown then none else some (portDown d port.toNat)

/-- The key of the next epoch (R324): the first 256 bits of SHA3-512 of the old key, "epoch" and the new
number. -/
def epochKey (k : BitVec 256) (n : Nat) : BitVec 256 :=
  BitVec.ofNat 256 (Config.digest 1 (natBytes 32 k.toNat ++ natBytes 5 0x68636F7065 ++ natBytes 4 n)).toNat

/-- The sender moves to the next epoch, and NONCE_CTR restarts at 0 (R324). -/
def nextEpoch (v : FabPort) : FabPort :=
  { v with txEpoch := v.txEpoch + 1, nonce := 0, txKey := epochKey v.txKey (v.txEpoch + 1) }

/-- `n` flits are sent again or besides the data: NONCE_CTR rises by one for each, in the next epoch where it would
reach 2^40 (R324). -/
def useNonces (v : FabPort) (n : Nat) : FabPort :=
  let v := if v.nonce + n < 2 ^ 40 then v else nextEpoch v
  { v with nonce := v.nonce + n }

/-- LINK_KEY_EPOCH: the sender moves to the next epoch (R324). -/
def linkKeyEpoch (port : BitVec 3) (d : Dev) : Option Dev :=
  let p := port.toNat
  let v := getLink d p
  if v.st ≠ lsUp then none else some (putLink d p (pump d (nextEpoch v)))

/-! ## Flits (R322 to R326) -/

/-- Acknowledge the flits up to and including SEQ. The requests of an acknowledged flit are no longer counted. -/
def ackUpTo (v : FabPort) (seq : Nat) : FabPort :=
  match v.replay.findIdx? fun e => decide (e.1 = seq) with
  | some i =>
    let l := v.replay.take (i + 1)
    { v with replay := v.replay.drop (i + 1),
             reqRun := if l.any (fun e => decide (e.1 = v.reqSeq)) then 0 else v.reqRun }
  | none => v

/-- Credits come back to a lane. -/
def addCredit (v : FabPort) (lane n : Nat) : FabPort :=
  { v with credits := setAt v.credits lane (min 4096 (v.credits.getD lane 0 + n)) }

/-- The peer requests a SEQ again: retransmission from it under new nonces; the eighth request of one
flit in a row takes the port DOWN and restarts TRAINING (R325). -/
def retryFrom (d : Dev) (p seq : Nat) : Dev :=
  let d := regSat d (aFabPort p) 16 16 1
  let v := ackUpTo (getLink d p) ((seq + 2 ^ 16 - 1) % 2 ^ 16)
  let run := if v.reqRun ≠ 0 ∧ v.reqSeq = seq then v.reqRun + 1 else 1
  if 8 ≤ run then
    let d := portDown d p
    putLink d p { getLink d p with st := lsTraining }
  else
    let n := match v.replay.findIdx? fun e => decide (e.1 = seq) with
      | some i => v.replay.length - i
      | none => 0
    putLink d p (pump d { useNonces v n with reqSeq := seq, reqRun := run })

/-- RETRY_REQ: a sender receives a RETRY_REQ (R325). -/
def retryReq (port : BitVec 3) (seq : BitVec 16) (d : Dev) : Option Dev :=
  if (getLink d port.toNat).st = lsUp then some (retryFrom d port.toNat seq.toNat) else none

/-- Whether a flit's epoch is the current or the next one, whose first verified flit moves the receiver
on (R324). -/
def epochOk (v : FabPort) (f : Flit) : Bool :=
  decide (f.epoch.toNat = v.rxEpoch % 4) || decide (f.epoch.toNat = (v.rxEpoch + 1) % 4)

/-- The receiver under the epoch of a verified flit. -/
def moveEpoch (v : FabPort) (f : Flit) : FabPort :=
  if f.epoch.toNat = v.rxEpoch % 4 then v
  else { v with rxEpoch := v.rxEpoch + 1, rxNonce := none, rxKey := epochKey v.rxKey (v.rxEpoch + 1) }

/-- A flit that is discarded (R323 to R325): damaged, of a reserved FTYPE, not verified, or with a nonce not
above the last one accepted. -/
def badFlit (v : FabPort) (f : Flit) : Bool :=
  f.fecUe || !f.tagOk || decide (3 ≤ f.ftype.toNat) || !epochOk v f ||
    (decide (f.epoch.toNat = v.rxEpoch % 4) &&
      (match v.rxNonce with
        | some n => decide (f.nonce.toNat ≤ n)
        | none => false))

/-- Discard a flit: the receiver sends RETRY_REQ, a flit of its own nonce. -/
def requestRetry (v : FabPort) : FabPort := { useNonces v 1 with gap := true }

/-- FLIT_RECEIVE (R323 to R326): a flit is verified; it acknowledges, returns credits, and a DATA flit in
order brings its messages, up to a header of TYPE 15; otherwise it is discarded and the expected SEQ requested. FEC_UE
counts uncorrectable codewords. -/
def flitReceive (port : BitVec 3) (flit : Flit) (d : Dev) : Option Dev :=
  let p := port.toNat
  let v := getLink d p
  if v.st ≠ lsUp ∨ d.boot.quiesce then none
  else if badFlit v flit then
    let d := if flit.fecUe then regSat d (aFabPort p) 8 8 flit.ues.toNat else d
    some (putLink d p (requestRetry v))
  else
    let v := { moveEpoch v flit with rxNonce := some flit.nonce.toNat }
    let v := addCredit v flit.credLane.toNat flit.cred.toNat
    if flit.ftype = 2 then some (retryFrom (putLink d p v) p flit.ack.toNat)
    else
      let v := if flit.ackValid then ackUpTo v flit.ack.toNat else v
      let v : FabPort := pump d v
      if flit.ftype ≠ 0 then some (putLink d p v)
      else if flit.seq.toNat = v.rxSeq then
        let known (m : Msg) : Bool := (vcOf m.typ.toNat).isSome
        let ms := flit.msgs.takeWhile fun m => m.typ != 15
        let v : FabPort := { v with
          rxSeq := (v.rxSeq + 1) % 2 ^ 16, gap := false, rxq := v.rxq ++ ms.filter known }
        let d := setFab d { d.fab with arrived := d.fab.arrived ++ (ms.filter known).map fun m => (p, m) }
        some ((ms.filter fun m => !known m).foldl discardMsg (putLink d p v))
      else if v.gap || decide (32768 ≤ (flit.seq.toNat + 65536 - v.rxSeq) % 65536) then some (putLink d p v)
      else some (putLink d p (requestRetry v))

/-! ## The commands of this family -/

/-- LINK_TRAINED (11 R320). -/
def execLinkTrained (port : BitVec 3) (s : State) : Host.Outcome State Fault Refusal :=
  gated s "LINK_TRAINED" (linkTrained port s.dev)
/-- LINK_KEYED (11 R324). -/
def execLinkKeyed (port : BitVec 3) (peer : BitVec 17) (authOk : Bool) (s : State) : Host.Outcome State Fault Refusal :=
  gated s "LINK_KEYED" (linkKeyed port peer authOk s.dev)
/-- LINK_RETRY_TIMER (11 R320). -/
def execLinkRetryTimer (port : BitVec 3) (s : State) : Host.Outcome State Fault Refusal :=
  gated s "LINK_RETRY_TIMER" (linkRetryTimer port s.dev)
/-- LANE_FAIL (11 R321). -/
def execLaneFail (port : BitVec 3) (lane : BitVec 3) (s : State) : Host.Outcome State Fault Refusal :=
  gated s "LANE_FAIL" (laneFail port lane s.dev)
/-- LINK_DOWN (11 R332). -/
def execLinkDown (port : BitVec 3) (s : State) : Host.Outcome State Fault Refusal :=
  gated s "LINK_DOWN" (linkDown port s.dev)
/-- FLIT_RECEIVE (11 R325). -/
def execFlitReceive (port : BitVec 3) (flit : Flit) (s : State) : Host.Outcome State Fault Refusal :=
  gated s "FLIT_RECEIVE" (flitReceive port flit s.dev)
/-- RETRY_REQ (11 R325). -/
def execRetryReq (port : BitVec 3) (seq : BitVec 16) (s : State) : Host.Outcome State Fault Refusal :=
  gated s "RETRY_REQ" (retryReq port seq s.dev)
/-- MESSAGE_FORWARD (11 R331). -/
def execMessageForward (port : BitVec 3) (m : Msg) (s : State) : Host.Outcome State Fault Refusal :=
  gated s "MESSAGE_FORWARD" (messageForward port m s.dev)
/-- PUT_MESSAGE (11 R335). -/
def execPutMessage (port : BitVec 3) (m : Msg) (s : State) : Host.Outcome State Fault Refusal :=
  gated s "PUT_MESSAGE" (putMessage port m s.dev)
/-- GET_MESSAGE (11 R335). -/
def execGetMessage (port : BitVec 3) (m : Msg) (s : State) : Host.Outcome State Fault Refusal :=
  gated s "GET_MESSAGE" (getMessage port m s.dev)
/-- ATOMIC_MESSAGE (11 R335). -/
def execAtomicMessage (port : BitVec 3) (m : Msg) (s : State) : Host.Outcome State Fault Refusal :=
  gated s "ATOMIC_MESSAGE" (atomicMessage port m s.dev)
/-- MSG (11 R336). -/
def execMsg (port : BitVec 3) (m : Msg) (s : State) : Host.Outcome State Fault Refusal :=
  gated s "MSG" (msg port m s.dev)
/-- REDUCE (11 R345). -/
def execReduce (port : BitVec 3) (m : Msg) (s : State) : Host.Outcome State Fault Refusal :=
  gated s "REDUCE" (reduce port m s.dev)
/-- BARRIER (11 R348). -/
def execBarrier (port : BitVec 3) (m : Msg) (s : State) : Host.Outcome State Fault Refusal :=
  gated s "BARRIER" (barrier port m s.dev)
/-- COMPLETION (11 R340). -/
def execCompletion (port : BitVec 3) (m : Msg) (s : State) : Host.Outcome State Fault Refusal :=
  gated s "COMPLETION" (completion port m s.dev)
/-- GET_DATA (11 R340). -/
def execGetData (port : BitVec 3) (m : Msg) (s : State) : Host.Outcome State Fault Refusal :=
  gated s "GET_DATA" (getData port m s.dev)
/-- ATOMIC_DATA (11 R340). -/
def execAtomicData (port : BitVec 3) (m : Msg) (s : State) : Host.Outcome State Fault Refusal :=
  gated s "ATOMIC_DATA" (atomicData port m s.dev)
/-- FAB_REQUEST_TIMEOUT (11 R340). -/
def execFabRequestTimeout (tag : BitVec 16) (s : State) : Host.Outcome State Fault Refusal :=
  gated s "FAB_REQUEST_TIMEOUT" (fabRequestTimeout tag s.dev)
/-- ROUTE_ENTRY_WRITE (11 R330). -/
def execRouteEntryWrite (v : BitVec 64) (s : State) : Host.Outcome State Fault Refusal :=
  ok s (routeEntryWrite v s.dev)
/-- LINK_KEY_EPOCH (11 R324). -/
def execLinkKeyEpoch (port : BitVec 3) (s : State) : Host.Outcome State Fault Refusal :=
  gated s "LINK_KEY_EPOCH" (linkKeyEpoch port s.dev)

end Sys2Proof.Machine
end

