-- ==== Sys2Proof/Machine/Session.lean ====
section
/-! DEFINITION. Frames at a host port, sessions and handshakes, and what every SCI command has in common
(12 R358 to R381). -/

namespace Sys2Proof.Machine

/-! ## Bytes of standard cryptography (log 9) -/

/-- `n` bytes that a standard outside the spec computes of its input. -/
def stdBytes (kind : Nat) (input : List Byte) (n : Nat) : List Byte :=
  ((List.range (n / 64 + 1)).flatMap fun i => natBytes 64 (Config.digest kind (input ++ natBytes 4 i)).toNat).take n

/-- The same, of one free value. -/
def opaqueBytes (kind : Nat) (seed : D64) (n : Nat) : List Byte := stdBytes kind (natBytes 8 seed.toNat) n

/-- SHA3-512 (log 9). -/
def sha3 (l : List Byte) : BitVec 512 := Config.digest 1 l

/-- `n` bytes from the next free value. -/
def freshBytes (d : Dev) (kind n : Nat) : List Byte × Dev :=
  let (v, d) := takeFree d
  (opaqueBytes kind v n, d)

/-! ## The handshake (R366 to R368) -/

/-- Send a handshake payload in the clear, in fragments. -/
def sendClear (d : Dev) (p source status : Nat) (payload : List Byte) : Dev :=
  let ps := pieces (maxPay d p) payload.length payload
  (ps.zip (List.range ps.length)).foldl (fun d e =>
    pushFrame d p none (clearFrame source e.2 (decide (e.2 + 1 < ps.length)) status e.1)) d

/-- Whether a port takes frames: enabled, powered and with link. -/
def portOpen (d : Dev) (p : Nat) : Bool := !listening d p && (getHost d p).link

/-- The identity public key (16 R494; log 9). -/
def publicKey (d : Dev) : List Byte := opaqueBytes 11 d.fuses.fusedId 2592

/-- The payload of HELLO (Table 12.8). -/
def helloBytes (h : Hello) : List Byte :=
  natBytes 1 1 ++ natBytes 32 h.nonce.toNat ++ natBytes 1568 h.encaps.toNat ++ natBytes 64 h.keyId.toNat ++
    natBytes 2 h.idleS.toNat

/-- The payload of HELLO_R up to the signature: device nonce, ciphertext, public key. -/
def helloResponse (d : Dev) (nonce cipher : List Byte) : List Byte :=
  natBytes 1 2 ++ nonce ++ cipher ++ publicKey d

/-- The device's signature over T1 with its identity key. -/
def signT1 (d : Dev) (t1 : BitVec 512) : List Byte :=
  stdBytes 6 (natBytes 8 d.fuses.fusedId.toNat ++ natBytes 64 t1.toNat) 4627

/-- T2: the digest of T1, the device's signature and the host's public key (R367). -/
def handT2 (h : Handshake) (pubKey : BitVec 20736) : BitVec 512 :=
  sha3 (natBytes 64 h.t1.toNat ++ h.sign ++ natBytes 2592 pubKey.toNat)

/-- K: the digest of the shared secret and T2 (R367). -/
def handK (h : Handshake) (pubKey : BitVec 20736) : BitVec 512 :=
  sha3 (natBytes 32 h.secret.toNat ++ natBytes 64 (handT2 h pubKey).toNat)

/-- SESSION_HELLO: HELLO is answered by a signed HELLO_R, or in the clear by ERR_VERSION, ERR_AUTH while
debug holds the identity, ERR_FIELD or ERR_BUSY (R366, R367; 16 R498). -/
def sessionHello (port : BitVec 1) (h : Hello) (d : Dev) : Option Dev :=
  let p := port.toNat
  if !portOpen d p then none
  else if h.version ≠ 1 then some (sendClear d p h.source 0x01 [])
  else if debugOn d then some (sendClear d p h.source 0x04 [])
  else if h.idleS = 0 ∨ 3600 < h.idleS.toNat then some (sendClear d p h.source 0x03 [])
  else if 4 ≤ d.hpt.shakes.length then some (sendClear d p h.source 0x08 [])
  else
    let (nonce, d) := freshBytes d 3 32
    let (seed, d) := takeFree d
    let kem := natBytes 8 seed.toNat ++ natBytes 1568 h.encaps.toNat
    let first := helloResponse d nonce (stdBytes 7 kem 1568)
    let t1 := sha3 (helloBytes h ++ first)
    let s : Handshake := { id := d.hpt.nextShake, port := p, source := h.source, keyId := h.keyId,
                           idleS := h.idleS.toNat, t1 := t1, sign := signT1 d t1,
                           secret := BitVec.ofNat 256 (Config.digest 8 kem).toNat }
    let d := setHpt d { d.hpt with shakes := d.hpt.shakes ++ [s], nextShake := d.hpt.nextShake + 1 }
    some (sendClear d p h.source 0 (first ++ s.sign))

/-- The first number from `n` that no session uses; 0 names clear frames. -/
def unusedSession (d : Dev) : Nat → Nat → Nat
  | 0, n => n
  | k + 1, n =>
    if n % 2 ^ 16 = 0 ∨ (getSession d (n % 2 ^ 16)).isSome then unusedSession d k (n + 1) else n % 2 ^ 16

/-- MAC addresses of the two ports, held in fuses the spec does not give (R358; log 9). -/
def portMacs : List Byte := opaqueBytes 4 0 12

/-- Open a session for a handshake (R367 to R369): its number, which the spec leaves to the device, and the
state. Bytes 0 to 31 of K are the host-to-device key, bytes 32 to 63 the device-to-host key. -/
def newSession (d : Dev) (h : Handshake) (pubKey : BitVec 20736) : Nat × Dev :=
  let (v, d) := takeFree d
  let sn := unusedSession d 32 (v.toNat % 2 ^ 16)
  let k := natBytes 64 (handK h pubKey).toNat
  let s : Session := { h2d := BitVec.ofNat 256 (bytesNat (k.take 32)), d2h := BitVec.ofNat 256 (bytesNat (k.drop 32)),
                       idleS := h.idleS, high := none, seen := 0, txCnt := 0, evSeq := 0, port := h.port,
                       source := h.source, subs := [], streams := [] }
  (sn, putSession d sn (some s))

/-- FINISH_R (Table 12.8): SESSION, port MAC addresses, device ID, READY. -/
def finishFrame (d : Dev) (sn source : Nat) : TxFrame :=
  { session := sn, source := source, clear := false, event := false, more := false, opcode := 1, status := 0,
    mailbox := 0, seq := 0, tag := 0, alive := 0,
    payload := resultHeader 1 none 0 ++ natBytes 1 4 ++ natBytes 2 sn ++ portMacs ++ natBytes 4 (devId d) ++
      natBytes 1 (b2n (isReady d)) }

/-- SESSION_FINISH: a handshake completes only when the digest is KEY_ID, the owner list holds it and the
signature verifies; otherwise ERR_AUTH, and ERR_SESSION when 16 sessions are in use. The answer goes where FINISH came
from (R366, R368). -/
def sessionFinish (port : BitVec 1) (h : Finish) (d : Dev) : Option Dev :=
  let p := port.toNat
  if !portOpen d p then none
  else match d.hpt.shakes.find? fun s => decide (s.id = h.handshake) with
    | none => none
    | some s =>
      let d := setHpt d { d.hpt with shakes := d.hpt.shakes.filter fun x => x.id != s.id }
      let owned := match d.flash.owners with
        | some l => l.contains h.digest
        | none => false
      if !(h.sigOk && owned && decide (h.digest = s.keyId) && !debugOn d) then
        some (sendClear d p h.source 0x04 [])
      else if 16 ≤ d.hpt.sessions.length then some (sendClear d p h.source 0x05 [])
      else
        let (sn, d) := newSession d { s with port := p, source := h.source } h.pubKey
        some (sendFrame d sn p (finishFrame d sn h.source))

/-- HANDSHAKE_TIMEOUT: a handshake is not finished within 1 s of its HELLO (R368). -/
def handshakeTimeout (id : Nat) (d : Dev) : Option Dev :=
  if d.hpt.shakes.any fun s => decide (s.id = id) then
    some (setHpt d { d.hpt with shakes := d.hpt.shakes.filter fun s => s.id != id })
  else none

/-! ## Received frames (R360, R365, R369, R371, R374) -/

/-- A frame is dropped and counted. -/
def dropFrame (d : Dev) (p : Nat) : Dev := regSat d (aHptStatus p) 0 16 1

/-- The opcodes of Table 12.12 that a host may send. -/
def opcodes : List Nat :=
  [0x01, 0x02, 0x03, 0x04, 0x08, 0x09, 0x0A, 0x0B, 0x0C, 0x10, 0x11, 0x12, 0x18, 0x19, 0x1A, 0x20, 0x21, 0x22,
   0x28, 0x30, 0x31, 0x32, 0x33]

/-- PUT and GET go to the port's transfer engine (R382). -/
def isTransfer (f : Frame) : Bool := decide (f.opcode = 0x10) || decide (f.opcode = 0x11)

/-- FCNT rebuilt from ALIVE: the value in H − 32,767 to H + 32,768 (R369); H is −1 before the first frame
(log 5). -/
def rebuild (high : Option Nat) (alive : Nat) : Int :=
  let h : Int := match high with
    | some n => n
    | none => -1
  let lo := h - 32767
  lo + ((alive : Int) - lo) % 65536

/-- Whether a counter repeats one accepted or is too old (R369). -/
def repeated (s : Session) (c : Nat) : Bool :=
  match s.high with
  | none => false
  | some h => decide (c + 64 ≤ h) || (decide (c ≤ h) && bit s.seen (h - c))

/-- Record an accepted counter. -/
def recordCounter (s : Session) (c : Nat) : Session :=
  match s.high with
  | none => { s with high := some c, seen := 1 }
  | some h =>
    if h < c then { s with high := some c, seen := (s.seen <<< (c - h)) ||| 1 }
    else { s with seen := setBits s.seen (h - c) 1 1 }

def getHmb (d : Dev) (m : Nat) : List (Nat × Frame) := mapGet [] d.hpt.boxes m
def putHmb (d : Dev) (m : Nat) (l : List (Nat × Frame)) : Dev :=
  setHpt d { d.hpt with boxes := mapPut [] d.hpt.boxes m l }

/-- Whether a stream has a command in its mailbox. -/
def hasHead (d : Dev) (k : Nat × Nat) : Bool := (getHmb d k.2).any fun e => decide (e.2.session.toNat = k.1)

/-- A stream's next command has reached its head, unless one stands there or none waits (R379). -/
def noteHead (d : Dev) (k : Nat × Nat) : Dev :=
  if hasHead d k && !d.hpt.heads.contains k then setHpt d { d.hpt with heads := d.hpt.heads ++ [k] } else d

/-- The command at the head of a stream has begun: the next one, if any, takes its place behind the heads of the other
streams (R379). -/
def leaveHead (d : Dev) (k : Nat × Nat) : Dev :=
  noteHead (setHpt d { d.hpt with heads := d.hpt.heads.filter fun x => x != k }) k

/-- The response header for a frame. -/
def frameResp (p : Nat) (f : Frame) (seq : D64) : Resp :=
  { origin := .host f.session f.mailbox, port := p, source := f.source, opcode := f.opcode.toNat, seq := seq,
    tag := f.tag, order := false }

/-- Answer a frame at once, outside the stored responses. -/
def answerFrame (d : Dev) (p : Nat) (f : Frame) (status : Nat) (seq : D64) : Dev :=
  (responseFrames d (frameResp p f seq) f.mailbox.toNat status (selfHeader d status)).foldl
    (fun d t => sendFrame d f.session.toNat p t) d

/-- The stream of a frame, and the state with another NEXT. -/
def hostStream (s : Session) (m : Nat) : Stream := mapGet newStream s.streams m
def setNext (d : Dev) (sn m n : Nat) : Dev :=
  match getSession d sn with
  | some s => putSession d sn (some { s with
      streams := mapPut newStream s.streams m { hostStream s m with next := n } })
  | none => d

/-- Steps 6 and 7 of R365 on an authenticated frame: the stream's sequence and space in the mailbox. -/
def acceptFrame (d : Dev) (p : Nat) (f : Frame) : Dev :=
  match getSession d f.session.toNat with
  | none => d
  | some s =>
    let m := f.mailbox.toNat
    let st := hostStream s m
    let seq := f.seq.toNat
    if st.next < seq then answerFrame d p f 0x06 (BitVec.ofNat 64 st.next)
    else if seq < st.next then
      match st.resps.find? fun r => decide (r.1 = seq) with
      | some r => r.2.foldl (fun d t => sendFrame d f.session.toNat p { t with source := f.source }) d
      | none => answerFrame d p f 0x07 f.seq
    else
      let d := setNext d f.session.toNat m (seq + 1)
      if isTransfer f then
        let v := getHost d p
        putHost d p { v with xfers := v.xfers ++ [f] }
      else if !opcodes.contains f.opcode.toNat then
        respond d (frameResp p f f.seq) 0x02 []
      else if 16 ≤ (getHmb d m).length then
        answerFrame (setNext d f.session.toNat m seq) p f 0x08 f.seq
      else noteHead (putHmb d m (getHmb d m ++ [(p, f)])) (f.session.toNat, m)

/-- The VLAN tags of a received frame pass: one tag of VLAN_ID, or none with VLAN_EN 0 (R359, Table 12.2;
log 68). -/
def vlanOk (d : Dev) (p : Nat) (f : Frame) : Bool :=
  match f.vlans with
  | [] => !hpVlanEn d p
  | [v] => decide (v = hpVlan d p)
  | _ => false

/-- The encapsulation that ENCAP selects, to the port's own address (R363): no IP options or extension headers,
UDP_PORT, and a right checksum, for which IPv4 takes 0. -/
def carriedOk (d : Dev) (p : Nat) (f : Frame) : Bool :=
  match f.carried, hpEncap d p with
  | .raw e, 0 => f.mac && decide (e = hpEthertype d p)
  | .udp4 a u plain c, 1 =>
    f.mac && plain && decide (a = hpIpv4 d p) && decide (u = hpUdpPort d p) && decide (c ≠ .wrong)
  | .udp6 a u plain c, 2 =>
    f.mac && plain && decide (a = hpIpv6 d p) && decide (u = hpUdpPort d p) && decide (c = .right)
  | _, _ => false

/-- Step 1 of R365, with the largest frame of R359: FCS, encapsulation, destination address and VLAN. -/
def wireOk (d : Dev) (p : Nat) (f : Frame) : Bool :=
  f.fcs && decide (f.bytes ≤ 9216) && vlanOk d p f && carriedOk d p f

/-- The port's own address that an ARP request or a neighbour solicitation asks for, with ENCAP 1 or 2 (R359). -/
def askedAddr (d : Dev) (p : Nat) (f : Frame) : Option (Word ⊕ BitVec 128) :=
  if !(f.fcs && vlanOk d p f) || hpEncap d p = 0 then none
  else match f.carried with
    | .arp a => if a = hpIpv4 d p then some (.inl a) else none
    | .solicit a => if a = hpIpv6 d p then some (.inr a) else none
    | _ => none

/-- The examination of one frame (R365); a request for the port's own address is answered (R359). -/
def examineFrame (d : Dev) (p : Nat) (f : Frame) : Dev :=
  match askedAddr d p f with
  | some a =>
    let v := getHost d p
    putHost d p { v with nbrs := v.nbrs ++ [{ tag := txTag d p, addr := a, source := f.source }] }
  | none =>
  if !wireOk d p f then dropFrame d p
  else if f.version ≠ 1 ∨ !f.reserved then
    if f.clear && decide (f.opcode = 1) && decide (f.session = 0) && f.reserved then
      sendClear d p f.source 0x01 []
    else dropFrame d p
  else if f.clear then
    if f.session = 0 ∧ (f.opcode = 0x01 ∨ f.opcode = 0xF0) ∧ f.length.toNat = f.payload then d
    else dropFrame d p
  else match getSession d f.session.toNat with
    | none => dropFrame d p
    | some s =>
      if f.length.toNat ≠ f.payload ∨ 8192 < f.payload then dropFrame d p
      else
        let c := rebuild s.high f.alive.toNat
        if !f.tagOk ∨ c < 0 ∨ lastCount < c.toNat then regSat d (aHptStatus p) 16 16 1
        else if repeated s c.toNat then dropFrame d p
        else
          let s := { recordCounter s c.toNat with port := p, source := f.source }
          acceptFrame (putSession d f.session.toNat (some s)) p f

/-- Bytes in a receive buffer, and its size (R360). -/
def rxBytes (v : HostPort) : Nat := (v.rxbuf.map (·.bytes)).foldl (· + ·) 0
def rxSize : Nat := 2 * 2 ^ 20

/-- Send or release the pause of priority flow control (R360). -/
def pfcUpdate (d : Dev) (p : Nat) : Dev :=
  let v := getHost d p
  if !hpPfcEn d p then d
  else if 3 * rxSize / 4 ≤ rxBytes v then putHost d p { v with pausing := true }
  else if rxBytes v ≤ rxSize / 2 then putHost d p { v with pausing := false } else d

/-- Whether the port stops at a frame: a PUT or GET beyond 64 transfers in flight (R382). -/
def stopsAt (v : HostPort) (f : Frame) : Bool := isTransfer f && decide (64 ≤ v.xfers.length)

/-- Take frames from the receive buffer while the port may. -/
def drainRx (p : Nat) : Nat → Dev → Dev
  | 0, d => d
  | n + 1, d =>
    let v := getHost d p
    match v.rxbuf with
    | f :: fs => if stopsAt v f then d else drainRx p n (examineFrame (putHost d p { v with rxbuf := fs }) p f)
    | [] => d

/-- Take what the port may from its buffer, then update flow control. -/
def pumpRx (d : Dev) (p : Nat) : Dev := pfcUpdate (drainRx p (getHost d p).rxbuf.length d) p

/-- End a session; the ports go on with what waits behind its transfers (R370, R382). -/
def closeSession (d : Dev) (sn : Nat) : Dev := pumpRx (pumpRx (endSession d sn) 0) 1

/-- SESSION_IDLE_TIMEOUT: IDLE_S seconds without an authenticated frame from the host (R370). -/
def sessionIdleTimeout (session : BitVec 16) (d : Dev) : Option Dev :=
  (getSession d session.toNat).map fun _ => closeSession d session.toNat

/-- FRAME_COUNTER_LIMIT: a session ends before FCNT of either direction would reach 2^48 (R369). -/
def frameCounterLimit (session : BitVec 16) (d : Dev) : Option Dev :=
  match getSession d session.toNat with
  | some s =>
    if s.txCnt = lastCount ∨ s.high = some lastCount then some (closeSession d session.toNat) else none
  | none => none

/-- FRAME_RECEIVE: a frame reaches the receive buffer, or is dropped when it is full; the port examines
frames in order (R360, R365). A port in LISTEN discards it (R361), and no port takes one while a base reset's quiesce runs
(16 R484). -/
def frameReceive (port : BitVec 1) (f : Frame) (d : Dev) : Option Dev :=
  let p := port.toNat
  let v := getHost d p
  if d.boot.quiesce then none
  else if listening d p then some d
  else if !v.link then none
  else if rxSize < rxBytes v + f.bytes then some (dropFrame d p)
  else some (pumpRx (putHost d p { v with rxbuf := v.rxbuf ++ [f] }) p)

/-- WAKE_FRAME: a port in LISTEN with WAKE_EN reports the frame to Sorrel; in any other state it has no
effect (R361). -/
def wakeFrame (port : BitVec 1) (d : Dev) : Dev :=
  let p := port.toNat
  let v := getHost d p
  if listening d p && hpWakeEn d p then putHost d p { v with wakes := v.wakes + 1 } else d

/-- PFC_PAUSE: a received pause on PFC_PRIO stops or releases transmission; others are ignored (R360). -/
def pfcPause (port : BitVec 1) (prio : BitVec 3) (xoff : Bool) (d : Dev) : Dev :=
  let p := port.toNat
  if hpPfcEn d p && decide (prio.toNat = hpPrio d p) then putHost d p { getHost d p with paused := xoff } else d

/-- HOST_PORT_LINK_DOWN and HOST_PORT_LINK_UP: an enabled, powered port loses or gains PCS and FEC lock
(R358, Table 12.3). -/
def hostPortLinkDown (port : BitVec 1) (d : Dev) : Option Dev :=
  let v := getHost d port.toNat
  if v.link then some (putHost d port.toNat { v with link := false }) else none
def hostPortLinkUp (port : BitVec 1) (d : Dev) : Option Dev :=
  let v := getHost d port.toNat
  if !v.link && !listening d port.toNat then some (putHost d port.toNat { v with link := true }) else none

/-! ## What every SCI command has in common (R362, R373 to R380) -/

/-- The frame of a command in its mailbox or among its port's transfers, with the port. -/
def findFrame (d : Dev) (sn m : Nat) (q : SciReq) (opcode : Nat) : Option (Nat × Frame) :=
  let hit (f : Frame) : Bool := decide (f.session.toNat = sn) && decide (f.mailbox.toNat = m) &&
    decide (f.seq = q.seq) && decide (f.opcode.toNat = opcode)
  ((getHmb d m).find? fun e => hit e.2) <|>
    ([0, 1].findSome? fun p => ((getHost d p).xfers.find? hit).map fun f => (p, f))

/-- Take a command's frame out of its mailbox or its port's transfers. -/
def takeFrame (d : Dev) (m : Nat) (e : Nat × Frame) : Dev :=
  let d := if (getHmb d m).contains e then leaveHead (putHmb d m ((getHmb d m).erase e)) (e.2.session.toNat, m) else d
  let v := getHost d e.1
  if v.xfers.contains e.2 then pumpRx (putHost d e.1 { v with xfers := v.xfers.erase e.2 }) e.1 else d

/-- The MSG of a fanned-out command in FMB0. -/
def findCommand (d : Dev) (manager fan opcode : Nat) : Option Msg :=
  (getBox d 0).find? fun m => decide (m.src.toNat = manager) && decide (fieldAt m.data 24 8 = fan) &&
    decide (fieldAt m.data 7 1 = opcode)

/-- The response header of a command with the port and source its request came from; `none` when no
session or manager of the device can have sent it (R353, R365). -/
def admitReq (d : Dev) (q : SciReq) (opcode : Nat) (s : Bool) : Option (Resp × Dev) :=
  let r : Resp := { origin := q.origin, port := 0, source := 0, opcode := opcode, seq := q.seq, tag := q.tag, order := s }
  match q.origin with
  | .host sn m =>
    (match getSession d sn.toNat with
    | none => none
    | some v =>
      match findFrame d sn.toNat m.toNat q opcode with
      | some e => some ({ r with port := e.1, source := e.2.source }, takeFrame d m.toNat e)
      | none => some ({ r with port := v.port, source := v.source }, d))
  | .fabric mgr fan =>
    (match findCommand d mgr.toNat fan.toNat opcode with
    | some x => some (r, putBox d 0 ((getBox d 0).erase x))
    | none => if mgrValid d && decide (mgr.toNat = managerId d) then some (r, d) else none)

/-- The commands that have begun and not completed. -/
def outstanding (d : Dev) : List Resp :=
  d.disp.waits.map (·.resp) ++ (d.disp.engines.flatMap fun e => e.2.descs.map (·.resp)) ++
    d.disp.fencing.map (·.2) ++ d.fab.fans.map (·.resp)

/-- Two commands of one stream (R371). -/
def sameStream (a b : Origin) : Bool :=
  match a, b with
  | .host s m, .host t n => decide (s = t) && decide (m = n)
  | .fabric m _, .fabric n _ => decide (m = n)
  | _, _ => false

/-- An earlier command of the stream still waits in its mailbox or among the transfers; a manager's commands are
executed in the order they arrived in FMB0 (11 R351 item 3). -/
def behind (d : Dev) (q : SciReq) (opcode : Nat) : Bool :=
  match q.origin with
  | .host sn m =>
    let hit (f : Frame) : Bool := decide (f.session = sn) && decide (f.mailbox = m) && decide (f.seq.toNat < q.seq.toNat)
    (getHmb d m.toNat).any (fun e => hit e.2) || [0, 1].any fun p => (getHost d p).xfers.any hit
  | .fabric mgr fan =>
    let first := (getBox d 0).find? fun m => decide (m.src = mgr)
    first.isSome && first != findCommand d mgr.toNat fan.toNat opcode

/-- The opcodes of order S (Table 12.12). -/
def serialOps : List Nat := [0x01, 0x04, 0x08, 0x09, 0x0C, 0x18, 0x19, 0x1A, 0x30, 0x31, 0x32, 0x33]

/-- A stream with an S command at its head behind which every earlier command of the stream has completed (R379). -/
def serialHead (d : Dev) (k : Nat × Nat) : Bool :=
  let o := Origin.host (BitVec.ofNat 16 k.1) (BitVec.ofNat 6 k.2)
  (match (getHmb d k.2).find? fun e => decide (e.2.session.toNat = k.1) with
    | some e => serialOps.contains e.2.opcode.toNat
    | none => false) &&
    !((outstanding d).any fun r => sameStream r.origin o) &&
    !([0, 1].any fun p => (getHost d p).xfers.any fun f =>
      decide (f.session.toNat = k.1) && decide (f.mailbox.toNat = k.2))

/-- No S command that may begin reached the head of another stream before this command reached that of its own (R379);
a command without a frame in a host mailbox stands before them (log 57). -/
def firstHead (d : Dev) (q : SciReq) : Bool :=
  match q.origin with
  | .host sn m =>
    let k := (sn.toNat, m.toNat)
    !d.hpt.heads.contains k || !(d.hpt.heads.takeWhile fun x => x != k).any (serialHead d)
  | .fabric _ _ => true

/-- Whether a command may begin (R379): commands of a stream begin in SEQ order; none begins while an S
command of its stream has not completed; an S command, or one with FENCE, begins only when every earlier
one of its stream has completed, and S commands run one at a time, in the order in which they reached the head of their
streams. -/
def mayBegin (d : Dev) (q : SciReq) (opcode : Nat) (s : Bool) : Bool :=
  let o := outstanding d
  let mine := o.filter fun r => sameStream r.origin q.origin
  !behind d q opcode && !(mine.any (·.order)) && (!(s || q.fence) || decide (mine = [])) && (!s || (!(o.any (·.order)) && firstHead d q))

/-- The status with which a header is answered before its command, if any (R362, R376, Table 12.11). -/
def headerStatus (d : Dev) (q : SciReq) (opcode : Nat) (r : Resp) : Option Nat :=
  let host := match q.origin with
    | .host _ _ => true
    | .fabric _ _ => false
  let t := q.target.toNat
  if !isReady d && !([0x01, 0x02, 0x03, 0x31, 0x32].contains opcode) then some 0x0A
  else if host && !hpCmdEn d r.port && !([0x10, 0x11, 0x02, 0x03, 0x21, 0x22, 0x01].contains opcode) then some 0x09
  else if !q.reserved || 3 < t || 2 ^ 17 ≤ q.targetId.toNat ||
      (if t = 3 then decide (q.count = 0) || decide (4096 < q.count.toNat) else decide (q.count ≠ 0)) then some 0x03
  else if t ≠ 0 then
    if !isManager d || 464 < q.body.length || [0x01, 0x10, 0x11, 0x32].contains opcode then some 0x03
    else if t ≠ 2 ∧ fanList d q = [] then some 0x09 else none
  else none

/-- Run an SCI command: its order, its header, its fan-out under R351, or its effect on this device. A
manager answers TELEMETRY for its subtree itself (11 R352). -/
def sci (opcode : Nat) (s : Bool) (q : SciReq) (f : Resp → Dev → Dev) (d : Dev) : Option Dev :=
  if !mayBegin d q opcode s then none
  else match admitReq d q opcode s with
    | none => none
    | some (r, d) =>
      match headerStatus d q opcode r with
      | some e => some (respond d r e [])
      | none => if q.target = 0 ∨ (opcode = 0x03 ∧ q.target = 2) then some (f r d) else some (startFan d q opcode r)

/-- SESSION_CLOSE: step 5 ends the session once its response has been queued (R370). -/
def sessionClose (q : SciReq) (d : Dev) : Option Dev :=
  sci 0x01 true q (fun r d =>
    let d := respond d r 0 []
    match q.origin with
    | .host sn _ => closeSession d sn.toNat
    | .fabric _ _ => d) d

/-! ## The commands of this family -/

/-- FRAME_RECEIVE (12 R365). -/
def execFrameReceive (port : BitVec 1) (fr : Frame) (s : State) : Host.Outcome State Fault Refusal :=
  gated s "FRAME_RECEIVE" (frameReceive port fr s.dev)
/-- WAKE_FRAME (12 R361). -/
def execWakeFrame (port : BitVec 1) (s : State) : Host.Outcome State Fault Refusal := ok s (wakeFrame port s.dev)
/-- PFC_PAUSE (12 R360). -/
def execPfcPause (port : BitVec 1) (prio : BitVec 3) (xoff : Bool) (s : State) : Host.Outcome State Fault Refusal :=
  ok s (pfcPause port prio xoff s.dev)
/-- SESSION_HELLO (12 R367). -/
def execSessionHello (port : BitVec 1) (h : Hello) (s : State) : Host.Outcome State Fault Refusal :=
  gated s "SESSION_HELLO" (sessionHello port h s.dev)
/-- SESSION_FINISH (12 R368). -/
def execSessionFinish (port : BitVec 1) (h : Finish) (s : State) : Host.Outcome State Fault Refusal :=
  gated s "SESSION_FINISH" (sessionFinish port h s.dev)
/-- SESSION_CLOSE (12 R370). -/
def execSessionClose (q : SciReq) (s : State) : Host.Outcome State Fault Refusal :=
  gated s "SESSION_CLOSE" (sessionClose q s.dev)
/-- HANDSHAKE_TIMEOUT (12 R368). -/
def execHandshakeTimeout (id : Nat) (s : State) : Host.Outcome State Fault Refusal :=
  gated s "HANDSHAKE_TIMEOUT" (handshakeTimeout id s.dev)
/-- SESSION_IDLE_TIMEOUT (12 R370). -/
def execSessionIdleTimeout (session : BitVec 16) (s : State) : Host.Outcome State Fault Refusal :=
  gated s "SESSION_IDLE_TIMEOUT" (sessionIdleTimeout session s.dev)
/-- HOST_PORT_LINK_DOWN (12 R358). -/
def execHostPortLinkDown (port : BitVec 1) (s : State) : Host.Outcome State Fault Refusal :=
  gated s "HOST_PORT_LINK_DOWN" (hostPortLinkDown port s.dev)
/-- HOST_PORT_LINK_UP (12 R358). -/
def execHostPortLinkUp (port : BitVec 1) (s : State) : Host.Outcome State Fault Refusal :=
  gated s "HOST_PORT_LINK_UP" (hostPortLinkUp port s.dev)
/-- FRAME_COUNTER_LIMIT (12 R369). -/
def execFrameCounterLimit (session : BitVec 16) (s : State) : Host.Outcome State Fault Refusal :=
  gated s "FRAME_COUNTER_LIMIT" (frameCounterLimit session s.dev)

end Sys2Proof.Machine
end

