-- ==== Sys2Proof/Machine/Workqueue.lean ====
section
/-! DEFINITION. Work queues, LAUNCH and the dispatcher, signals and waits as commands (12 R386 to R393). -/

namespace Sys2Proof.Machine

/-! ## Rings (R386) -/

/-- Pages of `n` bytes from `a`. -/
def pagesOf (a n : Nat) : List Nat :=
  (List.range ((a + n - 1) / 2 ^ 20 + 1 - a / 2 ^ 20)).map (a / 2 ^ 20 + ·)

/-- The status of the first page that fails 09 R266 for a write, 0 for none. -/
def checkPages (d : Dev) : List Nat → Nat × Dev
  | [] => (0, d)
  | p :: ps =>
    match readPage d p with
    | (.invalid, d) => (2, d)
    | (.retired, d) => (3, d)
    | (.entry e, d) => if pteRo e then (4, d) else checkPages d ps

/-- Two byte ranges overlap. -/
def overlap (a n b m : Nat) : Bool := decide (a < b + m) && decide (b < a + n)

/-- The rings of an open queue. -/
def ringsOf (q : Queue) : List (Nat × Nat) := [(q.itemRing, q.entries * 128), (q.compRing, q.entries * 32)]

def isPow2 (n : Nat) : Bool := (List.range 17).any fun i => decide (n = 2 ^ i)

/-- What WQ OPEN answers, and the state after (R386). -/
def openQueue (d : Dev) (queue entries item comp : Nat) : Nat × Dev :=
  let v : Queue := { entries := entries, itemRing := item, compRing := comp, nextItem := 0, comps := 0, items := [] }
  let others := (d.disp.queues.filter fun e => e.1 != queue).flatMap fun e => match e.2 with
    | some q => ringsOf q
    | none => []
  if 4096 ≤ queue ∨ !isPow2 entries ∨ entries < 16 ∨ 65536 < entries ∨ item % 128 ≠ 0 ∨ comp % 32 ≠ 0 then (0x03, d)
  else if overlap item (entries * 128) comp (entries * 32) ∨
      ((ringsOf v).any fun a => others.any fun b => overlap a.1 a.2 b.1 b.2) then (0x03, d)
  else if (getQueue d queue).isSome then (0x08, d)
  else if !inDevice item (entries * 128) ∨ !inDevice comp (entries * 32) then (0x0B, d)
  else match checkPages d (pagesOf item (entries * 128) ++ pagesOf comp (entries * 32)) with
    | (0, d) => (0, putQueue d queue (some v))
    | (s, d) => (sciOf s, d)

/-- WQ_OPEN (R386). -/
def wqOpen (q : SciReq) (queue : BitVec 16) (entries : Word) (itemRing compRing : D64) (d : Dev) : Option Dev :=
  sci 0x1A true q (fun r d =>
    let (s, d) := openQueue d queue.toNat entries.toNat itemRing.toNat compRing.toNat
    respond d r s []) d

/-- WQ_CLOSE (R386). -/
def wqClose (q : SciReq) (queue : BitVec 16) (d : Dev) : Option Dev :=
  sci 0x1A true q (fun r d => match getQueue d queue.toNat with
    | none => respond d r 0x15 []
    | some v => if v.items ≠ [] then respond d r 0x08 [] else respond (putQueue d queue.toNat none) r 0 []) d

/-! ## LAUNCH (R387) -/

/-- The descriptor as it stands in the item ring (Table 12.13). -/
def launchBytes (l : Launch) : List Byte :=
  natBytes 4 l.module.toNat ++ natBytes 4 l.entry.toNat ++ natBytes 2 l.queue.toNat ++ natBytes 2 l.lflags.toNat ++
    natBytes 1 l.regs.toNat ++ natBytes 1 l.ftzExp.toNat ++ natBytes 2 0 ++ natBytes 2 l.coreFirst.toNat ++
    natBytes 2 l.coreCount.toNat ++ natBytes 4 l.threads.toNat ++ natBytes 2 l.banks.toNat ++
    natBytes 2 l.resident.toNat ++ natBytes 2 l.keep.toNat ++ natBytes 2 0 ++ natBytes 4 l.owner.toNat ++
    natBytes 2 l.gate.toNat ++ natBytes 2 l.done.toNat ++ natBytes 8 l.gateVal.toNat ++ natBytes 8 l.tag.toNat ++
    natBytes 8 0 ++ (List.range 16).flatMap fun i => natBytes 4 (l.args.getD i 0).toNat

/-- The owner fields of banks outside a set are 0 (07 R211). -/
def ownerOk (l : Launch) : Bool :=
  (List.range 16).all fun b => bit l.banks b || decide (bits l.owner (2 * b) 2 = 0)

/-- First logical core and number of tasks of an item; ALL_CORES takes every enabled core (log 34). -/
def coreSpan (d : Dev) (l : Launch) : Nat × Nat :=
  if lfAllCores l then (0, enabledCount d) else (l.coreFirst.toNat, l.coreCount.toNat)

/-- The status LAUNCH answers with before the item is written (R387), 0 for none. -/
def launchStatus (d : Dev) (l : Launch) : Nat :=
  match mapGet none d.disp.modules l.module.toNat with
  | none => 0x13
  | some m =>
    let n := groupsOf l
    let decl := lfBankDecl l
    if !l.rsv || decide (bits l.lflags 10 6 ≠ 0) || decide (l.entry.toNat % 8 ≠ 0) || decide (m.len ≤ l.entry.toNat) ||
        decide (l.regs = 0) || decide (l.threads = 0) || decide (2 ^ 24 < l.threads.toNat) ||
        (!lfAllCores l && (decide (l.coreCount = 0) || decide (2048 < l.coreCount.toNat))) ||
        (if decl then decide (l.resident &&& ~~~l.banks ≠ 0) || decide (l.keep &&& ~~~l.banks ≠ 0) || !ownerOk l
         else decide (l.banks ≠ 0) || decide (l.resident ≠ 0) || decide (l.keep ≠ 0) || decide (l.owner ≠ 0)) ||
        (lfWstage l && !lfMx l) then 0x03
    else if enabledCount d < (coreSpan d l).1 + (coreSpan d l).2 ∨ (coreSpan d l).2 = 0 then 0x17
    else if lfCoreBar l ∧ min 32 (2048 / allocOf l.regs.toNat) < n then 0x16
    else match getQueue d l.queue.toNat with
      | none => 0x15
      | some v => if v.entries ≤ v.items.length then 0x15 else 0

/-- The session a command came from. -/
def sessionOf (o : Origin) : Option Nat :=
  match o with
  | .host s _ => some s.toNat
  | .fabric _ _ => none

/-- LAUNCH: the descriptor is checked, written to the item ring and appended to its queue (R380, R386,
R387). -/
def launch (q : SciReq) (l : Launch) (d : Dev) : Option Dev :=
  sci 0x20 false q (fun r d =>
    match launchStatus d l, getQueue d l.queue.toNat with
    | 0, some v =>
      let (s, d) := writeDev d 7 (v.itemRing + 128 * (v.nextItem % v.entries)) (launchBytes l)
      if s ≠ 0 then respond d r (sciOf s) []
      else
        let w : WorkItem := { item := v.nextItem, launch := l, begun := false, parts := [],
                              session := sessionOf q.origin, fault := none, faulted := 0, redisp := 0, abort := none }
        let d := putQueue d l.queue.toNat (some { v with nextItem := v.nextItem + 1, items := v.items ++ [w] })
        respond d r 0 (natBytes 2 l.queue.toNat ++ natBytes 6 0 ++ natBytes 8 w.item)
    | s, _ => respond d r s []) d

/-! ## Starting items (R388, R393) -/

/-- Whether a task has started on a core: one that waits to be redispatched has (15 R463). -/
def partStarted (x : Part) : Bool := decide (x.st ≠ .waiting) || decide (x.redisp ≠ 0)

/-- A queue's item that may start now: every task of the item before it in ITEM order has started, or with SERIAL
that item has completed, and its gate is reached (R388 items 1 and 2). -/
def startable (d : Dev) (v : Queue) : Option WorkItem :=
  match v.items.find? fun w => !w.begun with
  | none => none
  | some w =>
    let ahead := match v.items.find? fun u => decide (u.item + 1 = w.item) with
      | none => true
      | some u => !lfSerial w.launch && u.parts.all partStarted
    if ahead && signalReached d w.launch.gate.toNat w.launch.gateVal then some w else none

/-- The queue whose turn it is among those with a startable head (R388 item 3). -/
def nextQueue (d : Dev) : Option Nat :=
  let ok_ (e : Nat × Option Queue) : Bool := match e.2 with
    | some v => (startable d v).isSome
    | none => false
  let l := (d.disp.queues.filter ok_).map (·.1)
  (l.find? fun q => decide (d.disp.rot ≤ q)) <|> l.head?

/-- The tasks of an item: one for each logical core in the core map now (R387). -/
def partsOf (d : Dev) (l : Launch) : List Part :=
  let s := coreSpan d l
  let cs := ((enabledCores d).drop s.1).take s.2
  (cs.zip (List.range cs.length)).map fun e => { index := e.2, core := e.1, st := .waiting, redisp := 0 }

/-- What dispatch does for one cluster of an item: its wake begins, and with USES_MX the load notice is
sent (R393). -/
def dispatchCluster (w : WorkItem) (queue : Nat) (ps : List Part) (d : Dev) (c : Nat) : Dev :=
  let n := (ps.filter fun p => decide (p.core / 32 = c)).length
  if n = 0 then d
  else
    let d := wakeCluster d c
    if lfMx w.launch then noticeFor d c n queue w.item else d

/-- WORK_ITEM_START: the dispatcher starts the item at the head of the queue whose turn it is (R388,
R393); it admits nothing while the device is not READY (16 R484). An item whose cores have left the core map since LAUNCH loses those tasks and ends with ERR_ABORT
(log 35). -/
def workItemStart (queue : BitVec 12) (d : Dev) : Option Dev :=
  let q := queue.toNat
  if !isReady d || decide (nextQueue d ≠ some q) then none
  else match getQueue d q with
    | none => none
    | some v =>
      match startable d v with
      | none => none
      | some w =>
        let ps := partsOf d w.launch
        let short := decide (ps.length < (coreSpan d w.launch).2)
        let d := putItem d q { w with begun := true, parts := ps, abort := if short then some 0 else none }
        let d := setDisp d { d.disp with rot := (q + 1) % 4096 }
        some ((List.range 64).foldl (dispatchCluster w q ps) d)

/-! ## Completion (R388, R389) -/

/-- STATUS, FAULT and FAULT_CORE of an item that has ended. -/
def itemStatus (w : WorkItem) : Nat × Nat × Nat :=
  match w.abort, w.fault with
  | some c, _ => (0x19, 0, c)
  | none, some f => (0x20, f.1, f.2)
  | none, none => (0, 0, 0)

/-- A completion record (Table 12.15). PHASE is the parity of the ring's pass, the first being 1
(log 36). -/
def completionRecord (w : WorkItem) (queue status fault core phase : Nat) : List Byte :=
  natBytes 8 w.launch.tag.toNat ++ natBytes 8 w.item ++ natBytes 2 queue ++ natBytes 1 status ++ natBytes 1 fault ++
    natBytes 2 core ++ natBytes 2 w.faulted ++ natBytes 2 w.redisp ++ natBytes 5 0 ++ natBytes 1 phase

/-- Write the completion record of an item, add 1 to its DONE_SIGNAL and notify; the item leaves its queue.
A record whose write fails is lost, and logged (R386, R388 item 6). -/
def finishItem (d : Dev) (q : Nat) (v : Queue) (w : WorkItem) (s : Nat × Nat × Nat) : Dev :=
  let bs := completionRecord w q s.1 s.2.1 s.2.2 ((v.comps / v.entries + 1) % 2)
  let a := v.compRing + 32 * (v.comps % v.entries)
  let d := putQueue d q (some { v with comps := v.comps + 1, items := v.items.filter fun x => x.item != w.item })
  let (e, d) := writeDev d 7 a bs
  let d := if e = 0 then d else transferRecord d (src 11 0) e (src 11 0).toNat a 32 w.launch.tag.toNat
  let d := raiseSignal d w.launch.done.toNat
  match lfNotify w.launch, w.session with
  | true, some n => sendEvent d n 0 bs
  | _, _ => d

/-- WORK_ITEM_COMPLETE: every task of the item has ended (R388 item 5). -/
def workItemComplete (queue : BitVec 12) (item : Nat) (d : Dev) : Option Dev :=
  let q := queue.toNat
  match getQueue d q, getItem d q item with
  | some v, some w =>
    if isReady d && w.begun && w.parts.all (fun p => decide (p.st = .ended)) then some (finishItem d q v w (itemStatus w)) else none
  | _, _ => none

/-! ## SIGNAL and WAIT (R390) -/

/-- SIGNAL: SET or ADD; the response carries the new value. INDEX 65,535 is no signal. -/
def signal (q : SciReq) (index : BitVec 16) (add : Bool) (value : D64) (d : Dev) : Option Dev :=
  sci 0x21 false q (fun r d =>
    if index.toNat = 0xFFFF then respond d r 0x03 []
    else
      let v := if add then getSignal d index.toNat + value else value
      respond (setSignal d index.toNat v) r 0 (natBytes 8 v.toNat)) d

/-- WAIT: answered when the signal is at least VALUE, at once with ERR_TIMEOUT when TIMEOUT_US is 0, and
with ERR_BUSY when 4,096 are pending. -/
def wait (q : SciReq) (index : BitVec 16) (timeoutUs : Word) (value : D64) (d : Dev) : Option Dev :=
  sci 0x22 false q (fun r d =>
    let i := index.toNat
    let v := getSignal d i
    if i = 0xFFFF then respond d r 0x03 []
    else if value.toNat ≤ v.toNat then respond d r 0 (natBytes 8 v.toNat)
    else if timeoutUs = 0 then respond d r 0x1A (natBytes 8 v.toNat)
    else if 4096 ≤ d.disp.waits.length then respond d r 0x08 []
    else
      let w : PendWait := { id := d.disp.nextWait, resp := r, index := i, value := value }
      setDisp d { d.disp with waits := d.disp.waits ++ [w], nextWait := d.disp.nextWait + 1 }) d

/-- WAIT_TIMEOUT: a pending WAIT reaches TIMEOUT_US (R390). -/
def waitTimeout (id : Nat) (d : Dev) : Option Dev :=
  (d.disp.waits.find? fun w => decide (w.id = id)).map fun w =>
    respond (setDisp d { d.disp with waits := d.disp.waits.filter fun x => x.id != id }) w.resp 0x1A
      (natBytes 8 (getSignal d w.index).toNat)

/-! ## The commands of this family -/

/-- WQ_OPEN (12 R386). -/
def execWqOpen (q : SciReq) (queue : BitVec 16) (entries : BitVec 32) (itemRing compRing : BitVec 64) (s : State) : Host.Outcome State Fault Refusal :=
  gated s "WQ_OPEN" (wqOpen q queue entries itemRing compRing s.dev)
/-- WQ_CLOSE (12 R386). -/
def execWqClose (q : SciReq) (queue : BitVec 16) (s : State) : Host.Outcome State Fault Refusal :=
  gated s "WQ_CLOSE" (wqClose q queue s.dev)
/-- LAUNCH (12 R387). -/
def execLaunch (q : SciReq) (d : Launch) (s : State) : Host.Outcome State Fault Refusal :=
  gated s "LAUNCH" (launch q d s.dev)
/-- SIGNAL (12 R390). -/
def execSignal (q : SciReq) (index : BitVec 16) (add : Bool) (value : BitVec 64) (s : State) : Host.Outcome State Fault Refusal :=
  gated s "SIGNAL" (signal q index add value s.dev)
/-- WAIT (12 R390). -/
def execWait (q : SciReq) (index : BitVec 16) (timeoutUs : BitVec 32) (value : BitVec 64) (s : State) : Host.Outcome State Fault Refusal :=
  gated s "WAIT" (wait q index timeoutUs value s.dev)
/-- WAIT_TIMEOUT (12 R390). -/
def execWaitTimeout (id : Nat) (s : State) : Host.Outcome State Fault Refusal :=
  gated s "WAIT_TIMEOUT" (waitTimeout id s.dev)
/-- WORK_ITEM_START (12 R388). -/
def execWorkItemStart (queue : BitVec 12) (s : State) : Host.Outcome State Fault Refusal :=
  gated s "WORK_ITEM_START" (workItemStart queue s.dev)
/-- WORK_ITEM_COMPLETE (12 R388). -/
def execWorkItemComplete (queue : BitVec 12) (item : Nat) (s : State) : Host.Outcome State Fault Refusal :=
  gated s "WORK_ITEM_COMPLETE" (workItemComplete queue item s.dev)

end Sys2Proof.Machine
end

