-- ==== Sys2Proof/Machine/Errors.lean ====
section
/-! DEFINITION. The error funnel, injection, fencing a core, the check-value units (15), and grant watchdogs (10). -/

namespace Sys2Proof.Machine

/-! ## The funnel (R451 to R453; 14 R448) -/

/-- The model's mark, in a source queue only, that a rule logged the event with ACTION ALERT (14 R448). -/
def alertMark : Byte := 0x80

/-- Count a record by severity (12 Table 12.14). -/
def countSeverity (l : List Nat) (s : Nat) : List Nat := setAt l s (min (l.getD s 0 + 1) (2 ^ 32 - 1))

/-- Whether the flash queue takes a record: severity FLASH_MIN or above, a debug token (16 R498), or
anything while a base reset's quiesce runs (16 R485). -/
def toFlash (d : Dev) (r : ErrRec) : Bool :=
  decide (regField d aErrCfg 52 2 ≤ recSeverity r) || d.boot.quiesce ||
    (decide (r.cls = 0) && decide (r.code = 0x0605))

/-- Accept a record: SEQ, PWR_USEC, the ring, and the event queues. -/
def acceptRecord (d : Dev) (r : ErrRec) : Dev :=
  let sev := recSeverity r
  let alert := decide (r.flags &&& alertMark ≠ 0) || (decide (r.cls = 0) && decide (regField d aAlertCfg 0 2 ≤ sev))
  let r := { r with flags := r.flags &&& 0x3F, seq := BitVec.ofNat 64 d.funnel.seq, usec := regGet d aUsec }
  let f := d.funnel
  let f : Funnel := { f with
    ring := mapIns (f.seq % 1024) r (mapDel f.ring (f.seq % 1024)), seq := f.seq + 1,
    sevs := countSeverity f.sevs sev,
    mgmtq := if alert then f.mgmtq ++ [r] else f.mgmtq,
    escq := if mgrValid d && decide (escMin d ≤ sev) then f.escq ++ [r] else f.escq,
    flashq := if toFlash d r then f.flashq ++ [r] else f.flashq }
  let d := { d with funnel := f }
  let d := if alert then regSat d aAlertCfg 16 16 1 else d
  if regField d aErrCfg 56 2 ≤ sev then broadcastEvent d 2 (recordBytes r) else d

/-- A core's fault record has been accepted: its group is no longer held, unless another record of that group still
waits (R452). -/
def recordAccepted (d : Dev) (r : ErrRec) : Dev :=
  let n := r.source.toNat
  let s := bits r.loc2 27 5
  let same (x : ErrRec) : Bool := decide (x.cls = 1) && decide (bits x.loc2 27 5 = s)
  if r.cls ≠ 1 ∨ 2048 ≤ n ∨ (mapGet [] d.funnel.srcq n).any same then d
  else match getGroup (getCore d n) s with
    | some g =>
      if g.hold = some .record then putCore d n (freeDead (putGroup (getCore d n) s (some { g with hold := none }))) else d
    | none => d

/-- FUNNEL_ACCEPT: the funnel accepts the next record of the lowest SOURCE that presents one (R451). -/
def funnelAccept (d : Dev) : Option Dev :=
  match d.funnel.srcq with
  | (k, r :: rs) :: _ =>
    some (recordAccepted (acceptRecord { d with funnel := { d.funnel with srcq := mapPut [] d.funnel.srcq k rs } } r) r)
  | _ => none

/-- FLASH_LOG_COPY: firmware copies the next record of the flash queue, with PERSISTED, into the log of 512
in module flash (R453 item 4). -/
def flashLogCopy (d : Dev) : Option Dev :=
  match d.funnel.flashq with
  | r :: rs =>
    let l := d.flash.log ++ [{ r with flags := r.flags ||| 0x20 }]
    some { d with funnel := { d.funnel with flashq := rs }, flash := { d.flash with log := l.drop (l.length - 512) } }
  | [] => none

/-! ## Injection (R459) -/

/-- ERR_INJECT_ARM: a write of SOR_ERR_INJECT. While PENDING it is ignored whole; an ARM that R459 does not
allow is ignored and logged. -/
def errInjectArm (v : D64) (d : Dev) : Dev :=
  if bit (regGet d aErrInject) 62 then d
  else
    let t := bits v 56 4
    let d := regPut d aErrInject (BitVec.ofNat 64 (t * 2 ^ 56 + bits v 55 1 * 2 ^ 55 + bits v 32 11 * 2 ^ 32))
    if !bit v 63 then d
    else if 7 ≤ t ∨ (t = 4 ∧ (31 < bits v 32 11 ∨ !protectedMode d)) then ignored d aErrInject v
    else regSet d aErrInject 62 1 1

/-! ## Ending the tasks of a core (R462, R463) -/

/-- The first enabled core from `n` + 1 on, wrapping, that meets a condition. -/
def nextCore (d : Dev) (n : Nat) (p : Nat → Bool) : Option Nat :=
  ((List.range 2047).map fun i => (n + 1 + i) % 2048).find? fun c => !coreFenced d c && p c

/-- Where a task goes (R463): a core that holds no task of the item, else the first enabled one; never one
of `out`, which are being reset (16 R488). -/
def newHome (d : Dev) (w : WorkItem) (n : Nat) (out : List Nat) : Option Nat :=
  let free (c : Nat) : Bool := !out.contains c
  let holds (c : Nat) : Bool := w.parts.any fun p => decide (p.core = c) && decide (p.st ≠ .ended)
  nextCore d n (fun c => free c && !holds c) <|> nextCore d n free

/-- The item's record carries ERR_ABORT with a core, unless a task of it recorded a fault first. -/
def abortItem (w : WorkItem) (core : Nat) : WorkItem :=
  if w.fault.isSome then w else { w with abort := w.abort <|> some core }

/-- Send one task of an item to another core: its cluster's wake begins and its notice is sent. -/
def movePart (d : Dev) (q : Nat) (w : WorkItem) (old : Nat) (st : PartSt) (core : Nat) (again : Bool) : Dev :=
  match w.parts.findIdx? fun p => decide (p.core = old) && decide (p.st = st) with
  | none => d
  | some i =>
    let w := { w with
      parts := w.parts.modify i (fun p => { p with core := core, st := .waiting, redisp := p.redisp + b2n again }),
      redisp := w.redisp + b2n again }
    let d := wakeCluster (putItem d q w) (core / 32)
    if lfMx w.launch then noticeFor d (core / 32) 1 q w.item else d

/-- End one resident task (R462 items 2 and 3). -/
def endTask (d : Dev) (n : Nat) (pos : Bool) (out : List Nat) : Dev :=
  match getTask (getCore d n) pos with
  | none => d
  | some t =>
    let d := match getItem d t.queue t.item with
      | none => d
      | some w =>
        match (if t.idem && decide (t.fault = none) && decide (t.redisp < 3) then newHome d w n out else none) with
        | some c => movePart d t.queue w n .resident c true
        | none => putItem d t.queue (abortItem (setPart w n .resident .ended) n)
    freeTask d n pos t

/-- One task of an item that waits for a core leaves it for another (log 37). -/
def moveOne (n : Nat) (out : List Nat) (q i : Nat) (d : Dev) : Dev :=
  match getItem d q i with
  | none => d
  | some w =>
    if w.parts.any fun p => decide (p.core = n) && decide (p.st = .waiting) then
      match newHome d w n out with
      | some c => movePart d q w n .waiting c false
      | none => putItem d q (abortItem (setPart w n .waiting .ended) n)
    else d

/-- Every task of a started item that waits for a core leaves it (log 37). -/
def moveWaiting (d : Dev) (n : Nat) (out : List Nat) : Dev :=
  d.disp.queues.foldl (fun d e => match e.2 with
    | none => d
    | some v => v.items.foldl (fun d w => w.parts.foldl (fun d _ => moveOne n out e.1 w.item d) d) d) d

/-- The core's state after a reset or a fence: reset values, no request, no mark (R461; 07 R210, 06 R186). -/
def clearCore (d : Dev) (n : Nat) : Dev :=
  let d := { d with reqs := d.reqs.filter fun r => r.core != n,
                    errs := d.errs.filter fun e => !(decide (e.unit = n) && decide (e.mem ≤ 0x09)) }
  putCore d n { freshCore with cycleBase := (getCluster d (n / 32)).cycles }

/-! ## Fencing (R460 to R464) -/

/-- Requests of a core that its crossing has accepted (01 R29) and that are not performed. -/
def sentOpen (d : Dev) (n : Nat) : Bool :=
  d.reqs.any fun r => decide (r.core = n) && [.crossing, .moving, .missed].contains r.st

/-- Discard the requests of a core that were not sent (R461). -/
def dropUnsent (d : Dev) (n : Nat) : Dev :=
  { d with reqs := d.reqs.filter fun r =>
      !(decide (r.core = n) && (decide (r.st = .waiting) || decide (r.st = .retried))) }

/-- CORE_FENCE_START: a trigger of R460. The core issues nothing further and its unsent requests are
discarded; a hardware error enters the fence list of 64 (R464). A core already fenced, or being fenced, takes
no further effect. -/
def coreFenceStart (core : BitVec 11) (hw : Bool) (d : Dev) : Dev :=
  let n := core.toNat
  let c := getCore d n
  if coreFenced d n then d
  else
    let d := if hw && decide (d.flash.fences.length < 64) && !d.flash.fences.contains n then
        { d with flash := { d.flash with fences := d.flash.fences ++ [n] } } else d
    if c.fencing then d else dropUnsent (putCore d n { c with fencing := true }) n

/-- Fence a core: its FENCED bit and EV_CORE_FENCED. -/
def markFenced (d : Dev) (n : Nat) : Dev :=
  event (regSet d (aCoreFence (n / 64)) (n % 64) 1 1) (src 0 n) 0x0601 n 0 0 0

/-- Turn a cluster without an enabled core OFF (R461). -/
def clusterOffIfEmpty (d : Dev) (c : Nat) : Dev :=
  if (coresOf c).all (coreFenced d) then
    let k := getCluster d c
    putCluster (railSet d c 0) c { k with st := .off, sleepReq := false, wakeReq := false, droop := none }
  else d

/-- Answer the FENCE_CORE commands that wait for a core's fence. -/
def answerFences (d : Dev) (n : Nat) : Dev :=
  let l := d.disp.fencing.filter fun e => decide (e.1 = n)
  let d := setDisp d { d.disp with fencing := d.disp.fencing.filter fun e => e.1 != n }
  l.foldl (fun d e => respond d e.2 0 []) d

/-- CORE_FENCE_COMPLETE: every sent request has been performed or has ended: the core is gated and leaves
the core map, and its tasks end or are redispatched (R461 to R463). -/
def coreFenceComplete (core : BitVec 11) (d : Dev) : Option Dev :=
  let n := core.toNat
  if !(getCore d n).fencing || sentOpen d n then none
  else
    let d := markFenced d n
    let d := moveWaiting (endTask (endTask d n false [n]) n true [n]) n [n]
    let d := clusterOffIfEmpty (clearCore d n) (n / 32)
    some (answerFences d n)

/-! ## Check-value units (R466 to R469) -/

def cvCtrl (u : Nat) : Nat := cvuw u
def cvFilter (u : Nat) : Nat := cvuw u + 0x8
def cvPoly (u : Nat) : Nat := cvuw u + 0x10
def cvXor (u : Nat) : Nat := cvuw u + 0x18
def cvValue (u : Nat) : Nat := cvuw u + 0x20
def cvStatus (u : Nat) : Nat := cvuw u + 0x30
def cvBytes (u : Nat) : Nat := cvuw u + 0x38

def getCvu (d : Dev) (u : Nat) : Cvu := mapGet freshCvu d.cvus u
def putCvu (d : Dev) (u : Nat) (c : Cvu) : Dev := { d with cvus := mapPut freshCvu d.cvus u c }

/-- A unit is stopped while PAUSED is 1. -/
def cvStopped (d : Dev) (u : Nat) : Bool := bit (regGet d (cvCtrl u)) 62

/-- The fields of CVU_CTRL_u that a running unit holds fast: bits [59:48] and [46:24]. -/
def cvFields (v : D64) : D64 := v &&& 0x0FFF7FFFFF000000

/-- Width, polynomial and reflections in force (Table 15.9). -/
def cvWidth (c : D64) : Nat := match bits c 48 2 with
  | 0 => 32
  | 1 => 64
  | _ => max 7 (bits c 41 6) + 1
def cvPolyOf (d : Dev) (u : Nat) (c : D64) : Nat := match bits c 48 2 with
  | 0 => 0x1EDC6F41
  | 1 => 0x42F0E1EBA9EA3693
  | _ => (regGet d (cvPoly u)).toNat % 2 ^ cvWidth c
def cvRefIn (c : D64) : Bool := match bits c 48 2 with
  | 0 => true
  | 1 => false
  | _ => bit c 40
def cvRefOut (c : D64) : Bool := match bits c 48 2 with
  | 0 => true
  | 1 => false
  | _ => bit c 39
def cvXorOf (d : Dev) (u : Nat) (c : D64) : Nat := match bits c 48 2 with
  | 0 => 0xFFFFFFFF
  | 1 => 0
  | _ => (regGet d (cvXor u)).toNat

/-- The header check's filter requirement (R469): on a host stream SESSION_EN and not MAILBOX_EN; on a
fabric stream PEER_EN and a TYPE_MASK within one channel. -/
def cvFilterOk (d : Dev) (u : Nat) (c : D64) : Bool :=
  let f := regGet d (cvFilter u)
  let a := bits c 56 4
  let m := bits f 30 16
  if bits c 36 3 ≠ 1 then true
  else if a = 4 ∨ a = 5 then bit f 13 && !bit f 6
  else if a = 2 ∨ a = 3 then bit f 46 && decide (m ≠ 0) && (decide (m / 8 = 0) || decide (m = 8))
  else true

/-- Restart a unit (R468). -/
def cvRestart (d : Dev) (u : Nat) : Dev :=
  let d := match bits (regGet d (cvCtrl u)) 48 2 with
    | 0 => regPut d (cvValue u) 0xFFFFFFFF
    | 1 => regPut d (cvValue u) 0
    | _ => d
  putCvu (regPut d (cvBytes u) 0) u { getCvu d u with last := none }

/-- CVU_CTRL_WRITE (R468): fields change only while the unit is stopped; EN 1 with a filter that R469
forbids, and a change at another time, are ignored and logged. -/
def cvuCtrlWrite (unit : BitVec 5) (v : D64) (d : Dev) : Dev :=
  let u := unit.toNat
  let cur := regGet d (cvCtrl u)
  if (!cvStopped d u && decide (cvFields v ≠ cvFields cur)) || (bit v 63 && !cvFilterOk d u v) then
    ignored d (cvCtrl u) v
  else
    let paused := if bit v 63 then false else cvStopped d u
    let d := putCvu d u { getCvu d u with pausing := !bit v 63 && !paused }
    let d := regPut d (cvCtrl u) (cvFields v ||| setBits (setBits 0 63 1 (bits v 63 1)) 62 1 (b2n paused))
    if bit v 61 then cvRestart d u else d

/-- CVU_RESTART (R468). -/
def cvuRestart (unit : BitVec 5) (d : Dev) : Dev := cvRestart d unit.toNat

/-- CVU_CONFIG_WRITE: accepted only while the unit is stopped (R468). -/
def cvuConfigWrite (unit : BitVec 5) (reg : CvuReg) (v : D64) (d : Dev) : Dev :=
  let u := unit.toNat
  let (a, v) := match reg with
    | .filter => (cvFilter u, v &&& 0xFFFFFFFFFFFFFFC0)
    | .poly => (cvPoly u, v)
    | .xorOut => (cvXor u, v)
    | .value => (cvValue u, v)
    | .bytes => (cvBytes u, v)
  if cvStopped d u then regPut d a v else ignored d a v

/-- CVU_PAUSE: EN 0 takes effect at a boundary (R468). -/
def cvuPause (unit : BitVec 5) (d : Dev) : Option Dev :=
  let u := unit.toNat
  let c := getCvu d u
  if c.pausing then some (regSet (putCvu d u { c with pausing := false }) (cvCtrl u) 62 1 1) else none

/-- The register after one byte: bits enter least significant first when the input is reflected (R467). -/
def cvByte (w poly : Nat) (refIn : Bool) (r : Nat) (b : Byte) : Nat :=
  (List.range 8).foldl (fun r i => crcBit w poly r (bit b (if refIn then i else 7 - i))) r

/-- The bits of a value of width `w` in reverse. -/
def reflectBits (w n : Nat) : Nat :=
  (List.range w).foldl (fun s i => if n.testBit i then s + 2 ^ (w - 1 - i) else s) 0

/-- RESULT of a unit (R467). -/
def cvResult (d : Dev) (u : Nat) : Nat :=
  let c := regGet d (cvCtrl u)
  let w := cvWidth c
  let v := (regGet d (cvValue u)).toNat % 2 ^ w
  ((if cvRefOut c then reflectBits w v else v) ^^^ cvXorOf d u c) % 2 ^ w

/-- Whether a unit's filter passes a frame or message (R466). -/
def cvPasses (d : Dev) (u : Nat) (b : CvuBlock) : Bool :=
  let f := regGet d (cvFilter u)
  let a := b.attach.toNat
  if a = 2 ∨ a = 3 then bit f (30 + b.typ.toNat) && (!bit f 46 || decide (bits f 47 17 = b.peer.toNat))
  else if a = 4 ∨ a = 5 then
    (!bit f 13 || decide (bits f 14 16 = b.session.toNat)) && (!bit f 6 || decide (bits f 7 6 = b.mailbox.toNat))
  else true

/-- The counter that ALIVE selects in a block, and its width (R469). -/
def cvCounter (c : D64) (b : CvuBlock) : Option (Nat × Nat) :=
  let off := bits c 24 12
  let field (n : Nat) : Option (Nat × Nat) :=
    if off + n ≤ b.data.length then some (fieldAt b.data off n, 8 * n) else none
  match bits c 36 3 with
  | 1 => if b.attach.toNat = 4 ∨ b.attach.toNat = 5 then some (b.counter.toNat % 2 ^ 16, 16)
         else if b.attach.toNat = 2 ∨ b.attach.toNat = 3 then some (b.counter.toNat, 32) else none
  | 2 => field 1
  | 3 => field 2
  | 4 => field 4
  | _ => none

/-- An INTEGRITY record (Table 15.2 class 4), merged under R452. -/
def cvRecord (d : Dev) (u code found want bytes : Nat) : Dev :=
  postMerged d 0 (mkRec (src 10 u) 4 code sevWarning (BitVec.ofNat 64 u) (BitVec.ofNat 64 found)
    (BitVec.ofNat 64 want) (BitVec.ofNat 64 bytes))

/-- The alive check of one block (R469). -/
def cvAlive (d : Dev) (u : Nat) (b : CvuBlock) : Dev :=
  let k := getCvu d u
  match cvCounter (regGet d (cvCtrl u)) b, k.last with
  | none, _ => d
  | some (a, _), none => putCvu d u { k with last := some a }
  | some (a, w), some l =>
    let want := (l + 1) % 2 ^ w
    let diff := (a + 2 ^ w - l) % 2 ^ w
    let bytes := (regGet d (cvBytes u)).toNat
    if diff = 1 then putCvu d u { k with last := some a }
    else if diff = 0 then cvRecord (regSat d (cvStatus u) 11 11 1) u 1 a want bytes
    else if diff < 2 ^ (w - 1) then
      cvRecord (regSat (putCvu d u { k with last := some a }) (cvStatus u) 0 11 1) u 2 a want bytes
    else cvRecord (regSat d (cvStatus u) 22 10 1) u 3 a want bytes

/-- CVU_TAKE: a unit that is not stopped takes the bytes of a block on its stream that passes its filter
(R466, R467, R469). -/
def cvuTake (unit : BitVec 5) (b : CvuBlock) (d : Dev) : Option Dev :=
  let u := unit.toNat
  let c := regGet d (cvCtrl u)
  if cvStopped d u || decide (bits c 56 4 ≠ b.attach.toNat) || decide (b.attach = 0) || decide (5 < b.attach.toNat) ||
      decide (bits c 50 6 ≠ b.index.toNat) || !cvPasses d u b then none
  else
    let d := cvAlive d u b
    let w := cvWidth c
    let v := (regGet d (cvValue u)).toNat % 2 ^ w
    let v := b.data.foldl (cvByte w (cvPolyOf d u c) (cvRefIn c)) v
    let d := regPut d (cvValue u) (BitVec.ofNat 64 v)
    let d := regPut d (cvBytes u) (regGet d (cvBytes u) + BitVec.ofNat 64 b.data.length)
    some (regSat d (cvStatus u) 40 24 1)

/-! ## Grant watchdogs (R307 to R309) -/

/-- A resource ID names a resource (Table 10.4). -/
def resourceOk (r : Nat) : Bool :=
  let hi := r / 2 ^ 16 % 2 ^ 12
  let lo := r % 2 ^ 16
  match r / 2 ^ 28 with
  | 0 => decide (hi < 2048) && decide (lo ≤ 16)
  | 1 => decide (hi < 2048) && decide (lo ≤ 4)
  | 2 => decide (hi = 0) && decide (lo < 128)
  | 3 => decide (hi = 0) && decide (lo < 256)
  | _ => false

/-- Fence a resource that has reached FENCE_AT expiries (Table 10.5): whether it is fenced. The packets that wait for a
fenced link are aborted before later ones take another route (R309). -/
def fenceResource (d : Dev) (r : Nat) : Bool × Dev :=
  let hi := r / 2 ^ 16 % 2 ^ 12
  let lo := r % 2 ^ 16
  if r / 2 ^ 28 = 0 then retireBank d hi lo
  else if r / 2 ^ 28 = 1 ∧ lo = 4 then (false, d)
  else
    let d := (d.net.pkts.filter fun p => p.route.contains r).foldl abortPacket d
    (true, { d with fencedRes := d.fencedRes ++ [r] })

/-- The links that a request's transfer uses where it stands: to its home, from there to external memory and back, or
back to its core. -/
def linksOf (d : Dev) (r : Req) : List Nat :=
  let s := reqHome r
  let way (a b : Nat) : List Nat := if a = b then [] else match routeOf d a b (bit20 r.line) with
    | some x => x.2 ++ [meshPort b 4]
    | none => []
  match r.st with
  | .missed =>
    [0, 1].flatMap fun dir => match downChannel d dir s with
      | some c => (if dir = 0 then way s (landing c) else way (landing c) s) ++ [channelId dir c]
      | none => []
  | .performed => way s r.core
  | _ => way r.core s

/-- A request may be the holder of a resource: the port's own holder when it has one, else a request whose transfer
uses it and that is not held at its port. -/
def holdsRes (d : Dev) (res id : Nat) : Bool :=
  match getReq d id with
  | none => false
  | some r =>
    if res / 2 ^ 28 = 0 then
      let s := res / 2 ^ 16 % 2 ^ 12
      match (getPort d s (res % 2 ^ 16)).holder with
      | some h => decide (h.req = id)
      | none => unperformed r && (decide (r.st = .missed) || mayArrive d r) && decide (reqHome r = s) &&
          decide ((lineBank d s r.line).getD (res % 2 ^ 16) = res % 2 ^ 16)
    else match (mapGet idleOut d.net.ports res).cur with
      | some (.miss, m) => d.miss.any fun x => decide (x.id = m) && x.reqs.contains id
      | some (_, i) => decide (i = id)
      | none => (linksOf d r).contains res && (!decide (r.st = .waiting) || !reqHeld d r)

/-- The transfer that a resource's own state names as its holder is no core request, so that the victim may be a base
die master or an engine (R307 item 2). -/
def noReqHolds (d : Dev) (res : Nat) : Bool :=
  if res / 2 ^ 28 = 0 then
    match (getPort d (res / 2 ^ 16 % 2 ^ 12) (res % 2 ^ 16)).holder with
    | some h => decide (h.req = 0)
    | none => true
  else decide ((mapGet idleOut d.net.ports res).cur = none)

/-- Withdraw a resource's grant (R307 item 1). -/
def withdraw (d : Dev) (r : Nat) : Dev :=
  if r / 2 ^ 28 = 0 then
    let s := r / 2 ^ 16 % 2 ^ 12
    putPort d s (r % 2 ^ 16) { getPort d s (r % 2 ^ 16) with holder := none, left := 0, ended := true }
  else
    let o := mapGet idleOut d.net.ports r
    { d with net := { d.net with ports := mapPut idleOut d.net.ports r { o with cur := none, left := 0 } } }

/-- A victim's number from which on it names a base die master of Table 10.7, and not an operation of a core
(log 12). -/
def masterBase : Nat := 2 ^ 32

/-- The FFX load or tile mover operation on device memory with a number, its core, and the address of its range. -/
def moverVictim (d : Dev) (id : Nat) : Option (Nat × Sum FfxOp MxOp × Nat) :=
  d.cores.findSome? fun e =>
    match e.2.ffx.q.find? fun o => o.lds && o.started && decide (o.id = id) with
    | some o => some (e.1, .inl o, ldsSrc o.desc)
    | none => match e.2.mx.q.find? fun o => o.started && isMover o.kind && decide (o.id = id) with
      | some o =>
        if (match o.kind with | .drain => drSpad o.desc | _ => ldSpad o.desc) then none
        else some (e.1, .inr o, match o.kind with | .drain => drDst o.desc | _ => ldSrc o.desc)
      | none => none

/-- A victim stands behind the resource: a request, an FFX load or a mover operation that runs, or a channel with a
descriptor (R307 item 2). -/
def victimOk (d : Dev) (res : Nat) : Option Nat → Bool
  | none => noReqHolds d res
  | some id =>
    if (getReq d id).isSome then holdsRes d res id
    else noReqHolds d res && ((moverVictim d id).isSome ||
      (decide (masterBase + 2048 ≤ id) && decide (id < masterBase + 2112) &&
        decide ((getEngine d (id - masterBase - 2048)).descs ≠ [])))

/-- Abort the victim's transfer: its master receives ABORT, and reacts as 15 gives (R307 item 2). -/
def abortVictim (d : Dev) : Option Nat → Dev
  | none => d
  | some id =>
    if (getReq d id).isSome then abortReq d id
    else match moverVictim d id with
      | some (n, .inl o, a) =>
        let f := (getCore d n).ffx
        putFfx d n { f with q := f.q.map fun e => if e.id = o.id then { e with bad := some (0x12, a) } else e }
      | some (n, .inr o, a) => deferMx d n o 0x12 a
      | none => failHead d (id - masterBase - 2048) 8

/-- GRANT_WATCHDOG_EXPIRY (R307 items 1 to 4). -/
def grantWatchdogExpiry (res : Word) (victim : Option Nat) (d : Dev) : Option Dev :=
  let r := res.toNat
  if !resourceOk r || d.fencedRes.contains r || !victimOk d r victim then none
  else
    let d := withdraw (abortVictim d victim) r
    let d := event (regSat d aWdogStatus 32 32 1) (src 9 0) 0x0401 r 0 0 0
    let n := mapGet 0 d.expiry r + 1
    let d := { d with expiry := mapPut 0 d.expiry r n }
    let at_ := regField d aWdogCfg 32 4
    let (fenced, d) := if at_ ≠ 0 ∧ at_ ≤ n then fenceResource d r else (false, d)
    let d := if fenced then event (regSat d aWdogStatus 0 16 1) (src 9 0) 0x0402 r 0 0 0 else d
    some (regPut d aWdogLast (BitVec.ofNat 64 (2 ^ 63 + b2n fenced * 2 ^ 62 + min n 3 * 2 ^ 60 + r)))

/-! ## The commands of this family -/

/-- FUNNEL_ACCEPT (15 R451). -/
def execFunnelAccept (s : State) : Host.Outcome State Fault Refusal := gated s "FUNNEL_ACCEPT" (funnelAccept s.dev)
/-- FLASH_LOG_COPY (15 R453). -/
def execFlashLogCopy (s : State) : Host.Outcome State Fault Refusal := gated s "FLASH_LOG_COPY" (flashLogCopy s.dev)
/-- ERR_INJECT_ARM (15 R459). -/
def execErrInjectArm (v : BitVec 64) (s : State) : Host.Outcome State Fault Refusal := ok s (errInjectArm v s.dev)
/-- CORE_FENCE_START (15 R461). -/
def execCoreFenceStart (core : BitVec 11) (hw : Bool) (s : State) : Host.Outcome State Fault Refusal :=
  ok s (coreFenceStart core hw s.dev)
/-- CORE_FENCE_COMPLETE (15 R462). -/
def execCoreFenceComplete (core : BitVec 11) (s : State) : Host.Outcome State Fault Refusal :=
  gated s "CORE_FENCE_COMPLETE" (coreFenceComplete core s.dev)
/-- CVU_CTRL_WRITE (15 R468). -/
def execCvuCtrlWrite (unit : BitVec 5) (v : BitVec 64) (s : State) : Host.Outcome State Fault Refusal :=
  ok s (cvuCtrlWrite unit v s.dev)
/-- CVU_RESTART (15 R468). -/
def execCvuRestart (unit : BitVec 5) (s : State) : Host.Outcome State Fault Refusal := ok s (cvuRestart unit s.dev)
/-- CVU_CONFIG_WRITE (15 R468). -/
def execCvuConfigWrite (unit : BitVec 5) (reg : CvuReg) (v : BitVec 64) (s : State) : Host.Outcome State Fault Refusal :=
  ok s (cvuConfigWrite unit reg v s.dev)
/-- CVU_PAUSE (15 R468). -/
def execCvuPause (unit : BitVec 5) (s : State) : Host.Outcome State Fault Refusal :=
  gated s "CVU_PAUSE" (cvuPause unit s.dev)
/-- CVU_TAKE (15 R466). -/
def execCvuTake (unit : BitVec 5) (b : CvuBlock) (s : State) : Host.Outcome State Fault Refusal :=
  gated s "CVU_TAKE" (cvuTake unit b s.dev)

/-- GRANT_WATCHDOG_EXPIRY (10 R307). -/
def execGrantWatchdogExpiry (res : BitVec 32) (victim : Option Nat) (s : State) : Host.Outcome State Fault Refusal :=
  gated s "GRANT_WATCHDOG_EXPIRY" (grantWatchdogExpiry res victim s.dev)

end Sys2Proof.Machine
end

