-- ==== Sys2Proof/Machine/Reset.lean ====
section
/-! DEFINITION. What each kind of reset clears and keeps, power-down, and the order of resets (16 R480 to
R488; 14 R430; 13 R402). -/

namespace Sys2Proof.Machine

/-! ## Cause and step (Tables 16.11, 16.12) -/

/-- Record a reset in SEC_RESET_CAUSE. -/
def noteReset (d : Dev) (kind index trig : Nat) : Dev :=
  let n := min (regField d aResetCause 0 32 + 1) (2 ^ 32 - 1)
  regPut d aResetCause (BitVec.ofNat 64 (kind * 2 ^ 60 + trig * 2 ^ 56 + index % 2 ^ 11 * 2 ^ 32 + n))

/-- Set the step of Table 16.1 in progress. -/
def setStep (d : Dev) (n : Nat) : Dev := regSet d aSecBoot 48 4 n

/-- Bring-up runs again from step `n`, or from the current step when bring-up has not come so far (R481).
READY, REASON and BOOT_MS start again. -/
def restartAt (d : Dev) (n : Nat) : Dev :=
  let cur := bootStep d
  let n := if isReady d || d.boot.base || d.boot.quiesce || decide (cur = 0) then n else min cur n
  setStep (regSet (regSet (regSet d aSecBoot 63 1 0) aSecBoot 40 8 0) aSecBoot 0 32 0) n

/-! ## Registers (R482; 00 R16) -/

/-- The always-on island's registers and those that show what Sorrel and the regulators hold: SEC_, SOR_ but
SOR_ERRLOG_STATUS and SOR_ERR_INJECT (15 R501), inputs, clocks and rails. -/
def aonReg (a : Nat) : Bool :=
  (decide (aSecBoot ≤ a) && decide (a < aPwrInput) && a != aErrStatus && a != aErrInject) ||
    a == aPwrInput || a == aClkStatus || inSeries a (aRail 0) 8 72

/-- What a device warm reset keeps: the fences are set again at bring-up (15 R464). -/
def keptWarm (a : Nat) : Bool := aonReg a && !inSeries a (aCoreFence 0) 8 32

/-- What a base reset keeps besides: the compute and cache dies, the PGM_ registers, FAB_ID and FAB_ROLE
(Table 16.4, Table 8.5). -/
def keptBase (a : Nat) : Bool := aonReg a || decide (a < 0x7E0000000000) || a == aFabId || a == aFabRole

def keepRegs (d : Dev) (keep : Nat → Bool) : Dev := { d with regs := d.regs.filter fun e => keep e.1 }

/-! ## Sensors and rails -/

/-- A sensor whose break is cleared is judged afresh (14 R441). -/
def clearSensor (s : Sensor) : Sensor :=
  if s.kind = 0 ∧ s.found = 0 then s
  else { s with hist := [], meds := [], same := 0, nbCnt := 0, estCnt := 0, kind := 0, found := 0, trip := 0 }

/-- Every rail but VAON off (13 R402, 14 R430). -/
def railsOff (d : Dev) : Dev :=
  (List.range 72).foldl (fun d r => if r = 69 then d else regPut d (aRail r) 0)
    { d with sor := { d.sor with rails := false } }

/-- XO_REF and every fast clock stopped; AON_RC stays (Table 13.15). -/
def clocksOff (d : Dev) : Dev := regPut d aClkStatus (regGet d aClkStatus &&& 0x8000000000000000)

/-- No cluster is in a droop episode. -/
def droopsEnd (d : Dev) : Dev := (List.range 64).foldl (fun d c => regSet d (aSorCluster c) 54 1 0) d

/-! ## What is lost (Tables 8.5, 16.4) -/

/-- The funnel after a reset that clears the base die: the management and flash queues stay (15 R501). -/
def clearFunnel (f : Funnel) : Funnel := { resetFunnel with mgmtq := f.mgmtq, flashq := f.flashq }

/-- A reset takes every port DOWN (11 R321): DOWNS, which counts since power-on, goes on, and EV_LINK_DOWN names each
port that was not DOWN. `old` is the device before it. -/
def portsDown (old d : Dev) : Dev :=
  (List.range 8).foldl (fun d p =>
    let d := regSet d (aFabPort p) 0 8 (regField old (aFabPort p) 0 8)
    if (getLink old p).st = lsDown then d
    else event (regSat d (aFabPort p) 0 8 1) (src 4 p) 0x0503 0 0 0 0) d

/-- The state of all three dies is lost, with external memory, its key and the page map; Sorrel, flash and
fuses stay (Table 16.4, device warm). -/
def clearDies (d : Dev) : Dev :=
  let old := d
  let d := droopsEnd (keepRegs d keptWarm)
  portsDown old { d with
    cores := [], reqs := [], slices := [], miss := [], thrash := [], deadEv := [], mem := [], pmap := [],
    shoot := none, btc := [], errs := [], chk := [], xts := none, scrub := resetScrub, banks := [], net := emptyNet, expiry := [], fencedRes := [],
    unreach := [], budget := [], funnel := clearFunnel d.funnel, clusters := [], fab := resetFab, lov := [],
    hpt := resetHpt, disp := resetDisp, cvus := [],
    sor := { d.sor with sensors := d.sor.sensors.map fun e => (e.1, clearSensor e.2), orderly := false },
    boot := { d.boot with waitRef := false, verified := false, selfFail := false, quiesce := false,
                          base := false, queued := [], measured := [] } }

/-- DEVICE WARM: rails and Sorrel are kept; bring-up resumes at step 2 (Table 16.3). -/
def warmReset (d : Dev) (trig : Nat) : Dev := noteReset (restartAt (clearDies d) 2) 2 0 trig

/-- Whether the running Sorrel firmware is the one the commit word names (R490). -/
def sorrelSlot (d : Dev) : Nat := regField d aSecBoot 60 1

/-- The commit word in use: the copy whose CRC is valid and whose GENERATION is higher (R490). -/
def commitGood (w : D64) : Bool := decide (bits w 0 16 = crc16 w)
def commitIndex (l : List D64) : Nat :=
  let a := l.getD 0 0
  let b := l.getD 1 0
  if commitGood a && (!commitGood b || decide (bits b 32 32 ≤ bits a 32 32)) then 0
  else if commitGood b then 1 else 0
/-- The word in use; with no valid copy, slots A (log 6). -/
def commitWord (d : Dev) : D64 :=
  let w := d.flash.commit.getD (commitIndex d.flash.commit) 0
  if commitGood w then w else 0
def commitMain (d : Dev) : Nat := bits (commitWord d) 16 1
def commitSorrel (d : Dev) : Nat := bits (commitWord d) 17 1

/-- Before a module reset that starts new Sorrel firmware, Sorrel writes the bond-wear counts to flash and
restarts from its ROM (R491). -/
def sorrelRestart (d : Dev) : Dev :=
  if commitSorrel d = sorrelSlot d then d
  else { d with flash := { d.flash with zones := d.sor.zones }, sor := { d.sor with running := false } }

/-- MODULE: every rail but VAON removed and restored, Sorrel kept; bring-up resumes at step 1
(Table 16.3). -/
def moduleReset (d : Dev) (trig : Nat) : Dev :=
  let d := sorrelRestart (clocksOff (railsOff (clearDies d)))
  let d := { d with sor := { d.sor with down := false, stopped := false } }
  noteReset (restartAt d 1) 1 0 trig

/-- Everything lost but flash, fuses and the model's own counters. -/
def losePower (d : Dev) : Dev :=
  { Dev.reset with nextId := d.nextId, free := d.free, now := d.now, flash := d.flash, fuses := d.fuses }

/-- POWER-ON: the whole module, Sorrel included (Table 16.3); COUNT starts at 0. -/
def powerOnReset (d : Dev) (trig : Nat) : Dev :=
  regPut (losePower d) aResetCause (BitVec.ofNat 64 (trig * 2 ^ 56))

/-- Remove every rail but VAON with what stands on the dies and in memory; READY falls, and no step is in
progress (14 R430, 13 R402). -/
def removePower (d : Dev) : Dev :=
  let d := clocksOff (railsOff (clearDies d))
  regSet (regSet (regSet d aSecBoot 63 1 0) aSecBoot 0 48 0) aSecBoot 48 4 0

/-- A power-down (14 R430). -/
def powerDown (d : Dev) : Dev :=
  let d := removePower d
  event { d with sor := { d.sor with down := true, orderly := false } } (src 7 0) 0x0111 0 0 0 0

/-! ## Tasks at a reset (R483) -/

/-- End a task as under ABORT_TASK without a fault record; its release follows as R66 gives. -/
def abortTask (d : Dev) (n : Nat) (pos : Bool) : Dev :=
  let c := getCore d n
  match getTask c pos with
  | none => d
  | some t => putCore d n (settle (putTask (mapTaskGroups c pos endGroupThreads) pos (some { t with aborted := true })) pos)

/-- The item of a resident task ends with ERR_ABORT. -/
def abortItemOf (d : Dev) (n : Nat) (pos : Bool) : Dev :=
  match getTask (getCore d n) pos with
  | none => d
  | some t => match getItem d t.queue t.item with
    | none => d
    | some w => putItem d t.queue (abortItem w n)

/-! ## Cores and clusters (R488) -/

/-- The reset of one core: its tasks end or move as for a fenced core, its sent writes and atomics stand, and
its state and registers take reset values. `out` holds the cores in scope. -/
def resetCore (out : List Nat) (d : Dev) (n : Nat) : Dev :=
  let d := endTask (endTask d n false out) n true out
  let keep (r : Req) : Bool := [.crossing, .moving, .missed].contains r.st
  let stand := (d.reqs.filter fun r => r.core != n || keep r).map fun r =>
    if r.core = n then { r with ret := false } else r
  let fencing := (getCore d n).fencing
  let d := moveWaiting d n out
  let d := { clearCore d n with reqs := stand }
  regsReset (putCore d n { getCore d n with fencing := fencing }) (ccw n) (ccw n + 0x100000)

/-- Enter the fence list of 64 (15 R464). -/
def listFence (d : Dev) (n : Nat) : Dev :=
  if 64 ≤ d.flash.fences.length ∨ d.flash.fences.contains n then d
  else { d with flash := { d.flash with fences := d.flash.fences ++ [n] } }

/-- A core that fails its known-answer programs is fenced and listed (R478). -/
def katFence (d : Dev) (n : Nat) : Dev :=
  if coreFenced d n then d
  else
    let d := event (markFenced (listFence d n) n) (src 0 n) 0x0602 n 0 0 0
    clusterOffIfEmpty (clearCore d n) (n / 32)

/-- Reset cores and run their known-answer programs, of which `failed` fail; fenced cores stay as they
are. -/
def resetCores (d : Dev) (ns failed : List Nat) : Dev :=
  let ns := ns.filter fun n => !coreFenced d n
  let d := ns.foldl (resetCore ns) d
  (ns.filter fun n => failed.contains n).foldl katFence d

/-- A cluster after its reset: PLL restarted, rail at the envelope's setpoint, AWAKE; an OFF cluster stays
OFF. -/
def restartCluster (d : Dev) (c : Nat) : Dev :=
  let k := getCluster d c
  if k.st = .off then d
  else
    putCluster (regSet (railSet d c (setpointOf c (envNow d))) (aSorCluster c) 54 1 0) c
      { k with st := .awake, sleepReq := false, wakeReq := false, droop := none }

/-! ## A cache half (R487, Table 8.5) -/

/-- A resource or receiving port lies in a half (10 Table 10.4). -/
def placeIn (h p : Nat) : Bool :=
  (decide (p / 2 ^ 28 = 1) || decide (p / 2 ^ 28 = 5)) && decide (p / 2 ^ 16 % 2 ^ 12 / 1024 = h)

/-- The state of a half is lost and its registers take reset values, READY among them. -/
def clearHalf (d : Dev) (h : Nat) : Dev :=
  let mine := d.miss.filter fun m => decide (m.half = h)
  let d := mine.foldl (fun d m => abortMiss d m.id) d
  let d := (d.net.pkts.filter fun p => placeIn h p.place || p.route.any (placeIn h)).foldl abortPacket d
  let inHalf (s : Nat) : Bool := decide (s / 1024 = h)
  let d := { d with
    net := { d.net with ports := d.net.ports.filter fun e => !placeIn h e.1 },
    slices := d.slices.filter fun e => !inHalf e.1,
    thrash := d.thrash.filter fun e => e.1 / 8 != h,
    deadEv := d.deadEv.filter fun e => e.1 != h,
    banks := d.banks.filter fun e => !inHalf (e.1 / 32),
    errs := d.errs.filter fun e => !((decide (e.mem = 0x0A) || decide (e.mem = 0x0B)) && inHalf e.unit) }
  regsReset d (cdcw h) (cdcw h + 0x100000)

/-! ## The base die (R484, Table 16.4) -/

/-- The misses of both halves stand in their miss table slots again: what had left for the base die and its
controllers returns (Table 16.5). -/
def returnMisses (d : Dev) : Dev :=
  { d with
    miss := d.miss.map fun m => { m with sent := false, cmd := false },
    net := { d.net with pkts := d.net.pkts.filter fun p => decide (p.kind ≠ .miss),
                        ports := d.net.ports.filter fun e => decide (e.1 / 2 ^ 28 ≠ 4) } }

/-- The base die's logic is reset, except what Table 16.4 keeps: page map, PGM_ registers, a shootdown under
way (09 R272), module, queue and route tables. -/
def clearBase (d : Dev) : Dev :=
  let old := d
  let d := returnMisses (keepRegs d keptBase)
  portsDown old { d with
    btc := [], chk := [], budget := [], lov := [], hpt := resetHpt, cvus := [],
    funnel := clearFunnel d.funnel,
    errs := d.errs.filter fun e => e.mem != 0x0F,
    fab := { resetFab with routes := d.fab.routes },
    disp := { resetDisp with
      modules := d.disp.modules, queues := d.disp.queues.map fun e => (e.1, e.2.map (orphanItems fun _ => true)) },
    clusters := d.clusters.map fun e =>
      (e.1, { e.2 with ups := [], nextSeq := 0, noAck := 0, line := [], acks := [] }) }

/-! ## Order of resets (R481) -/

/-- Whether a reset's scope lies within that of another: everything within power-on, module and device warm
resets in that order, and a core within base, half and cluster resets. -/
def within (k i k' i' : Nat) : Bool :=
  if k' ≤ 2 then decide (k' ≤ k)
  else if k = 6 then
    decide (k' = 3) || (decide (k' = 4) && decide (i / 1024 = i')) || (decide (k' = 5) && decide (i / 32 = i')) ||
      (decide (k' = 6) && decide (i = i'))
  else decide (k = k') && decide (i = i')

/-- The resets that run: a base reset, and each half that is not READY again. -/
def runningResets (d : Dev) : List (Nat × Nat) :=
  (if d.boot.quiesce || d.boot.base then [(3, 0)] else []) ++
    (if isReady d then ([0, 1].filter fun h => !halfReady d h).map fun h => (4, h) else [])

/-- Ask for a base, half, cluster or core reset: absorbed when its scope lies within that of a running reset
or of one that waits; otherwise it waits for its turn. -/
def askReset (d : Dev) (kind index trig : Nat) : Dev :=
  let l := runningResets d ++ d.boot.queued.map fun e => (e.1, e.2.1)
  if l.any fun r => within kind index r.1 r.2 then d
  else { d with boot := { d.boot with queued := d.boot.queued ++ [(kind, index, trig)] } }

/-- Take a reset whose turn it is: it waits, no base or half reset runs, and none of them waits before it.
What waits within its scope is absorbed. -/
def takeReset (d : Dev) (kind index trig : Nat) : Option Dev :=
  let q := d.boot.queued
  let ahead := q.takeWhile fun e => e != (kind, index, trig)
  if q.contains (kind, index, trig) && decide (runningResets d = []) && decide (ahead = []) then
    some { d with boot := { d.boot with
      queued := q.filter fun e => !within e.1 e.2.1 kind index } }
  else none

end Sys2Proof.Machine
end

