-- ==== Sys2Proof/Machine/Sorrel.lean ====
section
/-! DEFINITION. Sorrel: sources, sensors, Chervil, the built-in protections, the rule table, throttle levels,
bond wear, compensation and envelope switches (14 R425 to R444; 01 R35 to R39). -/

namespace Sys2Proof.Machine

def setSor (d : Dev) (s : Sorrel) : Dev := { d with sor := s }

/-! ## Places (R426, R437, R438) -/

/-- Clusters of one half whose footprints are neighbours (R426). -/
def edgeAdjacent (a b : Nat) : Bool :=
  let q := a % 32
  let p := b % 32
  decide (a / 32 = b / 32) &&
    ((decide (q / 4 = p / 4) && (decide (q % 4 + 1 = p % 4) || decide (p % 4 + 1 = q % 4))) ||
     (decide (q % 4 = p % 4) && (decide (q / 4 + 1 = p / 4) || decide (p / 4 + 1 = q / 4))))

/-- Whether cluster `c` lies in the neighbourhood of source `v` (Table 14.1). -/
def sourceCovers (v c : Nat) : Bool :=
  if v < 64 then decide (c = v)
  else if 72 ≤ v ∧ v < 136 then decide (c = v - 72)
  else if 144 ≤ v ∧ v < 208 then decide (c = v - 144)
  else if 208 ≤ v ∧ v < 224 then decide (c / 4 = v - 208)
  else true

def sensorCount : Nat := 2224
/-- The junction limit of a sensor's die, in 1/16 °C (Table 14.6). -/
def limitOf (j : Nat) : Int := if j < 2048 then 1680 else if j < 2176 then 1520 else 1600

/-- Whether cluster `c` lies in the neighbourhood of sensor `j` (R438). -/
def sensorCovers (j c : Nat) : Bool :=
  if j < 2048 then decide (c = j / 32)
  else if j < 2176 then decide (c = (j - 2048) / 2) || edgeAdjacent ((j - 2048) / 2) c
  else true

/-- The neighbours of a sensor (R438). -/
def neighboursOf (j : Nat) : List Nat :=
  if j < 2048 then ((List.range 32).map fun i => j / 32 * 32 + i).filter fun i => i != j
  else if j < 2176 then
    ((List.range 128).map (2048 + ·)).filter fun i => i != j && sensorCovers j ((i - 2048) / 2)
  else ((List.range 48).map (2176 + ·)).filter fun i => i != j

/-! ## Lists of numbers -/

/-- The median of a list, the lower middle of an even number of values. -/
def medianOf (l : List Int) : Int := (sortBy (fun a b => decide (a ≤ b)) l).getD ((l.length - 1) / 2) 0
def maxOf (dv : Int) (l : List Int) : Int := match l with
  | [] => dv
  | x :: xs => xs.foldl max x
def minOf (dv : Int) (l : List Int) : Int := match l with
  | [] => dv
  | x :: xs => xs.foldl min x
/-- The mean, rounded down. -/
def meanOf (l : List Int) : Int := l.foldl (· + ·) 0 / (max 1 l.length : Nat)

/-! ## Values of sensors (R440, R441) -/

def getSensor (d : Dev) (j : Nat) : Sensor := mapGet freshSensor d.sor.sensors j
def putSensor (d : Dev) (j : Nat) (s : Sensor) : Dev :=
  setSor d { d.sor with sensors := mapPut freshSensor d.sor.sensors j s }
def isMasked (d : Dev) (j : Nat) : Bool := d.fuses.masked.contains j
def isBroken (s : Sensor) : Bool := s.kind != 0 || s.found != 0

/-- The sensors of a period as a function; a masked sensor's value is the highest of its neighbours that are
not masked. -/
def unmaskedValue (j : Nat) (s : Sensor) : Int := if isBroken s then limitOf j else s.raw
def valueWith (masked : Nat → Bool) (get : Nat → Sensor) (j : Nat) : Int :=
  if masked j then
    maxOf (get j).raw (((neighboursOf j).filter fun i => !masked i).map fun i => unmaskedValue i (get i))
  else unmaskedValue j (get j)

/-- VALUE of sensor `j` (Table 14.20). -/
def sensorValue (d : Dev) (j : Nat) : Int := valueWith (isMasked d) (getSensor d) j

/-! ## SOR_THERMAL_CFG (Table 14.12) -/

def rateWarn (d : Dev) : Int := (min 100 (max 5 (regField d aThermalCfg 56 8)) : Nat)
def rateAct (d : Dev) : Int := (min 200 (max 10 (regField d aThermalCfg 48 8)) : Nat)
/-- IMPL_DELTA in 1/16 °C. -/
def implDelta (d : Dev) : Int := (8 * min 24 (max 6 (regField d aThermalCfg 40 8)) : Nat)
def implMs (d : Dev) : Nat := max 1 (regField d aThermalCfg 32 8)
/-- NEIGH_DELTA in 1/16 °C. -/
def neighDelta (d : Dev) : Int := (16 * min 40 (max 10 (regField d aThermalCfg 24 8)) : Nat)

/-! ## The broken-sensor rule (Table 14.7) -/

/-- What a converter gives for a sensor this period; one that is not listed reads as before. -/
def readingFor (p : Sample) (s : Sensor) (j : Nat) : Reading :=
  match p.temps.find? fun e => decide (e.1 = j) with
  | some e => e.2
  | none => .value s.raw

/-- KIND 1, 2 and 4, from the reading alone. -/
def ownKind (r : Reading) : Nat :=
  match r with
  | .openDiode => 1
  | .shortDiode => 2
  | .value v => if v < -640 ∨ 2400 < v then 4 else 0

/-- Whether the rule judges a sensor in a period: not one that is masked or broken already. -/
def judged (masked : Bool) (s : Sensor) : Bool := !masked && !isBroken s

/-- First part of a period: the reading. -/
def takeReading (masked : Bool) (r : Reading) (s : Sensor) : Sensor :=
  let raw := match r with
    | .value v => v
    | _ => s.raw
  { s with raw := raw, same := if raw = s.raw then s.same + 1 else 0,
           found := if judged masked s then ownKind r else s.found }

/-- Second part: the median of five, and KIND 3 and 5 against the neighbours' median. A gap has lasted IMPL_MS when
the period IMPL_MS after the first that exceeds the limit exceeds it too (Table 14.8). -/
def judgeNeighbours (d : Dev) (masked : Bool) (nb : Int) (s : Sensor) : Sensor :=
  let hist := (s.raw :: s.hist).take 5
  let gap := medianOf hist - nb
  let nbAt := if s.same = 0 then nb else s.nbAt
  let cnt := if neighDelta d < gap ∨ neighDelta d < -gap then s.nbCnt + 1 else 0
  let stuck := decide (1000 ≤ s.same) && (decide (32 < nb - nbAt) || decide (32 < nbAt - nb))
  { s with hist := hist, nbAt := nbAt, nbCnt := cnt,
           found := if !judged masked s then s.found else if stuck then 3 else if implMs d < cnt then 5 else 0 }

/-- Third part: KIND 6 against Chervil's estimate (R443, Table 14.8). -/
def judgeEstimate (d : Dev) (masked : Bool) (gap : Rat) (s : Sensor) : Sensor :=
  let cnt := if (implDelta d : Rat) < gap then s.estCnt + 1 else 0
  { s with estCnt := cnt, found := if judged masked s && decide (implMs d < cnt) then 6 else s.found }

/-! ## Built-in protections (Table 14.6) -/

/-- The events of a sensor in a period, with their value. -/
abbrev SensorEvents := List (Nat × Int)

/-- The limit hold and the trip count for value `m` of a sensor with limit `lim`. -/
def protectLimit (broken : Bool) (lim m : Int) (s : Sensor) : Sensor × SensorEvents :=
  let trip := if !broken && decide (lim + 160 ≤ m) then s.trip + 1 else 0
  if lim ≤ m then ({ s with limit := true, limCnt := 0, trip := trip }, if s.limit then [] else [(0x0102, m)])
  else ({ s with limCnt := if s.limit && decide (m ≤ lim - 80) then s.limCnt + 1 else 0, trip := trip }, [])

/-- The rate of a working sensor over 4 ms, as ten times its difference in 1/16 °C: against 64 times a rate in
0.1 °C/ms. -/
def protectRate (d : Dev) (m : Int) (s : Sensor) : Sensor × SensorEvents :=
  let meds := (m :: s.meds).take 5
  let gapMs := s.warnGap - 1
  match meds[4]? with
  | none => ({ s with meds := meds, warnGap := gapMs }, [])
  | some old =>
    let r := 10 * (m - old)
    let warn := decide (64 * rateWarn d < r) && decide (gapMs = 0)
    let act := decide (64 * rateAct d < r)
    ({ s with meds := meds, warnGap := if warn then 1000 else gapMs, rate := s.rate || act,
              rateCnt := if s.rate && !act && decide (r < 64 * rateWarn d) then s.rateCnt + 1 else 0 },
     (if warn then [(0x0104, r / 64)] else []) ++ if act && !s.rate then [(0x0105, r / 64)] else [])

/-- The protections of one sensor (R439): a working sensor by its median, a broken one by its substituted
value, a masked one by its value; the rate only for a working sensor. -/
def protect (d : Dev) (masked : Bool) (j : Nat) (value : Int) (s : Sensor) : Sensor × SensorEvents :=
  let broken := isBroken s
  let m := if broken || masked then value else medianOf s.hist
  let (s, a) := protectLimit broken (limitOf j) m s
  if broken || masked then ({ s with rate := false, rateCnt := 0, meds := [], warnGap := s.warnGap - 1 }, a)
  else
    let (s, b) := protectRate d m s
    (s, a ++ b)

/-! ## Chervil (R442) -/

/-- The power of some rails in W: the sense-point voltage in mV by the current in 0.1 A of PWR_RAIL_r. -/
def railWatts (d : Dev) (rs : List Nat) : Rat :=
  ((rs.map fun r => regField d (aRail r) 16 16 * regField d (aRail r) 0 16).sum : Nat) / 10000

/-- What Chervil's filter works towards for cache sensor `k`, in 1/16 °C: the larger of the heat that flows up from
both lower dies and of the base die's own (R442). VCA and VCP are rails 64 and 65, VBS, VPHY and VOPT 66 to 68. -/
def estTarget (d : Dev) (accesses : D64) (value : Nat → Int) (k : Nat) : Rat :=
  let tc : Rat := (((List.range 16).map fun i => value (16 * k + i)).foldl (· + ·) 0 : Int) / 16
  let tb : Rat := value (2176 + (Config.nearestBase k).val)
  let pm := railWatts d [64, 65] * Config.accessShare k accesses
  let pb := railWatts d [66, 67, 68] * Config.baseShare k
  max (tc + 16 * Config.theta k * (pm + pb)) (tb - 16 * Config.phi k * pb)

/-- The estimates of the 128 cache sensors at the end of a period: the filter of R427's form with the fused weight
of a period, from the first target on (log 20). -/
def newEstimates (d : Dev) (accesses : D64) (value : Nat → Int) : List Rat :=
  (List.range 128).map fun k =>
    let x := estTarget d accesses value k
    match d.sor.est[k]? with
    | some e => e + (x - e) * Config.chervilWeight
    | none => x

/-- Chervil's compute, cache and base estimates of a cluster. The cache estimate is the higher of its two
sensors' estimates. -/
def computeEst (d : Dev) (value : Nat → Int) (c : Nat) : Int :=
  maxOf 0 ((List.range 32).map fun i => value (32 * c + i)) + Config.selfHeat c (regField d (aRail c) 0 16)
def cacheEst (est : List Rat) (c : Nat) : Int := (max (est.getD (2 * c) 0) (est.getD (2 * c + 1) 0)).floor
def baseEst (value : Nat → Int) (c : Nat) : Int := value (2176 + (Config.nearestBaseCluster c).val)

/-- SOR_CHERVIL_c: the estimates and the larger gap of R443. -/
def chervilWord (d : Dev) (est : List Rat) (value : Nat → Int) (c : Nat) : D64 :=
  let gap (k : Nat) : Rat := est.getD k 0 - value (2048 + k)
  let f (x : Int) : Nat := wrap 16 x
  BitVec.ofNat 64 (f (computeEst d value c) * 2 ^ 48 + f (cacheEst est c) * 2 ^ 32 + f (baseEst value c) * 2 ^ 16 +
    f (max (gap (2 * c)) (gap (2 * c + 1))).floor)

/-! ## Sources (Table 14.1) -/

/-- Module input power in mW: the product of P54's voltage and current (13 R409). -/
def inputMw (p : Sample) : Nat := p.p54Mv * p.p54Ma / 1000

/-- The value of source `v` in a period. -/
def sourceValue (d : Dev) (p : Sample) (est : List Rat) (value : Nat → Int) (v : Nat) : Int :=
  let top (base n : Nat) : Int := maxOf 0 ((List.range n).map fun i => value (base + i))
  let tops (f : Nat → Int) : Int := maxOf 0 ((List.range 64).map f)
  if v < 72 then (regField d (aRail v) 0 16 : Nat)
  else if v < 144 then (regField d (aRail (v - 72)) 16 16 : Nat)
  else if v < 208 then top (32 * (v - 144)) 32
  else if v < 224 then top (2048 + 8 * (v - 208)) 8
  else if v < 232 then top (2176 + 6 * (v - 224)) 6
  else match v with
    | 232 => p.coolant
    | 233 => (p.p54Mv / 10 : Nat)
    | 234 => (inputMw p / 1000 : Nat)
    | 235 => (p.p12Mv : Nat)
    | 236 => (d.sor.leak : Nat)
    | 247 => ((getHost d 0).wakes : Nat)
    | 248 => ((getHost d 1).wakes : Nat)
    | 249 => tops (computeEst d value)
    | 250 => tops (cacheEst est)
    | 251 => tops (baseEst value)
    | 252 => top 0 2048
    | 253 => top 2048 128
    | 254 => top 2176 48
    | v => if v < 247 then p.optical.getD (v - 237) 0 else 0

/-! ## Rules (R427 to R431) -/

def ruleLo (d : Dev) (i : Nat) : D64 := regGet d (aRuleLo i)
def ruleHi (d : Dev) (i : Nat) : D64 := regGet d (aRuleHi i)
def ruAction (hi : D64) : Nat := bits hi 44 4
def ruArg (hi : D64) : Nat := bits hi 32 8
def ruSource (lo : D64) : Nat := bits lo 55 8
def ruSpan (lo : D64) : Nat := bits lo 48 7
def ruTest (lo : D64) : Nat := bits lo 39 3

/-- An action defines an ARG (Table 14.2). -/
def argDefined (action arg : Nat) : Bool :=
  match action with
  | 1 => decide (1 ≤ arg) && decide (arg ≤ 7)
  | 2 => decide (arg < 64) || decide (arg = 0xFE) || decide (arg = 0xFF)
  | 3 => decide (arg ≤ 1)
  | _ => decide (arg = 0)

/-- A bad rule (R429, Tables 14.17 and 14.18). -/
def ruleBad (lo hi : D64) : Bool :=
  decide (4 < ruAction hi) || !argDefined (ruAction hi) (ruArg hi) || decide (63 < ruSpan lo) ||
    decide (255 ≤ ruSource lo + ruSpan lo) || decide (5 < ruTest lo) || decide (1 < bits hi 42 2) ||
    (bit lo 35 && (decide (ruSource lo ≠ 234) || decide (ruSpan lo ≠ 0)))

/-- A rule is evaluated: EN 1 and not bad. -/
def ruleLive (d : Dev) (i : Nat) : Bool := bit (ruleLo d i) 63 && !ruleBad (ruleLo d i) (ruleHi d i)

def getEl (d : Dev) (i e : Nat) : RuleEl := mapGet freshEl d.sor.els (64 * i + e)
def putEl (d : Dev) (i e : Nat) (x : RuleEl) : Dev :=
  setSor d { d.sor with els := mapPut freshEl d.sor.els (64 * i + e) x }

/-- The filtered value, and the element with its filter's state (R427). -/
def filterValue (lo : D64) (el : RuleEl) (x : Int) : Rat × RuleEl :=
  let f := bits lo 42 4
  match bits lo 46 2 with
  | 0 => (x, el)
  | 1 =>
    let y := match el.y with
      | none => (x : Rat)
      | some y => y + ((x : Rat) - y) / (2 ^ min 8 (max 1 f) : Nat)
    (y, { el with y := some y })
  | 2 =>
    let w := (x :: el.win).take 5
    (medianOf w, { el with win := w })
  | _ =>
    let w := (x :: el.win).take (2 ^ min 6 (max 1 f))
    (if ruTest lo = 1 ∨ ruTest lo = 3 then minOf 0 w else maxOf 0 w, { el with win := w })

/-- Threshold and hysteresis in force (R428): with ENVP thousandths of the input-power limit in 32-bit
arithmetic. -/
def scaled (d : Dev) (envp : Bool) (x : Int) : Int :=
  if envp then Int.tdiv (signed 32 (wrap 32 (x * (regField d aEnv 16 16 : Nat)))) 1000 else x
def thresh (d : Dev) (lo : D64) : Int := scaled d (bit lo 35) (signed 20 (bits lo 12 20))
def hyst (d : Dev) (lo : D64) : Int := scaled d (bit lo 35) (bits lo 0 12 : Nat)

/-- Whether z hits the test, and whether it releases it (R428). -/
def ruleTests (test : Nat) (z : Rat) (t h : Int) : Bool × Bool :=
  let t' : Rat := t
  let r : Rat := (t - h : Int)
  match test with
  | 0 => (decide (t' < z), decide (z ≤ r))
  | 1 => (decide (z < t'), decide (((t + h : Int) : Rat) ≤ z))
  | 2 => (decide (t' < z), decide (z ≤ r))
  | 3 => (decide (t' < -z), decide (-z ≤ r))
  | 4 => (decide (z = t'), decide (z ≠ t'))
  | _ => (decide (z ≠ t'), decide (z = t'))

/-- One element of one rule in one period (R428). An element whose hold count is reached is `due`: RULE_FIRE or
RULE_RELEASE acts on it. RISE and FALL have no rate before 2^RWIN periods have passed. -/
def evalEl (d : Dev) (lo hi : D64) (el : RuleEl) (x : Int) : RuleEl :=
  let (y, el) := filterValue lo el x
  let w := 2 ^ bits lo 36 2
  let rate := decide (ruTest lo = 2) || decide (ruTest lo = 3)
  let z? := if rate then (el.past[w - 1]?).map fun o => (y - o) / (w : Nat) else some y
  let el := { el with past := if rate then (y :: el.past).take 8 else el.past }
  match z? with
  | none => { el with cnt := 0 }
  | some z =>
    let (hit, rel) := ruleTests (ruTest lo) z (thresh d lo) (hyst d lo)
    let cnt := if (if el.fired then rel else hit) then el.cnt + 1 else 0
    { el with z := z, cnt := cnt, due := decide (max 1 (bits hi 48 16) ≤ cnt) }

/-- Evaluate every live rule (R428). -/
def evalRules (d : Dev) : Dev :=
  (List.range 64).foldl (fun d i =>
    if ruleLive d i then
      (List.range (ruSpan (ruleLo d i) + 1)).foldl (fun d e =>
        putEl d i e (evalEl d (ruleLo d i) (ruleHi d i) (getEl d i e) (srcVal d (ruSource (ruleLo d i) + e)))) d
    else d) d

/-! ## Throttle levels (R432, R433) -/

/-- The highest level of the built-in protections on a cluster (R439). -/
def builtinLevel (d : Dev) (c : Nat) : Nat :=
  d.sor.sensors.foldl (fun m e =>
    if sensorCovers e.1 c then max m (if e.2.limit then 6 else if e.2.rate then 4 else 0) else m) 0

/-- Whether a fired element of a THROTTLE rule holds a level on cluster `c`. -/
def ruleHolds (d : Dev) (i c : Nat) : Bool :=
  let lo := ruleLo d i
  let hi := ruleHi d i
  decide (ruAction hi = 1) && (List.range (min 64 (ruSpan lo + 1))).any fun e =>
    (getEl d i e).fired && (decide (bits hi 42 2 = 0) || sourceCovers (ruSource lo + e) c)

/-- The highest level of the fired rules on a cluster, and the lowest-numbered rule that holds it
(Table 14.16). -/
def rulesLevel (d : Dev) (c : Nat) : Nat × Nat :=
  ((List.range 64).filter fun i => ruleHolds d i c).foldl (fun s i =>
    if s.1 < ruArg (ruleHi d i) then (ruArg (ruleHi d i), i) else s) (0, 0)

/-- Put the levels of one cluster in force; EV_THROTTLE when the level changes, at most once per 100 ms. -/
def updateLevel (d : Dev) (c : Nat) : Dev :=
  let b := builtinLevel d c
  let r := rulesLevel d c
  let old := levelOf d c
  let new := max b r.1
  let d := regSet (regSet (regSet (regSet d (aSorCluster c) 61 3 new) (aSorCluster c) 58 3 b)
    (aSorCluster c) 55 3 r.1) (aSorCluster c) 0 6 r.2
  if old ≠ new ∧ mapGet 0 d.sor.levels c = 0 then
    event (setSor d { d.sor with levels := mapPut 0 d.sor.levels c 100 }) (src 7 0) 0x0108 c new 0 0
  else d

def updateLevels (d : Dev) : Dev := (List.range 64).foldl updateLevel d

/-! ## The sample period (R425) -/

/-- Events that a period has decided and that have not been taken. -/
def nothingDue (d : Dev) : Bool :=
  d.sor.els.all (fun e => !e.2.due) &&
    d.sor.sensors.all fun e => decide (e.2.found = 0) && decide (e.2.limCnt < 100) && decide (e.2.trip < 3) &&
      decide (e.2.rateCnt < 100)

/-- The sensors after a period, their events, and Chervil's estimates. -/
def sampleSensors (d : Dev) (p : Sample) (accesses : D64) : SMap Sensor × List (Nat × Nat × Int) × List Rat :=
  let js := List.range sensorCount
  let get (a : Array Sensor) (j : Nat) : Sensor := a.getD j freshSensor
  let masked := isMasked d
  let a1 := (js.map fun j => takeReading (masked j) (readingFor p (getSensor d j) j) (getSensor d j)).toArray
  let v1 := valueWith masked (get a1)
  let a2 := (js.map fun j =>
    judgeNeighbours d (masked j) (medianOf ((neighboursOf j).map v1)) (get a1 j)).toArray
  let v2 := valueWith masked (get a2)
  let est := newEstimates d accesses v2
  let a3 := (js.map fun j =>
    if 2048 ≤ j ∧ j < 2176 then judgeEstimate d (masked j) (est.getD (j - 2048) 0 - v2 j) (get a2 j)
    else get a2 j).toArray
  let v3 := valueWith masked (get a3)
  let r := js.map fun j => (j, protect d (masked j) j (v3 j) (get a3 j))
  ((r.filter fun e => e.2.1 ≠ freshSensor).map fun e => (e.1, e.2.1),
    r.flatMap fun e => e.2.2.map fun x => (x.1, e.1, x.2), est)

/-- The input registers of Table 13.12. -/
def putInputs (d : Dev) (p : Sample) : Dev :=
  regPut d aPwrInput (BitVec.ofNat 64 (inputMw p % 2 ^ 32 * 2 ^ 32 + p.p54Mv / 10 % 2 ^ 16 * 2 ^ 16 + p.p12Mv % 2 ^ 16))

/-- One millisecond less until the next EV_THROTTLE of a cluster, and until the next merged record (15
R452). -/
def countGaps (d : Dev) : Dev :=
  let lv := d.sor.levels.filterMap fun e => if e.2 ≤ 1 then none else some (e.1, e.2 - 1)
  let ce := d.funnel.ce.filterMap fun e => if e.2.1 ≤ 1 ∧ e.2.2 = 0 then none else some (e.1, (e.2.1 - 1, e.2.2))
  { d with sor := { d.sor with levels := lv }, funnel := { d.funnel with ce := ce } }

/-- The droop episodes that ended in the period: EV_SUPPLY_WARN, EPISODES and MIN_MV (R446). -/
def logDroops (d : Dev) : Dev :=
  d.sor.warns.foldl (fun d w =>
    let d := regSat (regSet d (aSorCluster w.1) 32 16 w.2.1) (aSorCluster w.1) 16 16 1
    event d (src 7 0) 0x0201 w.1 w.2.1 w.2.2 0) (setSor d { d.sor with warns := [] })

/-- SORREL_SAMPLE: a sample period ends (R425): new values of every source, the broken-sensor rule and
Chervil, the built-in protections and every rule. -/
def sorrelSample (p : Sample) (d : Dev) : Option Dev :=
  if !d.sor.running || !nothingDue d then none
  else
    let (acc, d) := takeFree d
    let d := countGaps (putInputs d p)
    let (ss, evs, est) := sampleSensors d p acc
    let d := setSor d { d.sor with sensors := ss, est := est }
    let vals := ((List.range sensorCount).map (sensorValue d)).toArray
    let value (j : Nat) : Int := vals.getD j 0
    let d := (List.range 255).foldl (fun d v =>
      regPut d (aSrc v) (BitVec.ofNat 64 (wrap 20 (sourceValue d p est value v)))) d
    let d := (List.range 64).foldl (fun d c => regPut d (aChervil c) (chervilWord d est value c)) d
    let d := [0, 1].foldl (fun d q => putHost d q { getHost d q with wakes := 0 }) d
    let d := evs.foldl (fun d e => event d (src 7 0) e.1 e.2.1 (wrap 64 e.2.2) 0 0) d
    some (updateLevels (evalRules (logDroops d)))

/-! ## What a period has decided -/

/-- Wake a cluster or all of them (Table 14.2); 0xFE leaves a power-down by a module reset (R430). -/
def ruleWake (d : Dev) (arg : Nat) : Dev :=
  if arg = 0xFE then if d.sor.down then moduleReset d 5 else d
  else if arg = 0xFF then (List.range 64).foldl wakeCluster d
  else wakeCluster d arg

/-- Act on POWER_DOWN: at once, or after firmware has had 100 ms to send SESSION_END (R430). -/
def rulePowerDown (d : Dev) (arg : Nat) : Dev :=
  if d.sor.down then d
  else if arg = 0 then powerDown d
  else if d.sor.orderly then d
  else sessionEndEvents (setSor d { d.sor with orderly := true })

/-- A WAKE rule has an element that is due to fire: it acts before a POWER_DOWN of the same period, which takes
precedence (R429). -/
def wakeDue (d : Dev) : Bool :=
  d.sor.els.any fun e => e.2.due && !e.2.fired && decide (ruAction (ruleHi d (e.1 / 64)) = 2)

/-- The record of a firing: rule, element, z rounded down; ACTION ALERT marks it (R429, R448). -/
def ruleRecord (d : Dev) (i e : Nat) (z : Rat) : Dev :=
  let hi := ruleHi d i
  let code := bits hi 0 16
  let r := mkRec (src 7 0) 0 code (evSeverity code) (BitVec.ofNat 64 i) (BitVec.ofNat 64 e) (toD z.floor) 0
  if ruAction hi = 4 then post d { r with flags := r.flags ||| alertMark }
  else if bit hi 31 then post d r else d

/-- RULE_FIRE: an element's hold count is reached and its rule's action is taken (R428, R429). -/
def ruleFire (rule elem : BitVec 6) (d : Dev) : Option Dev :=
  let i := rule.toNat
  let e := elem.toNat
  let el := getEl d i e
  let a := ruAction (ruleHi d i)
  if !el.due || el.fired || (a == 3 && wakeDue d) then none
  else
    let d := putEl d i e { el with fired := true, due := false, cnt := 0 }
    let d := ruleRecord d i e el.z
    some (match a with
      | 1 => updateLevels d
      | 2 => ruleWake d (ruArg (ruleHi d i))
      | 3 => rulePowerDown d (ruArg (ruleHi d i))
      | _ => d)

/-- RULE_RELEASE: a fired element's release count is reached (R428). -/
def ruleRelease (rule elem : BitVec 6) (d : Dev) : Option Dev :=
  let el := getEl d rule.toNat elem.toNat
  if el.due && el.fired then
    some (updateLevels (putEl d rule.toNat elem.toNat { el with fired := false, due := false, cnt := 0 }))
  else none

/-- ORDERLY_POWER_DOWN_EXPIRY: the grace of 100 ms ends; Sorrel writes the bond-wear counts to flash and the
rails go (R430, 01 R38). -/
def orderlyPowerDownExpiry (d : Dev) : Option Dev :=
  if d.sor.orderly then some (powerDown { d with chk := [], flash := { d.flash with zones := d.sor.zones } }) else none

/-- THERMAL_LIMIT_RELEASE (R439, Table 14.6). -/
def thermalLimitRelease (sensor : BitVec 12) (d : Dev) : Option Dev :=
  let s := getSensor d sensor.toNat
  if s.limit && decide (100 ≤ s.limCnt) then
    some (updateLevels (putSensor d sensor.toNat { s with limit := false, limCnt := 0 }))
  else none

/-- THERMAL_TRIP: a sensor that is not broken at its limit + 10 °C for 3 periods powers the module down
(R439). -/
def thermalTrip (sensor : BitVec 12) (d : Dev) : Option Dev :=
  let s := getSensor d sensor.toNat
  if 3 ≤ s.trip ∧ !isBroken s then
    let d := putSensor d sensor.toNat { s with trip := 0 }
    let d := event d (src 7 0) 0x0103 sensor.toNat (wrap 64 (sensorValue d sensor.toNat)) 0 0
    some (if d.sor.down then d else powerDown d)
  else none

/-- RATE_ACT_RELEASE (R439, Table 14.6). -/
def rateActRelease (sensor : BitVec 12) (d : Dev) : Option Dev :=
  let s := getSensor d sensor.toNat
  if s.rate && decide (100 ≤ s.rateCnt) then
    some (updateLevels (putSensor d sensor.toNat { s with rate := false, rateCnt := 0 }))
  else none

/-- SENSOR_BROKEN: the kind a period found is recorded and logged (R440); its value is the limit since that
period. -/
def sensorBroken (sensor : BitVec 12) (kind : BitVec 3) (d : Dev) : Option Dev :=
  let s := getSensor d sensor.toNat
  if s.found ≠ 0 ∧ s.found = kind.toNat then
    some (event (putSensor d sensor.toNat { s with kind := s.found, found := 0 }) (src 7 0)
      (if s.found < 5 then 0x0106 else 0x0107) sensor.toNat s.found 0 0)
  else none

/-- SENSOR_CLEAR: a write of SOR_SENSOR_CLR; a cleared sensor is judged afresh (R441, Table 14.15). -/
def sensorClear (v : D64) (d : Dev) : Dev :=
  let j := bits v 0 12
  if bit v 12 then setSor d { d.sor with sensors := d.sor.sensors.map fun e => (e.1, clearSensor e.2) }
  else if sensorCount ≤ j then d
  else putSensor d j (clearSensor (getSensor d j))

/-- The RW bits of the two rule registers. -/
def ruleMask (hi : Bool) : D64 := if hi then 0xFFFFFCFF8000FFFF else 0xFFFFFFB8FFFFFFFF

/-- Write a rule register: the rule's filter, history, hold and fired state clear and its holds end (R431). -/
def writeRule (d : Dev) (i : Nat) (hi : Bool) (v : D64) : Dev :=
  let d := regPut d (if hi then aRuleHi i else aRuleLo i) (v &&& ruleMask hi)
  updateLevels (setSor d { d.sor with els := d.sor.els.filter fun e => e.1 / 64 != i })

/-- SOR_RULE_WRITE: EV_RULE_BAD for every write after which the rule is bad (R429, R431). -/
def sorRuleWrite (rule : BitVec 6) (hi : Bool) (v : D64) (d : Dev) : Dev :=
  let i := rule.toNat
  let d := writeRule d i hi v
  if ruleBad (ruleLo d i) (ruleHi d i) then event d (src 7 0) 0x0110 i 0 0 0 else d

/-! ## Default rules (Table 14.3) -/

/-- The two words of a rule: source, span, filter, FPARAM, test, ENVP, threshold, hysteresis; hold, action,
scope, ARG, EVENT, with LOG and EN set. -/
def mkRuleLo (source span filter fparam test envp : Nat) (thr : Int) (hys : Nat) : D64 :=
  BitVec.ofNat 64 (2 ^ 63 + source * 2 ^ 55 + span * 2 ^ 48 + filter * 2 ^ 46 + fparam * 2 ^ 42 + test * 2 ^ 39 +
    envp * 2 ^ 35 + wrap 20 thr * 2 ^ 12 + hys)
def mkRuleHi (hold action scope arg ev : Nat) : D64 :=
  BitVec.ofNat 64 (hold * 2 ^ 48 + action * 2 ^ 44 + scope * 2 ^ 42 + arg * 2 ^ 32 + 2 ^ 31 + ev)

def defaultRules : List (D64 × D64) :=
  [(mkRuleLo 234 0 1 2 0 1 1000 50, mkRuleHi 2 1 0 2 0x0109),
   (mkRuleLo 234 0 0 0 0 1 1050 50, mkRuleHi 1 1 0 4 0x0109),
   (mkRuleLo 144 63 2 0 0 0 1600 48, mkRuleHi 2 1 1 2 0x0101),
   (mkRuleLo 208 15 2 0 0 0 1440 48, mkRuleHi 2 1 1 2 0x0101),
   (mkRuleLo 224 7 2 0 0 0 1520 48, mkRuleHi 2 1 0 2 0x0101),
   (mkRuleLo 0 63 1 1 0 0 570 20, mkRuleHi 3 1 1 2 0x0109),
   (mkRuleLo 232 0 1 4 0 0 480 16, mkRuleHi 100 4 0 0 0x010B),
   (mkRuleLo 232 0 1 4 0 0 560 16, mkRuleHi 100 1 0 4 0x010B),
   (mkRuleLo 236 0 0 0 4 0 1 0, mkRuleHi 3 3 0 1 0x010C),
   (mkRuleLo 236 0 0 0 4 0 2 0, mkRuleHi 3 4 0 0 0x010C),
   (mkRuleLo 237 9 3 4 1 0 (-900) 50, mkRuleHi 100 0 0 0 0x010D),
   (mkRuleLo 247 1 0 0 0 0 0 0, mkRuleHi 1 2 0 0xFE 0x010E)]

/-- Write the default rules; the others have EN 0 (R431). -/
def writeDefaults (d : Dev) : Dev :=
  (List.range 64).foldl (fun d i =>
    let r := defaultRules.getD i (0, 0)
    regPut (regPut d (aRuleLo i) r.1) (aRuleHi i) r.2) (setSor d { d.sor with els := [] })

/-! ## Bond wear (01 R35 to R39) -/

/-- The weight of a closed cycle of range `r` in 1/16 °C, in units of 1/1,024: (ΔT / 40 °C)^2.5 where that is a whole
number of units, and otherwise rounded up or down as `Config.wearRound` says (log 20); below 5 °C nothing (R36). -/
def cycleWeight (r : Nat) : Nat :=
  let w := Nat.sqrt (1024 ^ 2 * r ^ 5 / 640 ^ 5)
  if r < 80 then 0
  else if w ^ 2 * 640 ^ 5 = 1024 ^ 2 * r ^ 5 then w
  else w + b2n (Config.wearRound r)

/-- Close the inner cycles of a residue, newest turning point first: four-point rainflow (R36). -/
def rainflow : Nat → Nat × List Int → Nat × List Int
  | 0, s => s
  | n + 1, (cnt, l) =>
    match l with
    | x3 :: x2 :: x1 :: x0 :: rest =>
      let inner := (x2 - x1).natAbs
      if inner ≤ (x1 - x0).natAbs ∧ inner ≤ (x3 - x2).natAbs then
        rainflow n (cnt + cycleWeight inner, x3 :: x0 :: rest)
      else (cnt, l)
    | _ => (cnt, l)

/-- Take one temperature of a zone: turning points with a hysteresis of 1 °C, then rainflow. The residue is
newest first. -/
def zoneSample (z : Zone) (x : Int) : Zone :=
  let turn (p : Int) : Zone :=
    let r := rainflow (z.resid.length + 1) (z.count, p :: z.resid)
    { count := r.1, resid := r.2, last := some x }
  match z.last, z.resid with
  | none, _ => { z with last := some x }
  | some l, [] => if 16 ≤ (x - l).natAbs then turn l else z
  | some l, p :: _ =>
    if p < l then if l ≤ x then { z with last := some x } else if 16 ≤ l - x then turn l else z
    else if x ≤ l then { z with last := some x } else if 16 ≤ x - l then turn l else z

def getZone (d : Dev) (z : Nat) : Zone := mapGet freshZone d.sor.zones z

/-- Chervil's estimates of a cluster as the register holds them. -/
def chervil (d : Dev) (c i : Nat) : Int := signed 16 (regField d (aChervil c) (48 - 16 * i) 16)

/-- The temperature of zone `z`: the mean of the two dies' estimates; a lower zone's is the mean over its
four clusters (R35, 14 R442). -/
def zoneTemp (d : Dev) (z : Nat) : Int :=
  if z < 64 then meanOf [chervil d z 0, chervil d z 1]
  else meanOf ((List.range 4).flatMap fun i => [chervil d (4 * (z - 64) + i) 1, chervil d (4 * (z - 64) + i) 2])

/-- A bond's register from its zones (Tables 1.6 and 1.7). DESIGN CHOICE (log 68): PERMILLE is rounded down, and of
zones with equal counts WORST_ZONE names the lowest. -/
def wearWord (d : Dev) (base n : Nat) : D64 :=
  let w := (List.range n).foldl (fun w z =>
    if (getZone d (base + w)).count < (getZone d (base + z)).count then z else w) 0
  let cnt := (getZone d (base + w)).count
  BitVec.ofNat 64 (b2n (decide (24000 * 1024 ≤ cnt)) * 2 ^ 63 + b2n (decide (30000 * 1024 ≤ cnt)) * 2 ^ 62 +
    min 1023 (cnt * 1000 / (30000 * 1024)) * 2 ^ 48 + w * 2 ^ 42 + min cnt (2 ^ 42 - 1))

/-- Update a bond's register; its events once, when the count first reaches 80 % and 100 % (R37). DESIGN CHOICE
(log 68): LOC0 of their records is 0 for the upper bond and 1 for the lower. -/
def updateWear (d : Dev) (a base n : Nat) : Dev :=
  let old := regGet d a
  let new := wearWord d base n
  let d := regPut d a new
  let d := if bit new 63 && !bit old 63 then event d (src 7 0) 0x0208 (b2n (decide (base ≠ 0))) 0 0 0 else d
  if bit new 62 && !bit old 62 then event d (src 7 0) 0x0209 (b2n (decide (base ≠ 0))) 0 0 0 else d

/-- BOND_WEAR_SAMPLE: every 10 ms each of the 80 zones is counted (R35, R36). -/
def bondWearSample (d : Dev) : Option Dev :=
  if !d.sor.running then none
  else
    let d := (List.range 80).foldl (fun d z =>
      setSor d { d.sor with zones := mapPut freshZone d.sor.zones z (zoneSample (getZone d z) (zoneTemp d z)) }) d
    some (updateWear (updateWear d aWearUp 0 64) aWearLo 64 16)

/-- BOND_WEAR_PERSIST: every 60 minutes counts and residues are written to flash (R38). -/
def bondWearPersist (d : Dev) : Option Dev :=
  if d.sor.running then some { d with flash := { d.flash with zones := d.sor.zones } } else none

/-- The temperature a reference is corrected from when TS_B(i) is the sensor nearest it: its value, or the median of
all TS_B when it is broken (R444). -/
def referenceTemp (d : Dev) (i : Nat) : Int :=
  if isBroken (getSensor d (2176 + i)) then medianOf ((List.range 48).map fun k => sensorValue d (2176 + k))
  else sensorValue d (2176 + i)

/-- COMPENSATION_UPDATE: every 10 ms the oscillators are corrected from TS_B00, and the references of the converters
and comparators from the TS_B nearest each (R444). -/
def compensationUpdate (d : Dev) : Option Dev :=
  if d.sor.running then some (setSor d { d.sor with comp := (List.range 48).map (referenceTemp d) }) else none

/-! ## Operating envelopes (R435, R436; 00 Table 0.2) -/

/-- Input-power limit in W and core clock in MHz. -/
def envLimit (e : Nat) : Nat := if e = 0 then 3600 else if e = 1 then 2600 else 1600
def envClock (e : Nat) : Nat := if e = 0 then 1900 else if e = 1 then 1600 else 1100

/-- Put an envelope in force. -/
def enterEnvelope (d : Dev) (e : Nat) : Dev :=
  regPut d aEnv (BitVec.ofNat 64 (e * 2 ^ 56 + e * 2 ^ 48 + envLimit e * 2 ^ 16 + envClock e))

/-- ENVELOPE_SWITCH: a write of SOR_ENV. TARGET is ignored while BUSY is 1, and 3 always; one that differs from
CURRENT starts a switch (R435, R436, Table 14.5). -/
def envelopeSwitch (v : D64) (d : Dev) : Dev :=
  let t := bits v 48 2
  if bit (regGet d aEnv) 63 ∨ t = 3 then d
  else
    let d := regSet d aEnv 48 2 t
    if t = envNow d then d else regSet d aEnv 63 1 1

/-- ENVELOPE_SWITCH_DONE: rails of running clusters at the new setpoint, CURRENT, LIMIT_W and CLOCK_MHZ updated
(R435, R436 item 2). -/
def envelopeSwitchDone (d : Dev) : Option Dev :=
  if bit (regGet d aEnv) 63 then
    let e := regField d aEnv 48 2
    let d := (List.range 64).foldl (fun d c =>
      match (getCluster d c).st with
      | .awake | .waking | .entering => railSet d c (setpointOf c e)
      | _ => d) (enterEnvelope d e)
    some (event d (src 7 0) 0x010A e 0 0 0)
  else none

/-! ## The commands of this family -/

/-- SORREL_SAMPLE (14 R425). -/
def execSorrelSample (p : Sample) (s : State) : Host.Outcome State Fault Refusal :=
  gated s "SORREL_SAMPLE" (sorrelSample p s.dev)
/-- RULE_FIRE (14 R428). -/
def execRuleFire (rule elem : BitVec 6) (s : State) : Host.Outcome State Fault Refusal :=
  gated s "RULE_FIRE" (ruleFire rule elem s.dev)
/-- RULE_RELEASE (14 R428). -/
def execRuleRelease (rule elem : BitVec 6) (s : State) : Host.Outcome State Fault Refusal :=
  gated s "RULE_RELEASE" (ruleRelease rule elem s.dev)
/-- ORDERLY_POWER_DOWN_EXPIRY (14 R430). -/
def execOrderlyPowerDownExpiry (s : State) : Host.Outcome State Fault Refusal :=
  gated s "ORDERLY_POWER_DOWN_EXPIRY" (orderlyPowerDownExpiry s.dev)
/-- THERMAL_LIMIT_RELEASE (14 R439). -/
def execThermalLimitRelease (sensor : BitVec 12) (s : State) : Host.Outcome State Fault Refusal :=
  gated s "THERMAL_LIMIT_RELEASE" (thermalLimitRelease sensor s.dev)
/-- THERMAL_TRIP (14 R439). -/
def execThermalTrip (sensor : BitVec 12) (s : State) : Host.Outcome State Fault Refusal :=
  gated s "THERMAL_TRIP" (thermalTrip sensor s.dev)
/-- RATE_ACT_RELEASE (14 R439). -/
def execRateActRelease (sensor : BitVec 12) (s : State) : Host.Outcome State Fault Refusal :=
  gated s "RATE_ACT_RELEASE" (rateActRelease sensor s.dev)
/-- SENSOR_BROKEN (14 R440). -/
def execSensorBroken (sensor : BitVec 12) (kind : BitVec 3) (s : State) : Host.Outcome State Fault Refusal :=
  gated s "SENSOR_BROKEN" (sensorBroken sensor kind s.dev)
/-- SENSOR_CLEAR (14 R441). -/
def execSensorClear (v : BitVec 64) (s : State) : Host.Outcome State Fault Refusal := ok s (sensorClear v s.dev)
/-- SOR_RULE_WRITE (14 R431). -/
def execSorRuleWrite (rule : BitVec 6) (hi : Bool) (v : BitVec 64) (s : State) : Host.Outcome State Fault Refusal :=
  ok s (sorRuleWrite rule hi v s.dev)
/-- BOND_WEAR_SAMPLE (01 R36). -/
def execBondWearSample (s : State) : Host.Outcome State Fault Refusal :=
  gated s "BOND_WEAR_SAMPLE" (bondWearSample s.dev)
/-- BOND_WEAR_PERSIST (01 R38). -/
def execBondWearPersist (s : State) : Host.Outcome State Fault Refusal :=
  gated s "BOND_WEAR_PERSIST" (bondWearPersist s.dev)
/-- COMPENSATION_UPDATE (14 R444). -/
def execCompensationUpdate (s : State) : Host.Outcome State Fault Refusal :=
  gated s "COMPENSATION_UPDATE" (compensationUpdate s.dev)
/-- ENVELOPE_SWITCH (14 R435). -/
def execEnvelopeSwitch (v : BitVec 64) (s : State) : Host.Outcome State Fault Refusal := ok s (envelopeSwitch v s.dev)
/-- ENVELOPE_SWITCH_DONE (14 R435). -/
def execEnvelopeSwitchDone (s : State) : Host.Outcome State Fault Refusal :=
  gated s "ENVELOPE_SWITCH_DONE" (envelopeSwitchDone s.dev)

end Sys2Proof.Machine
end

