-- ==== Sys2Proof/Machine/Power.lean ====
section
/-! DEFINITION. Module power and clocks: inputs, rails, oscillators, supply droop and reset levels (13 R402 to
R417; 14 R445 to R447). -/

namespace Sys2Proof.Machine

/-! ## Inputs (13 R402, R404) -/

/-- P54_OUT_OF_RANGE: below 42 V or above 60 V the bus converters stop: every rail but VAON goes, and Sorrel
logs EV_INPUT_RANGE with the voltage seen (R402). -/
def p54OutOfRange (mv : BitVec 16) (d : Dev) : Option Dev :=
  if d.sor.running && (decide (mv.toNat < 42000) || decide (60000 < mv.toNat)) then
    let d := if d.sor.rails then removePower d else d
    let d := setSor d { d.sor with p54Ok := false, orderly := false, stopped := d.sor.stopped || decide (bootStep d ≠ 1) }
    some (event d (src 7 0) 0x0203 mv.toNat 0 0 0)
  else none

/-- P54_RESTART: P54 has been within range for 1 s. The converters start; after a stop the module behaves as
after a module reset (R402; 16 R471, Table 16.3). -/
def p54Restart (d : Dev) : Option Dev :=
  if d.sor.running && !d.sor.p54Ok then
    let d := setSor d { d.sor with p54Ok := true }
    some (if d.sor.stopped && !d.sor.down then moduleReset d 4 else setSor d { d.sor with stopped := false })
  else none

/-- LEAK_SENSE_SAMPLE: below 100 kΩ WET, above 10 MΩ OPEN, otherwise DRY; `none` is an open loop (R404). -/
def leakSenseSample (ohms : Option Nat) (d : Dev) : Option Dev :=
  if d.sor.running then
    some (setSor d { d.sor with leak := match ohms with
      | none => 2
      | some r => if r < 100000 then 1 else if 10000000 < r then 2 else 0 })
  else none

/-! ## Rails (13 R406 to R409) -/

/-- Largest current of a rail in 0.1 A (Table 13.6). -/
def railMax (r : Nat) : Nat :=
  if r < 64 then 600 else [2000, 1500, 1200, 600, 400, 30, 2400, 160].getD (r - 64) 0

/-- RAIL_REPORT: a regulator's 1 ms report; OC_WARN above 95 % of the rail's maximum current (R409, Table
13.17). -/
def railReport (rail : BitVec 7) (mv cur : BitVec 16) (d : Dev) : Option Dev :=
  let r := rail.toNat
  if r < 72 ∧ d.sor.running then
    let d := regSet (regSet d (aRail r) 16 16 mv.toNat) (aRail r) 0 16 cur.toNat
    some (regSet d (aRail r) 61 1 (b2n (decide (95 * railMax r < 100 * cur.toNat))))
  else none

/-- SENSE_FAULT: a regulator finds its sense pair open or shorted and sets SENSE_FAULT (R408). -/
def senseFault (rail : BitVec 7) (d : Dev) : Option Dev :=
  let r := rail.toNat
  if r < 72 ∧ !bit (regGet d (aRail r)) 62 then
    some (event (regSet d (aRail r) 62 1 1) (src 7 0) 0x0204 r 0 0 0)
  else none

/-! ## Oscillators (13 R417) -/

/-- AON_CLOCK_FAIL: CLK_AON switches to the RC oscillator. -/
def aonClockFail (d : Dev) : Option Dev :=
  if d.sor.running && !bit (regGet d aClkStatus) 63 then
    some (event (regSet d aClkStatus 63 1 1) (src 7 0) 0x0206 0 0 0 0)
  else none

/-- REF_CLOCK_FAIL: every fast domain stops; Sorrel logs it and starts a module reset. -/
def refClockFail (d : Dev) : Option Dev :=
  if d.sor.running && bit (regGet d aClkStatus) 62 then
    some (event (moduleReset d 9) (src 7 0) 0x0207 0 0 0 0)
  else none

/-- Whether bring-up waits in step 1 for the reference. -/
def waitsForRef (d : Dev) : Bool := d.boot.waitRef && decide (bootStep d = 1)

/-- REF_CLOCK_RETRY_LOG: every 60 s while bring-up waits. -/
def refClockRetryLog (d : Dev) : Option Dev :=
  if waitsForRef d then some (event d (src 7 0) 0x0207 0 0 0 0) else none

/-! ## Supply droop (14 R445 to R447) -/

/-- WARN_MV and RESET_MV within their ranges (Table 14.13). -/
def warnMv (d : Dev) : Nat := min 100 (max 20 (regField d aDroopCfg 40 8))
def resetMv (d : Dev) : Nat := max (warnMv d + 40) (regField d aDroopCfg 32 8)

/-- The setpoint that the levels lie below: during a switch the lower of the old and the new (R445). -/
def droopBase (d : Dev) (r : Nat) : Nat :=
  let now := regField d (aRail r) 32 16
  if r < 64 ∧ bit (regGet d aEnv) 63 then min now (setpointOf r (regField d aEnv 48 2)) else now

/-- Whether a rail's comparator acts (R445): a cluster rail only while its cluster runs. -/
def comparatorOn (d : Dev) (r : Nat) : Bool :=
  if r < 64 then match (getCluster d r).st with
    | .awake | .waking => true
    | _ => false
  else bit (regGet d (aRail r)) 63

/-- DROOP_EPISODE_START: a rail falls below its warning level and stays above its reset level. On a cluster
rail the feed stops and the clock halves until the episode ends; on another rail EV_SUPPLY_WARN is logged and
nothing is paused (R446, R447). -/
def droopEpisodeStart (rail : BitVec 7) (mv : BitVec 16) (d : Dev) : Option Dev :=
  let r := rail.toNat
  let base := droopBase d r
  if 72 ≤ r ∨ !comparatorOn d r ∨ base ≤ mv.toNat + warnMv d ∨ mv.toNat + resetMv d < base then none
  else if r < 64 then
    let k := getCluster d r
    if k.droop.isSome then none
    else some (regSet (putCluster d r { k with droop := some mv.toNat }) (aSorCluster r) 54 1 1)
  else some (event d (src 7 0) 0x0201 r mv.toNat 0 0)

/-- DROOP_EPISODE_END: the rail has stayed above its warning level for 100 µs: clock and feed are restored. The
record and the counts follow at the next sample period's end (R446, Table 14.9). -/
def droopEpisodeEnd (cluster : BitVec 6) (minMv : BitVec 16) (us : Word) (d : Dev) : Option Dev :=
  let c := cluster.toNat
  let k := getCluster d c
  match k.droop with
  | none => none
  | some mv =>
    if us.toNat < regField d aDroopCfg 16 16 then none
    else
      let d := regSet (putCluster d c { k with droop := none }) (aSorCluster c) 54 1 0
      some (setSor d { d.sor with warns := d.sor.warns ++ [(c, min mv minMv.toNat, us.toNat)] })

/-- RESET_LEVEL_CROSSING: a rail falls below its reset level (R447, Table 14.10): a cluster reset, a device warm
reset, or for VAON a power-on reset, whose event Sorrel logs after it restarts. -/
def resetLevelCrossing (rail : BitVec 7) (d : Dev) : Option Dev :=
  let r := rail.toNat
  let supply (d : Dev) : Dev := event d (src 7 0) 0x0202 r 0 0 0
  if 72 ≤ r then none
  else if r = 69 then some (powerOnReset d 3)
  else if !comparatorOn d r then none
  else if r < 64 then some (supply (askReset d 5 r 3))
  else
    let d := supply (warmReset d 3)
    some (if 70 ≤ r then event d (src 7 0) 0x0305 0 0 0 0 else d)

/-- STANDBY_POWER_LOSS: loss of P12SB removes every rail, Sorrel's among them; counts since the last write to
flash are lost (R402, 01 R38). -/
def standbyPowerLoss (d : Dev) : Dev := losePower d

/-! ## The commands of this family -/

/-- P54_OUT_OF_RANGE (13 R402). -/
def execP54OutOfRange (mv : BitVec 16) (s : State) : Host.Outcome State Fault Refusal :=
  gated s "P54_OUT_OF_RANGE" (p54OutOfRange mv s.dev)
/-- P54_RESTART (13 R402). -/
def execP54Restart (s : State) : Host.Outcome State Fault Refusal := gated s "P54_RESTART" (p54Restart s.dev)
/-- LEAK_SENSE_SAMPLE (13 R404). -/
def execLeakSenseSample (ohms : Option Nat) (s : State) : Host.Outcome State Fault Refusal :=
  gated s "LEAK_SENSE_SAMPLE" (leakSenseSample ohms s.dev)
/-- RAIL_REPORT (13 R409). -/
def execRailReport (rail : BitVec 7) (mv cur : BitVec 16) (s : State) : Host.Outcome State Fault Refusal :=
  gated s "RAIL_REPORT" (railReport rail mv cur s.dev)
/-- SENSE_FAULT (13 R408). -/
def execSenseFault (rail : BitVec 7) (s : State) : Host.Outcome State Fault Refusal :=
  gated s "SENSE_FAULT" (senseFault rail s.dev)
/-- AON_CLOCK_FAIL (13 R417). -/
def execAonClockFail (s : State) : Host.Outcome State Fault Refusal := gated s "AON_CLOCK_FAIL" (aonClockFail s.dev)
/-- REF_CLOCK_FAIL (13 R417). -/
def execRefClockFail (s : State) : Host.Outcome State Fault Refusal := gated s "REF_CLOCK_FAIL" (refClockFail s.dev)
/-- REF_CLOCK_RETRY_LOG (13 R417). -/
def execRefClockRetryLog (s : State) : Host.Outcome State Fault Refusal :=
  gated s "REF_CLOCK_RETRY_LOG" (refClockRetryLog s.dev)
/-- DROOP_EPISODE_START (14 R446). -/
def execDroopEpisodeStart (rail : BitVec 7) (mv : BitVec 16) (s : State) : Host.Outcome State Fault Refusal :=
  gated s "DROOP_EPISODE_START" (droopEpisodeStart rail mv s.dev)
/-- DROOP_EPISODE_END (14 R446). -/
def execDroopEpisodeEnd (cluster : BitVec 6) (minMv : BitVec 16) (us : BitVec 32) (s : State) : Host.Outcome State Fault Refusal :=
  gated s "DROOP_EPISODE_END" (droopEpisodeEnd cluster minMv us s.dev)
/-- RESET_LEVEL_CROSSING (14 R447). -/
def execResetLevelCrossing (rail : BitVec 7) (s : State) : Host.Outcome State Fault Refusal :=
  gated s "RESET_LEVEL_CROSSING" (resetLevelCrossing rail s.dev)
/-- STANDBY_POWER_LOSS (13 R402). -/
def execStandbyPowerLoss (s : State) : Host.Outcome State Fault Refusal := ok s (standbyPowerLoss s.dev)

end Sys2Proof.Machine
end

