-- ==== Sys2Proof/Machine/Boot.lean ====
section
/-! DEFINITION. Bring-up and the resets as commands (16 R471 to R488). -/

namespace Sys2Proof.Machine

/-! ## Sorrel and the rails (R472) -/

/-- UPDATE_PENDING falls when the running images are the committed ones (Table 16.11). -/
def settlePending (d : Dev) : Dev :=
  if regField d aSecBoot 61 1 = commitMain d ∧ sorrelSlot d = commitSorrel d then regSet d aSecBoot 58 1 0 else d

/-- SORREL_START: Sorrel starts from its ROM with the active slot's firmware, loads the bond-wear counts and
writes the default rules; bring-up waits in step 1 (R471, R472; 14 R431, 01 R39). A supply reset of VAON is
logged now (14 Table 14.10). -/
def sorrelStart (d : Dev) : Option Dev :=
  if d.sor.running then none
  else
    let d := setSor d { resetSorrel with running := true, p54Ok := d.sor.p54Ok, smbus := d.sor.smbus,
                                         zones := d.flash.zones }
    let d := settlePending (regSet d aSecBoot 60 1 (commitSorrel d))
    let d := writeDefaults (railSet d 69 800)
    let d := regPut (regPut d aWearUp (wearWord d 0 64)) aWearLo (wearWord d 64 16)
    let d := setStep d 1
    some (if regField d aResetCause 60 4 = 0 ∧ regField d aResetCause 56 4 = 3 then
        event d (src 7 0) 0x0202 69 0 0 0 else d)

/-- The fast rails, XO_REF and the cache and base PLLs; step 1 ends (R472). -/
def railsUp (d : Dev) : Dev :=
  let d := [(64, 750), (65, 800), (66, 800), (67, 900), (68, 800), (70, 1200), (71, 1800)].foldl
    (fun d r => railSet d r.1 r.2) d
  let d := regSet (regSet d aClkStatus 59 4 15) aClkStatus 40 8 0
  setStep { d with sor := { d.sor with rails := true }, boot := { d.boot with waitRef := false } } 2

/-- BRINGUP_RAILS: step 1. Without the reference bring-up waits on standby power (R472, 13 R417). -/
def bringupRails (refOk : Bool) (d : Dev) : Option Dev :=
  if d.sor.running && d.sor.p54Ok && !d.sor.down && decide (bootStep d = 1) && !d.boot.waitRef then
    some (if refOk then railsUp d else { d with boot := { d.boot with waitRef := true } })
  else none

/-- REF_CLOCK_RESTORED: XO_REF runs again, and step 1 goes on (13 R417). -/
def refClockRestored (d : Dev) : Option Dev :=
  if waitsForRef d && d.sor.p54Ok then some (railsUp d) else none

/-! ## Firmware (R473, R489, R495) -/

def fwSlot (d : Dev) (comp s : Nat) : Slot := mapGet emptyFw d.flash.slots (2 * comp + s)
def putFwSlot (d : Dev) (comp s : Nat) (v : Slot) : Dev :=
  { d with flash := { d.flash with slots := mapPut emptyFw d.flash.slots (2 * comp + s) v } }

/-- A measurement: a SHA3-512 digest of what it covers (R495; log 9). -/
def measure (kind : Nat) (bs : List Byte) : BitVec 512 := Config.digest kind bs
def slotBytes (v : Slot) : List Byte := natBytes 8 v.version.toNat ++ natBytes 1 v.rollback

/-- The main firmware runs: its slot, the fuse counter, the measurements of the ROM and the images; step 2
ends. -/
def runFirmware (d : Dev) (main : Slot) : Dev :=
  let m := [measure 16 [], measure 17 (slotBytes main), measure 18 (slotBytes (fwSlot d 1 (sorrelSlot d))),
            measure 19 (slotBytes main)]
  let d := { d with boot := { d.boot with verified := true, measured := m, fwVersion := main.version,
                                          fwRollback := main.rollback } }
  setStep (regSet (regPut d aRollback (BitVec.ofNat 64 d.fuses.rollback)) aSecBoot 40 8 0) 3

/-- BOOT_VERIFY: step 2 boots the slot the commit word names, else the other one, else stops with REASON 1
(R473). `v` says which slots verify. A slot left partly written is logged (R492). -/
def bootVerify (v : BootVerify) (d : Dev) : Option Dev :=
  if bootStep d ≠ 2 ∨ !d.sor.rails ∨ regField d aSecBoot 40 8 ≠ 0 then none
  else
    let s := commitMain d
    let good (s : Nat) : Bool :=
      (fwSlot d 0 s).whole && bit v.pass s && decide (d.fuses.rollback ≤ (fwSlot d 0 s).rollback)
    let fail (d : Dev) : Dev := event d (src 8 0) 0x0604 0 0 0 0
    let d1 := if [(0, commitMain d), (1, commitSorrel d)].any fun c => (fwSlot d c.1 (1 - c.2)).part then fail d else d
    let slot (d : Dev) (s fb : Nat) : Dev :=
      settlePending (regSet (regSet d aSecBoot 61 1 s) aSecBoot 59 1 fb)
    some (if good s then runFirmware (slot d1 s 0) (fwSlot d 0 s)
      else if good (1 - s) then runFirmware (slot (fail d1) (1 - s) 1) (fwSlot d 0 (1 - s))
      else regSet (fail d1) aSecBoot 40 8 1)

/-- An image passes R489 (Table 16.6). -/
def imageVerified (im : ImageInfo) : Bool :=
  decide (im.magic = 0x50554B57) && decide (im.component.toNat ≤ 1) && decide (im.rollback.toNat ≤ 64) && im.reserved &&
    decide (1 ≤ im.bodyLen.toNat) && decide (im.bodyLen.toNat ≤ 33546240) && im.digestOk && im.sigOk

/-- RECOVERY_IMAGE: with bring-up stopped at step 2 the ROM takes a main firmware image over the management
link that verifies and is not rolled back; any other changes nothing (R473, R496). -/
def recoveryImage (im : ImageInfo) (d : Dev) : Option Dev :=
  if bootStep d ≠ 2 ∨ regField d aSecBoot 40 8 ≠ 1 then none
  else if imageVerified im && decide (im.component = 0) && decide (d.fuses.rollback ≤ im.rollback.toNat) then
    some (runFirmware d { whole := true, part := false, rollback := im.rollback.toNat, version := im.version })
  else some d

/-! ## Flash records (R474) -/

/-- The banks of the yield map and of the bank list leave service (R34; 09 R293). -/
def loadBanks (d : Dev) (only : Nat → Bool) : Dev :=
  ((d.fuses.banks ++ d.flash.banks).filter fun e => only e.1).foldl (fun d e => (retireBank d e.1 e.2).2) d

/-- The owner's rule table over the defaults (14 R431): 128 words, LO and HI of each rule. -/
def loadRules (d : Dev) : Dev :=
  match d.flash.rules with
  | none => d
  | some l => (List.range 64).foldl (fun d i =>
      sorRuleWrite (BitVec.ofNat 6 i) true (l.getD (2 * i + 1) 0)
        (sorRuleWrite (BitVec.ofNat 6 i) false (l.getD (2 * i) 0) d)) d

/-- What M_CONFIG and M_MAPS cover (Table 16.9). -/
def configBytes (d : Dev) : List Byte :=
  (match d.flash.owners with
    | some l => l.flatMap fun k => natBytes 64 k.toNat
    | none => []) ++
    natBytes 1 d.flash.mode ++ natBytes 1 d.flash.envelope ++
    (d.flash.ports.flatMap fun e => natBytes 8 e.1 ++ natBytes 8 e.2.toNat) ++
    match d.flash.rules with
    | some l => l.flatMap fun w => natBytes 8 w.toNat
    | none => []
def mapBytes (d : Dev) : List Byte :=
  (d.fuses.cores ++ d.flash.fences).flatMap (natBytes 2) ++ d.flash.frames.flatMap (natBytes 4) ++
    (d.fuses.banks ++ d.flash.banks).flatMap fun e => natBytes 2 e.1 ++ natBytes 1 e.2

/-- LOAD_FLASH_RECORDS: step 3 (R474). A base reset keeps the dies' banks and fences (Table 16.4). -/
def loadFlashRecords (d : Dev) : Option Dev :=
  if bootStep d ≠ 3 then none
  else
    let d := if d.boot.base then d
      else
        let d := d.fuses.cores.foldl (fun d n => regSet d (aCoreFence (n / 64)) (n % 64) 1 1) d
        loadRules (enterEnvelope (loadBanks { d with slices := [] } fun _ => true) d.flash.envelope)
    let d := regPut (regPut d aFabId d.flash.ident) aFabRole d.flash.role
    let d := d.flash.ports.foldl (fun d e => regPut d e.1 e.2) d
    let d := { d with boot := { d.boot with
      measured := d.boot.measured ++ [measure 20 (configBytes d), measure 21 (mapBytes d)] } }
    some (setStep d 4)

/-! ## Training and initialisation (R475, R476; 09 R277, R278, R284) -/

/-- The channels, and whether one has FAILED. -/
def channels : List Nat := List.range 32
def chanFailed (d : Dev) : Bool := channels.any fun c => bit (regGet d (aChan c)) 62
def initDone (d : Dev) : Bool := bit (regGet d aPgmMode) 7

/-- Outcome of the training of one channel (09 R277). -/
def trainChannel (fails : Word) (d : Dev) (c : Nat) : Dev :=
  if bit fails c then
    event (regSet (regSet d (aChan c) 63 1 0) (aChan c) 62 1 1) (src 2 c) 0x0304 c 0 0 0
  else regSet (regSet d (aChan c) 63 1 1) (aChan c) 62 1 0

/-- A core port that fails its calibration fences its core. -/
def trainCore (d : Dev) (n : Nat) : Dev := if coreFenced d n then d else markFenced (listFence d n) n

/-- A down-channel that fails is fenced in both directions (10 Tables 10.4, 10.5). -/
def trainDown (d : Dev) (n : Nat) : Dev :=
  [0, 1].foldl (fun d dir =>
    let r := 3 * 2 ^ 28 + dir * 128 + n
    if d.fencedRes.contains r then d
    else event { d with fencedRes := d.fencedRes ++ [r] } (src 9 0) 0x0402 r 0 0 0) d

/-- Fabric links begin to train (11 R320). -/
def trainLinks (d : Dev) : Dev :=
  (List.range 8).foldl (fun d p => (linkRetryTimer (BitVec.ofNat 3 p) d).getD d) d

/-- TRAINING: step 4. Every channel trains, and with the first that does memory initialisation begins in the
stored mode, with an XTS key pair generated for it where none stands (09 R283, R284); after a base reset the channels leave self-refresh and retrain without initialising, HELD clears,
and only step 8 is left (R475, Table 16.5). -/
def training (t : Training) (d : Dev) : Option Dev :=
  let open_ := d.boot.base || initDone d || !(channels.any fun c => bit (regGet d (aChan c)) 63)
  if bootStep d ≠ 4 ∨ !open_ then none
  else
    let d := channels.foldl (trainChannel t.channels) d
    let d := regSet d aClkStatus 40 8 0xFF
    if d.boot.base then
      some (setStep ([0, 1].foldl (fun d h => regSet d (aCdcStatus h) 62 1 0) d) 8)
    else
      let d := regSet (regSet d aPgmMode 4 1 d.flash.mode) aPgmMode 0 1 d.flash.mode
      let d := if d.xts.isSome then d else { d with xts := some (Config.xtsKey d.free), free := d.free + 1 }
      let d := t.cores.foldl (fun d n => trainCore d n.toNat) d
      let d := trainLinks (t.downs.foldl (fun d n => trainDown d n.toNat) d)
      some (if chanFailed d || initDone d then setStep d 5 else d)

/-- MEM_INIT_DONE: every channel has finished its initialisation; step 4 ends (09 R284, R475). -/
def memInitDone (d : Dev) : Option Dev :=
  if bootStep d = 4 ∧ !initDone d ∧ channels.all (fun c => bit (regGet d (aChan c)) 63) then
    some (setStep (regSet (regSet d aPgmMode 8 8 100) aPgmMode 7 1 1) 5)
  else none

/-- A cache bank whose checker fails is retired; where R226 forbids it the device does not become READY
(15 R458). -/
def failBank (d : Dev) (e : Nat × Nat) : Dev :=
  let d := memRecord d (src 1 e.1) 3 0x0A e.1 0 e.2 0 false
  let (done, d) := retireBank d e.1 e.2
  if done then d else { d with boot := { d.boot with selfFail := true } }

/-- Fill a half: every line invalid, no check error, READY (R476). -/
def fillHalf (t : CheckerResults) (d : Dev) (h : Nat) : Dev :=
  let inHalf (s : Nat) : Bool := decide (s / 1024 = h)
  let d := { d with
    slices := d.slices.map fun e => if inHalf e.1 then (e.1, { e.2 with sets := [], tombs := [] }) else e,
    errs := d.errs.filter fun e => !((decide (e.mem = 0x0A) || decide (e.mem = 0x0B)) && inHalf e.unit) }
  let d := ((t.banks.map fun b => (b.1.toNat, b.2.toNat)).filter fun e => inHalf e.1).foldl failBank d
  regSet d (aCdcStatus h) 63 1 1

/-- A checker of the page map or of a base die buffer fails; the record names it (15 R458). -/
def failChecker (d : Dev) (ok_ : Bool) (mem : Nat) : Dev :=
  if ok_ then d
  else memRecord { d with boot := { d.boot with selfFail := true } } (src 8 0) 3 mem 0 0 0 0 false

/-- CACHE_INIT: step 5 of bring-up for both halves, or the same step for a half that is being reset, whose
slices load the yield map and the bank list again (R476, R487 item 4). -/
def cacheInit (t : CheckerResults) (d : Dev) : Option Dev :=
  if bootStep d = 5 then
    let d := [0, 1].foldl (fillHalf t) d
    some (setStep (failChecker (failChecker d t.pageMap 0x0C) t.buffers 0x0F) 6)
  else if isReady d then
    match [0, 1].find? fun h => !halfReady d h with
    | some h => some (fillHalf t (loadBanks d fun s => decide (s / 1024 = h)) h)
    | none => none
  else none

/-! ## Runtime, known answers, READY (R477 to R479) -/

/-- RUNTIME_BROADCAST: step 6. The runtime firmware runs outside user tasks, and no register or window reads it,
so that only the step shows (R477). -/
def runtimeBroadcast (d : Dev) : Option Dev := if bootStep d = 6 then some (setStep d 7) else none

/-- Wake a cluster from OFF when it has an enabled core (R478, R421). -/
def clusterOn (d : Dev) (c : Nat) : Dev :=
  if (coresOf c).all (coreFenced d) then d
  else
    let k := getCluster d c
    putCluster (railSet d c (setpointOf c (envNow d))) c { k with st := .awake, sleepReq := false, wakeReq := false }

/-- KNOWN_ANSWER_RUNS: step 7. The listed cores are fenced, the clusters wake, and the cores whose signature
differs twice are fenced; a cluster without an enabled core goes OFF (R478, 15 R464). -/
def knownAnswerRuns (failed : List (BitVec 11)) (d : Dev) : Option Dev :=
  if bootStep d ≠ 7 then none
  else
    let d := d.flash.fences.foldl (fun d n => if coreFenced d n then d else markFenced d n) d
    let d := (List.range 64).foldl clusterOn d
    let d := failed.foldl (fun d n => katFence d n.toNat) d
    some (setStep d 8)

/-- REASON: the first condition of R479 that fails, 0 when all hold. -/
def readyReason (d : Dev) : Nat :=
  if !d.boot.verified then 1
  else if chanFailed d then 2
  else if !initDone d then 3
  else if !(halfReady d 0 && halfReady d 1) then 4
  else if d.boot.selfFail then 5
  else if enabledCount d = 0 then 6 else 0

/-- After a base reset every item that was appended and had not completed gets its record with ERR_BASE_RESET
(R485 item 3). -/
def baseRecords (d : Dev) : Dev :=
  d.disp.queues.foldl (fun d e => match e.2 with
    | none => d
    | some v => v.items.foldl (fun d w => match getQueue d e.1 with
      | some v => finishItem d e.1 v w (0x1F, 0, 0)
      | none => d) d) d

/-- READY: step 8 declares READY, or records REASON and waits for a reset (R479). BOOT_MS is a free value; the
fuse counter rises to the running image's ROLLBACK (R496). -/
def ready (d : Dev) : Option Dev :=
  if bootStep d ≠ 8 ∨ isReady d ∨ regField d aSecBoot 40 8 ≠ 0 then none
  else
    let r := readyReason d
    if r ≠ 0 then some (regSet d aSecBoot 40 8 r)
    else
      let (ms, d) := takeFree d
      let d := regSet (regSet d aSecBoot 63 1 1) aSecBoot 0 32 ms.toNat
      let d := { d with fuses := { d.fuses with rollback := max d.fuses.rollback d.boot.fwRollback } }
      some (if d.boot.base then baseRecords { d with boot := { d.boot with base := false } } else d)

/-! ## Resets (R480 to R488) -/

/-- POWER_ON_RESET: standby power is applied (trigger 8), or VAON falls below its reset level (3). -/
def powerOnReset_ (trig : BitVec 4) (d : Dev) : Option Dev :=
  if [3, 8].contains trig.toNat then some (powerOnReset d trig.toNat) else none

/-- The triggers of a module reset (Table 16.3): a powered-down module comes back only by RESET_REQ_N, a management
message or WAKE 0xFE, and the last acts on no other (14 R429, R430). -/
def moduleTriggers (d : Dev) : List Nat := if d.sor.down then [1, 2, 5] else [0, 1, 2, 4, 9]

/-- MODULE_RESET: by one of its triggers. -/
def moduleReset_ (trig : BitVec 4) (d : Dev) : Option Dev :=
  if d.sor.running && (moduleTriggers d).contains trig.toNat then some (moduleReset d trig.toNat) else none

/-- DEVICE_WARM_RESET: by one of its triggers, with the rails up (Table 16.3). -/
def deviceWarmReset (trig : BitVec 4) (d : Dev) : Option Dev :=
  if d.sor.rails && [0, 3, 6, 7, 10].contains trig.toNat then some (warmReset d trig.toNat) else none

/-- A host transfer that a base reset ends. A frame in flight does not show its address, nor a GET its length: both
are free in its record (15 Table 15.2; log 3). -/
def endHostTransfer (p : Nat) (d : Dev) (f : Frame) : Dev :=
  let (a, d) := takeFree d
  let (n, d) := takeFree d
  let len := if f.opcode = 0x10 then f.payload - 24 else n.toNat % 2 ^ 32
  answerFrame (noteTransfer d (src 5 p) 10 (2120 + p) a.toNat len f.tag.toNat) p f 0x1F f.seq

/-- What a port's requests get when a base reset begins: host transfers and inbound fabric requests that are
not performed end with BASE_RESET (Table 16.5). -/
def endTransfers (d : Dev) : Dev :=
  let d := [0, 1].foldl (fun d p =>
    let v := getHost d p
    v.xfers.foldl (endHostTransfer p) (putHost d p { v with rxbuf := [], xfers := [] })) d
  let d := setFab d { d.fab with arrived := [] }
  (List.range 8).foldl (fun d p =>
    let v := getLink d p
    (v.rxq.filter isRequest).foldl (fun d m => answerReq d p m 10 []) (putLink d p { v with rxq := [] })) d

/-- Every descriptor of the copy engines ends with BASE_RESET, and their channels halt (R485 item 1). -/
def endCopies (d : Dev) : Dev :=
  d.disp.engines.foldl (fun d e => e.2.descs.foldl (fun d _ => endHead d e.1 10) d) d

/-- BASE_RESET: a base reset begins: tasks end, misses are held, and the quiesce runs (R484). During bring-up it
restarts bring-up from step 2 at the latest (R481). -/
def baseReset (trig : BitVec 4) (d : Dev) : Option Dev :=
  (takeReset d 3 0 trig.toNat).map fun d =>
    let d := noteReset d 3 0 trig.toNat
    if !isReady d then restartAt (clearBase d) 2
    else
      let d := regSet { d with boot := { d.boot with quiesce := true } } aSecBoot 63 1 0
      let d := (d.cores.map (·.1)).foldl (fun d n => abortTask (abortTask d n false) n true) d
      let d := [0, 1].foldl (fun d h => regSet d (aCdcStatus h) 62 1 1) d
      endTransfers (endCopies d)

/-- BASE_QUIESCE_COMPLETE: the base die's logic is reset and step 2 runs (R484). -/
def baseQuiesceComplete (d : Dev) : Option Dev :=
  if d.boot.quiesce then
    some (restartAt { clearBase d with boot := { d.boot with quiesce := false, base := true, verified := false } } 2)
  else none

/-- BASE_QUIESCE_FAIL: external memory is lost, and a device warm reset follows with trigger 7 (R486). -/
def baseQuiesceFail (d : Dev) : Option Dev :=
  if d.boot.quiesce then
    some (warmReset (acceptRecord d (mkRec (src 7 0) 0 0x0305 sevCritical 0 0 0 0)) 7)
  else none

/-- HALF_RESET: the tasks of the half's clusters end with ERR_ABORT, and the half loses its state; it serves
again after CACHE_INIT (R487). -/
def halfReset (half : BitVec 1) (trig : BitVec 4) (d : Dev) : Option Dev :=
  let h := half.toNat
  (takeReset d 4 h trig.toNat).map fun d =>
    let d := noteReset d 4 h trig.toNat
    let mine := (d.cores.map (·.1)).filter fun n => decide (n / 1024 = h)
    let d := mine.foldl (fun d n =>
      abortTask (abortTask (abortItemOf (abortItemOf d n false) n true) n false) n true) d
    let d := clearHalf d h
    if isReady d then d else restartAt (loadBanks d fun s => decide (s / 1024 = h)) 5

/-- CLUSTER_RESET: the cores of a cluster are reset and run their known-answer programs, of which those of
`failed` fail (R488). Before step 7 of bring-up there is nothing to reset (R481). -/
def clusterReset (cluster : BitVec 6) (trig : BitVec 4) (failed : List (BitVec 11)) (d : Dev) : Option Dev :=
  let c := cluster.toNat
  (takeReset d 5 c trig.toNat).map fun d =>
    let d := noteReset d 5 c trig.toNat
    if bootStep d < 7 then d
    else resetCores (restartCluster d c) (coresOf c) (failed.map (·.toNat))

/-- CORE_RESET: one core is reset and runs its known-answer programs (R488). -/
def coreReset (core : BitVec 11) (trig : BitVec 4) (katFails : Bool) (d : Dev) : Option Dev :=
  let n := core.toNat
  (takeReset d 6 n trig.toNat).map fun d =>
    let d := noteReset d 6 n trig.toNat
    if bootStep d < 7 then d else resetCores d [n] (if katFails then [n] else [])

/-! ## The commands of this family -/

/-- MEM_INIT_DONE (09 R284). -/
def execMemInitDone (s : State) : Host.Outcome State Fault Refusal := gated s "MEM_INIT_DONE" (memInitDone s.dev)
/-- SORREL_START (16 R472). -/
def execSorrelStart (s : State) : Host.Outcome State Fault Refusal := gated s "SORREL_START" (sorrelStart s.dev)
/-- BRINGUP_RAILS (16 R472). -/
def execBringupRails (refOk : Bool) (s : State) : Host.Outcome State Fault Refusal :=
  gated s "BRINGUP_RAILS" (bringupRails refOk s.dev)
/-- BOOT_VERIFY (16 R473). -/
def execBootVerify (v : BootVerify) (s : State) : Host.Outcome State Fault Refusal :=
  gated s "BOOT_VERIFY" (bootVerify v s.dev)
/-- RECOVERY_IMAGE (16 R473). -/
def execRecoveryImage (im : ImageInfo) (s : State) : Host.Outcome State Fault Refusal :=
  gated s "RECOVERY_IMAGE" (recoveryImage im s.dev)
/-- LOAD_FLASH_RECORDS (16 R474). -/
def execLoadFlashRecords (s : State) : Host.Outcome State Fault Refusal :=
  gated s "LOAD_FLASH_RECORDS" (loadFlashRecords s.dev)
/-- TRAINING (16 R475). -/
def execTraining (t : Training) (s : State) : Host.Outcome State Fault Refusal :=
  gated s "TRAINING" (training t s.dev)
/-- CACHE_INIT (16 R476). -/
def execCacheInit (t : CheckerResults) (s : State) : Host.Outcome State Fault Refusal :=
  gated s "CACHE_INIT" (cacheInit t s.dev)
/-- RUNTIME_BROADCAST (16 R477). -/
def execRuntimeBroadcast (s : State) : Host.Outcome State Fault Refusal :=
  gated s "RUNTIME_BROADCAST" (runtimeBroadcast s.dev)
/-- KNOWN_ANSWER_RUNS (16 R478). -/
def execKnownAnswerRuns (failed : List (BitVec 11)) (s : State) : Host.Outcome State Fault Refusal :=
  gated s "KNOWN_ANSWER_RUNS" (knownAnswerRuns failed s.dev)
/-- READY (16 R479). -/
def execReady (s : State) : Host.Outcome State Fault Refusal := gated s "READY" (ready s.dev)
/-- POWER_ON_RESET (16 R480). -/
def execPowerOnReset (trig : BitVec 4) (s : State) : Host.Outcome State Fault Refusal :=
  gated s "POWER_ON_RESET" (powerOnReset_ trig s.dev)
/-- MODULE_RESET (16 R480). -/
def execModuleReset (trig : BitVec 4) (s : State) : Host.Outcome State Fault Refusal :=
  gated s "MODULE_RESET" (moduleReset_ trig s.dev)
/-- DEVICE_WARM_RESET (16 R480). -/
def execDeviceWarmReset (trig : BitVec 4) (s : State) : Host.Outcome State Fault Refusal :=
  gated s "DEVICE_WARM_RESET" (deviceWarmReset trig s.dev)
/-- BASE_RESET (16 R484). -/
def execBaseReset (trig : BitVec 4) (s : State) : Host.Outcome State Fault Refusal :=
  gated s "BASE_RESET" (baseReset trig s.dev)
/-- BASE_QUIESCE_COMPLETE (16 R484). -/
def execBaseQuiesceComplete (s : State) : Host.Outcome State Fault Refusal :=
  gated s "BASE_QUIESCE_COMPLETE" (baseQuiesceComplete s.dev)
/-- BASE_QUIESCE_FAIL (16 R486). -/
def execBaseQuiesceFail (s : State) : Host.Outcome State Fault Refusal :=
  gated s "BASE_QUIESCE_FAIL" (baseQuiesceFail s.dev)
/-- HALF_RESET (16 R487). -/
def execHalfReset (half : BitVec 1) (trig : BitVec 4) (s : State) : Host.Outcome State Fault Refusal :=
  gated s "HALF_RESET" (halfReset half trig s.dev)
/-- CLUSTER_RESET (16 R488). -/
def execClusterReset (cluster : BitVec 6) (trig : BitVec 4) (failed : List (BitVec 11)) (s : State) : Host.Outcome State Fault Refusal :=
  gated s "CLUSTER_RESET" (clusterReset cluster trig failed s.dev)
/-- CORE_RESET (16 R488). -/
def execCoreReset (core : BitVec 11) (trig : BitVec 4) (katFails : Bool) (s : State) : Host.Outcome State Fault Refusal :=
  gated s "CORE_RESET" (coreReset core trig katFails s.dev)
/-- REF_CLOCK_RESTORED (13 R417). -/
def execRefClockRestored (s : State) : Host.Outcome State Fault Refusal :=
  gated s "REF_CLOCK_RESTORED" (refClockRestored s.dev)

end Sys2Proof.Machine
end

