-- ==== Sys2Proof/Machine/Commands.lean ====
section
/-! DEFINITION. SCI commands on information, memory, data movement, modules, trees and fences (12 R378 to R384,
R391; 09 R290 to R293; 15 R460). -/

namespace Sys2Proof.Machine

/-! ## Items and telemetry (R383, R384; 16 R494) -/

/-- Every bit below `n` for which `p` holds, as bytes, bit 0 first. -/
def bitmap (n : Nat) (p : Nat → Bool) : List Byte :=
  (List.range (n / 8)).map fun i =>
    BitVec.ofNat 8 ((List.range 8).foldl (fun a b => if p (8 * i + b) then a + 2 ^ b else a) 0)

/-- Item 0 (log 38): READY, enabled cores, memory mode, envelope, capacity in MiB without listed frames, VERSION
of the running main and Sorrel firmware, port MAC addresses. -/
def summaryItem (d : Dev) : List Byte :=
  natBytes 1 (b2n (isReady d)) ++ natBytes 2 (enabledCount d) ++ natBytes 1 (b2n (protectedMode d)) ++
    natBytes 1 (envNow d) ++ natBytes 4 (frameCount d - (d.flash.frames.filter fun f => decide (f < frameCount d)).length) ++
    natBytes 8 d.boot.fwVersion.toNat ++ natBytes 8 (fwSlot d 1 (sorrelSlot d)).version.toNat ++ portMacs

/-- Item 2 (log 38): the fenced core sites of the yield map, then its retired banks. -/
def yieldItem (d : Dev) : List Byte :=
  bitmap 2048 (fun n => d.fuses.cores.contains n) ++
    d.fuses.banks.flatMap fun e => natBytes 2 e.1 ++ natBytes 1 e.2

/-- Item 7 (log 38): number, ENTRIES, items not completed and completions of every open queue. -/
def queueItem (d : Dev) : List Byte :=
  d.disp.queues.flatMap fun e => match e.2 with
    | some q => natBytes 2 e.1 ++ natBytes 4 q.entries ++ natBytes 4 q.items.length ++ natBytes 8 q.comps
    | none => []

/-- The attestation report over NONCE (Table 16.9). -/
def attestation (d : Dev) (nonce : List Byte) : List Byte × Dev :=
  let flags := b2n (isReady d) + 2 * b2n (debugOn d) + 4 * b2n (protectedMode d) +
    8 * regField d aSecBoot 61 1 + 16 * sorrelSlot d + 32 * regField d aSecBoot 59 1
  let m (i : Nat) : List Byte := natBytes 64 (d.boot.measured.getD i 0).toNat
  let (sig, d') := freshBytes d 12 4627
  (natBytes 4 0x54415350 ++ natBytes 2 1 ++ natBytes 2 flags ++ natBytes 8 d.boot.fwVersion.toNat ++
    natBytes 4 (regField d aRollback 0 7) ++ natBytes 2 (enabledCount d) ++ natBytes 2 0 ++
    natBytes 8 d.fuses.fusedId.toNat ++ nonce ++ (List.range 6).flatMap m ++ publicKey d ++ sig, d')

/-- QUERY (R383): one item; any other number, and a NONCE of another length, answer ERR_FIELD. -/
def query (q : SciReq) (item : Word) (nonce : List Byte) (d : Dev) : Option Dev :=
  sci 0x02 false q (fun r d => match item.toNat with
    | 0 => respond d r 0 (summaryItem d)
    | 1 => respond d r 0 (bitmap 2048 fun n => !coreFenced d n)
    | 2 => respond d r 0 (yieldItem d)
    | 3 => respond d r 0 (natBytes 8 (regGet d aWearUp).toNat ++ natBytes 8 (regGet d aWearLo).toNat)
    | 4 =>
      if nonce.length ≠ 64 then respond d r 0x03 []
      else
        let (bs, d) := attestation d nonce
        respond d r 0 bs
    | 5 => respond d r 0 ((openSessions d).flatMap (natBytes 2))
    | 6 => respond d r 0 (d.flash.frames.flatMap (natBytes 4))
    | 7 => respond d r 0 (queueItem d)
    | _ => respond d r 0x03 []) d

/-- Change a session's subscriptions. -/
def setSubs (d : Dev) (sn : Nat) (f : List Nat → List Nat) : Dev :=
  match getSession d sn with
  | some s => putSession d sn (some { s with subs := f s.subs })
  | none => d
def subsOf (d : Dev) (sn : Nat) : List Nat := match getSession d sn with
  | some s => s.subs
  | none => []

/-- TELEMETRY (R384): a record once, a subscription with its first record, or the end of the session's
subscriptions. A fifth subscription answers ERR_BUSY; a command fanned out by a manager cannot subscribe. -/
def telemetry (q : SciReq) (period : Word) (d : Dev) : Option Dev :=
  sci 0x03 false q (fun r d =>
    let p := period.toNat
    if p = 0 then respond d r 0 (telemetryRecord d)
    else match sessionOf q.origin with
      | none => respond d r 0x03 []
      | some sn =>
        if p = 0xFFFFFFFF then respond (setSubs d sn fun _ => []) r 0 []
        else if 60000 < p then respond d r 0x03 []
        else if 4 ≤ (subsOf d sn).length then respond d r 0x08 []
        else respond (setSubs d sn fun l => l ++ [p]) r 0 (telemetryRecord d)) d

/-- TELEMETRY_PERIOD: a subscription's period ends and its EVENT is sent (R384). -/
def telemetryPeriod (session : BitVec 16) (sub : Nat) (d : Dev) : Option Dev :=
  if sub < (subsOf d session.toNat).length then some (sendEvent d session.toNat 1 (telemetryRecord d)) else none

/-! ## Pages (R378; 09 R271, R290 to R292) -/

/-- The frames that a valid entry names. -/
def usedFrames (d : Dev) : List Nat := (d.pmap.filter fun e => pteMaps d e.2).map fun e => pteFrame e.2

/-- A run of frames lies below the frame count and holds none of `busy`. -/
def runFree (d : Dev) (busy : List Nat) (f n : Nat) : Bool :=
  decide (f + n ≤ frameCount d) && busy.all fun b => decide (b < f) || decide (f + n ≤ b)

/-- A run of `n` free frames that are not listed as retired: which one the spec leaves to firmware, so that it
is the first from a free place on, or the lowest (log 39). -/
def freeRun (d : Dev) (n seed : Nat) : Option Nat :=
  let busy := usedFrames d ++ d.flash.frames
  let starts := sortBy (fun a b => decide (a ≤ b)) (0 :: busy.map (· + 1))
  let seed := seed % frameCount d
  (seed :: starts.filter (fun s => decide (seed < s)) ++ starts).find? fun s => runFree d busy s n

/-- A valid entry of a page: VALID and ENC with the fields of ENTRY and a frame. -/
def mapEntry (entry : D64) (frame : Nat) : D64 := entry ||| BitVec.ofNat 64 (2 ^ 63 + 2 ^ 62 + frame)

/-- Write the entries of consecutive pages. -/
def mapPages (d : Dev) (page n frame : Nat) (entry : D64) : Dev :=
  (List.range n).foldl (fun d i => writePage d (page + i) (mapEntry entry (frame + i))) d

/-- MAP (R378; 09 R267). -/
def mapPagesCmd (q : SciReq) (page pages frame : Word) (entry : D64) (d : Dev) : Option Dev :=
  sci 0x08 true q (fun r d =>
    let p := page.toNat
    let n := pages.toNat
    let f := frame.toNat
    let any := decide (f = 0xFFFFFFFF)
    let fs := (List.range n).map (f + ·)
    if n = 0 ∨ 524288 < p + n ∨ entry &&& ~~~0x1FFFF80000000000 ≠ 0 ∨ (!any ∧ frameCount d ≤ f + n - 1) then
      respond d r 0x03 []
    else if ((List.range n).any fun i => pteMaps d (pmapEntry d (p + i))) ∨
        (!any ∧ fs.any fun g => (usedFrames d).contains g) then respond d r 0x0F []
    else if any then
      let (v, d) := takeFree d
      match freeRun d n v.toNat with
      | none => respond d r 0x10 []
      | some g => respond (mapPages d p n g entry) r 0 (natBytes 4 g)
    else if fs.any fun g => d.flash.frames.contains g then respond d r 0x10 []
    else respond (mapPages d p n f entry) r 0 (natBytes 4 f)) d

/-- UNMAP: VALID 0 and a shootdown with FLUSH for each valid page, whose frame is free from then on (R378, 09
R271; log 19). -/
def unmapPage (d : Dev) (p : Nat) : Dev :=
  if pteMaps d (pmapEntry d p) then shootNow (writePage d p (setBits (pmapEntry d p) 63 1 0)) p true else d
def unmap (q : SciReq) (page pages : Word) (d : Dev) : Option Dev :=
  if !mayShoot d ((List.range pages.toNat).map (page.toNat + ·)) then none
  else sci 0x09 true q (fun r d =>
    if 524288 < page.toNat + pages.toNat then respond d r 0x03 []
    else respond ((List.range pages.toNat).foldl (fun d i => unmapPage d (page.toNat + i)) d) r 0 []) d

/-- Copy one line of a frame to another (09 R290 item 3, R291): a line that reads UE is logged, and its new units
carry POISON in Protected mode and zeros in Plain mode. -/
def migrateLine (page old new : Nat) (d : Dev) (i : Nat) : Dev :=
  let dev := page * 2 ^ 20 + 128 * i
  let ((good, line), d) := readMemLine d 4 old i dev
  let d := writeMemLine d 4 new i dev (if good then line else 0) (BitVec.allOnes 128)
  if good || !protectedMode d then d
  else [0, 64].foldl (fun d h =>
    addMark d { mem := 0x0E, unit := chanOf new (128 * i + h), index := unitOf new (128 * i + h), dbl := true,
                inj := false, seen := false }) d

/-- Add a frame to the retired-frame list (R292). -/
def listFrame (d : Dev) (f : Nat) : Dev :=
  if d.flash.frames.contains f then d else { d with flash := { d.flash with frames := d.flash.frames ++ [f] } }

/-- RETIRE of a page: the status, the frame its entry names at the end, and the state (R290). -/
def retirePageRun (migrate : Bool) (p : Nat) (e : D64) (d : Dev) : Nat × Nat × Dev :=
  let old := pteFrame e
  let d := shootNow (writePage d p (setBits e 61 1 1)) p true
  if !d.flash.frames.contains old ∧ 1024 ≤ d.flash.frames.length then (0x11, old, d)
  else if !migrate then (0, old, listFrame d old)
  else
    let (v, d) := takeFree d
    match freeRun d 1 v.toNat with
    | none => (0x10, old, listFrame d old)
    | some g =>
      let d := (List.range 8192).foldl (migrateLine p old g) d
      let d := shootNow (writePage d p (setBits (setBits e 61 1 0) 0 19 g)) p false
      (0, g, listFrame d old)

/-- RETIRE_PAGE (R290 to R292). -/
def retirePage (q : SciReq) (migrate : Bool) (page : Word) (d : Dev) : Option Dev :=
  if !mayShoot d [page.toNat] then none
  else sci 0x0C true q (fun r d =>
    if 524288 ≤ page.toNat then respond d r 0x03 []
    else
      let e := pmapEntry d page.toNat
      match readPage d page.toNat with
      | (.invalid, d) => respond d r 0x0C []
      | (_, d) =>
        let (s, f, d) := retirePageRun migrate page.toNat e d
        respond d r s (if s = 0x11 then [] else natBytes 4 f)) d

/-- RETIRE_CACHE_BANK: the write of CDC_SLICE_s, and the bank list of 256 (R293, 08 R260). A retirement without
effect is logged; the answer names frame 0. -/
def retireCacheBank (q : SciReq) (slice : BitVec 16) (bank : Byte) (d : Dev) : Option Dev :=
  sci 0x0C true q (fun r d =>
    let s := slice.toNat
    let b := bank.toNat
    if 2048 ≤ s ∨ 16 < b then respond d r 0x03 []
    else
      let (done, d) := retireBank d s b
      let d := if !done then ignored d (cdcw (s / 1024) + 0x80000 + 8 * (s % 1024)) (BitVec.ofNat 64 (32 + b))
        else if d.flash.banks.length < 256 then
          { d with flash := { d.flash with banks := d.flash.banks ++ [(s, b)] } }
        else d
      respond d r 0 (natBytes 4 0)) d

/-! ## Pins (08 R240, R243) -/

/-- What a range pin has come to: the first failing status, lines pinned, and whether one was left. -/
structure PinRun where
  status : Nat
  pinned : Nat
  left   : Bool

/-- Apply `f` to each line that a byte of the range touches, in ascending order, until a page fails (09
R266); the lines count for the control processor complex, which runs SCI's range operations (10 R315). -/
def overLines (f : Dev → D64 → Nat → Bool × Dev) (d : Dev) (addr len : Nat) : PinRun × Dev :=
  (List.range (spanLines addr len)).foldl (fun s i =>
    let line := addr / 128 + i
    if s.1.status ≠ 0 then s
    else match baseTx s.2 (pageOfLine line) with
      | (.invalid, d) => ({ s.1 with status := 2 }, d)
      | (.retired, d) => ({ s.1 with status := 3 }, d)
      | (.entry e, d) =>
        if !baseReaches d (homeOf e line) then ({ s.1 with status := 9 }, noteStop d none e line 9)
        else if !halfReady d (halfOf (homeOf e line)) then ({ s.1 with status := 8 }, d)
        else
          let (left, d) := f (spend d 2123) e line
          ({ s.1 with pinned := s.1.pinned + b2n (!left), left := s.1.left || left }, d))
    ({ status := 0, pinned := 0, left := false }, d)

def pinRange (d : Dev) (addr len : Nat) : PinRun × Dev := overLines pinLine d addr len

/-- PIN: not subject to RO; ERR_PIN_CAP when a line is left unpinned (R240, R241). -/
def pin (q : SciReq) (addr len : D64) (d : Dev) : Option Dev :=
  if !budgetOk d 2123 then none
  else sci 0x0A false q (fun r d =>
    if !inDevice addr.toNat len.toNat then respond d r 0x0B []
    else
      let (s, d) := pinRange d addr.toNat len.toNat
      if s.status ≠ 0 then respond d r (sciOf s.status) []
      else respond d r (if s.left then 0x12 else 0) (natBytes 8 s.pinned)) d

/-- UNPIN (R243). -/
def unpin (q : SciReq) (addr len : D64) (d : Dev) : Option Dev :=
  if !budgetOk d 2123 then none
  else sci 0x0B false q (fun r d =>
    if !inDevice addr.toNat len.toNat then respond d r 0x0B []
    else
      let (s, d) := overLines (fun d e l => (false, unpinLine d e l)) d addr.toNat len.toNat
      respond d r (sciOf s.status) []) d

/-! ## Data (R378, R382) -/

/-- The end of a host transfer as its port's record gives it (15 Table 15.2). -/
def noteHost (d : Dev) (r : Resp) (s a n : Nat) : Dev :=
  noteTransfer d (src 5 r.port) s (2120 + r.port) a n r.tag.toNat

/-- The budget of the port that a transfer came through holds it (10 R314). -/
def portHeld (d : Dev) (q : SciReq) (opcode : Nat) : Bool := match admitReq d q opcode false with
  | some (r, _) => !budgetOk d (2120 + r.port)
  | none => false

/-- PUT: the port's transfer engine writes the payload as master 2,120 + p in TC4 (R382). -/
def put (q : SciReq) (addr : D64) (data : List Byte) (d : Dev) : Option Dev :=
  if portHeld d q 0x10 then none
  else sci 0x10 false q (fun r d =>
    let a := addr.toNat
    let n := data.length
    if n = 0 then respond d r 0 []
    else if !rangeOpen a n then respond d r 0x0B []
    else if !oneRegion a n then respond d r 0x03 []
    else
      let (s, d) := localWrite d (2120 + r.port) 4 a data
      respond (noteHost d r s a n) r (sciOf s) []) d

/-- GET: up to MAX_PAY × 64 − 16 bytes (R382). -/
def get (q : SciReq) (addr : D64) (len : Word) (d : Dev) : Option Dev :=
  if portHeld d q 0x11 then none
  else sci 0x11 false q (fun r d =>
    let a := addr.toNat
    let n := len.toNat
    if maxPay d r.port < n + 16 then respond d r 0x03 []
    else if n = 0 then respond d r 0 []
    else if !rangeOpen a n then respond d r 0x0B []
    else if !oneRegion a n then respond d r 0x03 []
    else
      let ((s, bs), d) := localRead d (2120 + r.port) 4 a n
      respond (noteHost d r s a n) r (sciOf s) (if s = 0 then bs else [])) d

/-- COPY: one descriptor for a copy engine channel; it is answered when the channel has performed it
(R378, R380). -/
def copy (q : SciReq) (src dst len : D64) (engine cls : Byte) (d : Dev) : Option Dev :=
  sci 0x12 false q (fun r d =>
    let e := engine.toNat
    let k := cls.toNat
    if (63 < e ∧ e ≠ 0xFF) ∨ (7 < k ∧ k ≠ 0xFF) then respond d r 0x03 []
    else match chooseEngine d e with
      | none => respond d r 0x08 []
      | some n => addCopy d n { resp := r, src := src, dst := dst, len := len.toNat, cls := if k = 0xFF then 4 else k,
                                off := 0, tag := none, status := 0 }) d

/-! ## Modules and configurations (R378) -/

/-- The first nonzero handle from `h` on that no module has; which one the spec leaves to the device. -/
def unusedHandle (d : Dev) : Nat → Nat → Nat
  | 0, h => h
  | n + 1, h =>
    if h % 2 ^ 32 = 0 ∨ (mapGet none d.disp.modules (h % 2 ^ 32)).isSome then unusedHandle d n (h + 1) else h % 2 ^ 32

/-- Every core's instruction cache is invalidated (02 R65). -/
def dropInstructions (d : Dev) : Dev :=
  { d with cores := d.cores.map fun e => (e.1, { e.2 with ic := [] }) }

/-- LOAD_MODULE: a range is recorded under a nonzero handle, pinned when PIN_CODE is 1; ERR_PIN_CAP tells that a line was
left unpinned (R378, 08 R241; log 49). -/
def loadModule (q : SciReq) (pinCode : Bool) (addr : D64) (len : Word) (d : Dev) : Option Dev :=
  if pinCode && !budgetOk d 2123 then none
  else sci 0x18 true q (fun r d =>
    if addr.toNat % 8 ≠ 0 then respond d r 0x03 []
    else if !inDevice addr.toNat len.toNat then respond d r 0x0B []
    else if 1024 ≤ d.disp.modules.length then respond d r 0x13 []
    else
      let (s, d) := if pinCode then pinRange d addr.toNat len.toNat
        else ({ status := 0, pinned := 0, left := false }, d)
      if s.status ≠ 0 then respond d r (sciOf s.status) []
      else
        let (v, d) := takeFree d
        let h := unusedHandle d 1026 v.toNat
        let d := setDisp d { d.disp with
          modules := mapPut none d.disp.modules h (some { addr := addr.toNat, len := len.toNat }) }
        respond (dropInstructions d) r (if s.left then 0x12 else 0) (natBytes 4 h)) d

/-- A queued or running item names a module. -/
def moduleBusy (d : Dev) (h : Nat) : Bool :=
  d.disp.queues.any fun e => match e.2 with
    | some v => v.items.any fun w => decide (w.launch.module.toNat = h)
    | none => false

/-- UNLOAD_MODULE (R378). -/
def unloadModule (q : SciReq) (handle : Word) (d : Dev) : Option Dev :=
  sci 0x18 true q (fun r d =>
    let h := handle.toNat
    if (mapGet none d.disp.modules h).isNone then respond d r 0x13 []
    else if moduleBusy d h then respond d r 0x08 []
    else respond (setDisp d { d.disp with modules := mapDel d.disp.modules h }) r 0 []) d

/-- The image at an address, checked under 06 R182: a status, its CONFIG_ID and its length. -/
def checkImage (d : Dev) (a : Nat) : (Nat × Nat × Nat) × Dev :=
  match readDev d 7 a 64 with
  | ((0, h), d) =>
    if !headerOk h (fieldAt h 8 8) then ((0x14, 0, 0), d)
    else
      let len := fieldAt h 0x18 4 + fieldAt h 0x1C 4
      (match readDev d 7 (a + 64) len with
        | ((0, b), d) =>
          if (crc32c (h.take 0x3C ++ [0, 0, 0, 0] ++ b)).toNat ≠ fieldAt h 0x3C 4 then ((0x14, 0, 0), d)
          else ((0, fieldAt h 8 8, 64 + len), d)
        | ((s, _), d) => ((sciOf s, 0, 0), d))
  | ((s, _), d) => ((sciOf s, 0, 0), d)

/-- A command that firmware ends with ERR_UE is logged by the control processor core that ran it (15 Tables 15.2 and
15.5; log 18). -/
def noteUe (d : Dev) (cp opcode status addr : Nat) : Dev :=
  if status = 0x18 then fwRecord d cp 0x04 addr status opcode else d

/-- The control processor core that runs a command of path W: CP2 for FMB0, CP1 for a host mailbox (R373). -/
def coreOfW (q : SciReq) : Nat := match q.origin with
  | .host _ _ => 1
  | .fabric _ _ => 2

/-- LOAD_CONFIG: an image is checked, pinned when PIN is 1, and its CONFIG_ID returned (R378). -/
def loadConfig (q : SciReq) (addr : D64) (pinIt : Bool) (d : Dev) : Option Dev :=
  if !budgetOk d 2123 then none
  else sci 0x19 true q (fun r d =>
    let a := addr.toNat
    if a % 64 ≠ 0 then respond d r 0x03 []
    else if !inDevice a 64 then respond d r 0x0B []
    else
      let ((s, id, n), d) := checkImage d a
      if s ≠ 0 then respond (noteUe d (coreOfW q) 0x19 s a) r s []
      else
        let (p, d) := if pinIt then pinRange d a n else ({ status := 0, pinned := 0, left := false }, d)
        if p.status ≠ 0 then respond d r (sciOf p.status) []
        else respond d r (if p.left then 0x12 else 0) (natBytes 8 id)) d

/-! ## Trees (R391; 11 R344) -/

/-- Answer a TREE command: ERR_TREE for a RESULT other than 0, and the context's STATE. -/
def treeAnswer (d : Dev) (r : Resp) (c result : Nat) : Dev :=
  respond d r (if result = 0 then 0 else 0x1C) (if result = 0 then natBytes 1 (lcState (getCtx d c)) else [])

/-- Common checks of TREE: a context number, and AUTO 0 or 1. -/
def treeFields (t : TreeArgs) : Bool := decide (t.context.toNat < 1024) && decide (t.auto.toNat ≤ 1)

/-- TREE_OPEN: the image is written into a FREE context, OPEN runs, and the signals are bound (R391). -/
def treeOpen (q : SciReq) (t : TreeArgs) (image : BitVec 512) (d : Dev) : Option Dev :=
  sci 0x28 false q (fun r d =>
    let c := t.context.toNat
    if !treeFields t then respond d r 0x03 []
    else if lcState (getCtx d c) ≠ lcFree then treeAnswer d r c 2
    else
      let x := getCtx d c
      let d := putCtx d c { x with image := (x.image &&& ~~~lcRwMask) ||| (image &&& lcRwMask) }
      let (s, d) := ctxOpen d c
      let d := if s = 0 then putCtx d c { getCtx d c with
          startSig := t.startSig.toNat, doneSig := t.doneSig.toNat, armed := false, auto := false, gen := 0,
          asked := none } else d
      treeAnswer d r c s) d

/-- TREE_START: arms one generation, or with AUTO every one; without a start signal START runs at once
(R391). -/
def treeStart (q : SciReq) (t : TreeArgs) (d : Dev) : Option Dev :=
  sci 0x28 false q (fun r d =>
    let c := t.context.toNat
    if !treeFields t then respond d r 0x03 []
    else
      let x := getCtx d c
      let auto := decide (t.auto = 1)
      let now := decide (x.startSig = 0xFFFF)
      let x' := { x with auto := auto, startVal := t.startValue, asked := sessionOf q.origin,
                         armed := auto || !now, gen := b2n now }
      if now then
        let (s, d') := ctxStart (putCtx d c x') c
        if s = 0 then treeAnswer d' r c 0 else treeAnswer d r c s
      else if lcLive x then treeAnswer (putCtx d c x') r c 0
      else treeAnswer d r c 2) d

/-- TREE_CLOSE and TREE_ABORT: the actions of 11 R344 and R347. -/
def treeAct (act : Dev → Nat → Nat × Dev) (q : SciReq) (t : TreeArgs) (d : Dev) : Option Dev :=
  sci 0x28 false q (fun r d =>
    if !treeFields t then respond d r 0x03 []
    else
      let (s, d) := act d t.context.toNat
      treeAnswer d r t.context.toNat s) d
def treeClose (q : SciReq) (t : TreeArgs) : Dev → Option Dev := treeAct ctxClose q t
def treeAbort (q : SciReq) (t : TreeArgs) : Dev → Option Dev := treeAct ctxAbort q t

/-! ## FENCE_CORE (15 R460 to R462) -/

/-- FENCE_CORE: answered when the core is fenced; at once when it is already (R460, R462). -/
def fenceCore (q : SciReq) (core : BitVec 16) (d : Dev) : Option Dev :=
  sci 0x30 true q (fun r d =>
    let n := core.toNat
    if 2048 ≤ n then respond d r 0x03 []
    else if coreFenced d n then respond d r 0 []
    else coreFenceStart (BitVec.ofNat 11 n) false
      (setDisp d { d.disp with fencing := d.disp.fencing ++ [(n, r)] })) d

/-! ## The commands of this family -/

/-- QUERY (12 R383). -/
def execQuery (q : SciReq) (item : BitVec 32) (nonce : List (BitVec 8)) (s : State) : Host.Outcome State Fault Refusal :=
  gated s "QUERY" (query q item nonce s.dev)
/-- TELEMETRY (12 R384). -/
def execTelemetry (q : SciReq) (period : BitVec 32) (s : State) : Host.Outcome State Fault Refusal :=
  gated s "TELEMETRY" (telemetry q period s.dev)
/-- TELEMETRY_PERIOD (12 R384). -/
def execTelemetryPeriod (session : BitVec 16) (sub : Nat) (s : State) : Host.Outcome State Fault Refusal :=
  gated s "TELEMETRY_PERIOD" (telemetryPeriod session sub s.dev)
/-- MAP (12 R378). -/
def execMap (q : SciReq) (page pages frame : BitVec 32) (entry : BitVec 64) (s : State) : Host.Outcome State Fault Refusal :=
  gated s "MAP" (mapPagesCmd q page pages frame entry s.dev)
/-- UNMAP (09 R271). -/
def execUnmap (q : SciReq) (page pages : BitVec 32) (s : State) : Host.Outcome State Fault Refusal :=
  gated s "UNMAP" (unmap q page pages s.dev)
/-- PIN (08 R240). -/
def execPin (q : SciReq) (addr len : BitVec 64) (s : State) : Host.Outcome State Fault Refusal :=
  gated s "PIN" (pin q addr len s.dev)
/-- UNPIN (08 R243). -/
def execUnpin (q : SciReq) (addr len : BitVec 64) (s : State) : Host.Outcome State Fault Refusal :=
  gated s "UNPIN" (unpin q addr len s.dev)
/-- RETIRE_PAGE (09 R290). -/
def execRetirePage (q : SciReq) (migrate : Bool) (page : BitVec 32) (s : State) : Host.Outcome State Fault Refusal :=
  gated s "RETIRE_PAGE" (retirePage q migrate page s.dev)
/-- RETIRE_CACHE_BANK (09 R293). -/
def execRetireCacheBank (q : SciReq) (slice : BitVec 16) (bank : BitVec 8) (s : State) : Host.Outcome State Fault Refusal :=
  gated s "RETIRE_CACHE_BANK" (retireCacheBank q slice bank s.dev)
/-- PUT (12 R382). -/
def execPut (q : SciReq) (addr : BitVec 64) (data : List (BitVec 8)) (s : State) : Host.Outcome State Fault Refusal :=
  gated s "PUT" (put q addr data s.dev)
/-- GET (12 R382). -/
def execGet (q : SciReq) (addr : BitVec 64) (len : BitVec 32) (s : State) : Host.Outcome State Fault Refusal :=
  gated s "GET" (get q addr len s.dev)
/-- COPY (12 R378). -/
def execCopy (q : SciReq) (src dst len : BitVec 64) (engine cls : BitVec 8) (s : State) : Host.Outcome State Fault Refusal :=
  gated s "COPY" (copy q src dst len engine cls s.dev)
/-- LOAD_MODULE (12 R378). -/
def execLoadModule (q : SciReq) (pinCode : Bool) (addr : BitVec 64) (len : BitVec 32) (s : State) : Host.Outcome State Fault Refusal :=
  gated s "LOAD_MODULE" (loadModule q pinCode addr len s.dev)
/-- UNLOAD_MODULE (12 R378). -/
def execUnloadModule (q : SciReq) (handle : BitVec 32) (s : State) : Host.Outcome State Fault Refusal :=
  gated s "UNLOAD_MODULE" (unloadModule q handle s.dev)
/-- LOAD_CONFIG (12 R378). -/
def execLoadConfig (q : SciReq) (addr : BitVec 64) (pin : Bool) (s : State) : Host.Outcome State Fault Refusal :=
  gated s "LOAD_CONFIG" (loadConfig q addr pin s.dev)
/-- TREE_OPEN (12 R391). -/
def execTreeOpen (q : SciReq) (t : TreeArgs) (image : BitVec 512) (s : State) : Host.Outcome State Fault Refusal :=
  gated s "TREE_OPEN" (treeOpen q t image s.dev)
/-- TREE_START (12 R391). -/
def execTreeStart (q : SciReq) (t : TreeArgs) (s : State) : Host.Outcome State Fault Refusal :=
  gated s "TREE_START" (treeStart q t s.dev)
/-- TREE_CLOSE (11 R344). -/
def execTreeClose (q : SciReq) (t : TreeArgs) (s : State) : Host.Outcome State Fault Refusal :=
  gated s "TREE_CLOSE" (treeClose q t s.dev)
/-- TREE_ABORT (11 R344). -/
def execTreeAbort (q : SciReq) (t : TreeArgs) (s : State) : Host.Outcome State Fault Refusal :=
  gated s "TREE_ABORT" (treeAbort q t s.dev)
/-- FENCE_CORE (15 R460). -/
def execFenceCore (q : SciReq) (core : BitVec 16) (s : State) : Host.Outcome State Fault Refusal :=
  gated s "FENCE_CORE" (fenceCore q core s.dev)

end Sys2Proof.Machine
end

