-- ==== Sys2Proof/Machine/Admin.lean ====
section
/-! DEFINITION. SCI commands that change the device: settings, resets, firmware update, role and routes (12 R385;
16 R480, R491, R500; 11 R349, R353). -/

namespace Sys2Proof.Machine

/-! ## SETTING (R385) -/

/-- The fields of the four registers of PORT that a setting gives (Tables 12.2, 12.4 to 12.6). -/
def portRegs (p : Nat) (value : List Byte) : List (Nat × D64) :=
  let w (i : Nat) : D64 := BitVec.ofNat 64 (fieldAt value (4 + 8 * i) 8)
  [(aHptCfg p, w 0 &&& 0xFFFFFCFFFFFFFFFF), (aHptIpv4 p, w 1 &&& 0xFFFFFFFF), (aHptIpv6Hi p, w 2), (aHptIpv6Lo p, w 3)]

/-- Write a port's settings to flash and to its registers. -/
def setPort (d : Dev) (p : Nat) (value : List Byte) : Dev :=
  (portRegs p value).foldl (fun d e =>
    regPut { d with flash := { d.flash with ports := mapIns e.1 e.2 (mapDel d.flash.ports e.1) } } e.1 e.2) d

/-- Pass the messages that wait in FMB4 to FMB63 to a session (R372). -/
def passMessages (d : Dev) (sn : Nat) : Dev :=
  (List.range 60).foldl (fun d i =>
    (getBox d (i + 4)).foldl (fun d m => sendEvent d sn 4 m.data) (putBox d (i + 4) [])) d

/-- SETTING: an ITEM is written to flash and applied; the answer is the value now stored (R385). PORT is answered
on its port before it takes effect. -/
def setting (q : SciReq) (item : Word) (value : List Byte) (d : Dev) : Option Dev :=
  sci 0x04 true q (fun r d =>
    let v := bytesNat value
    let no (d : Dev) : Dev := respond d r 0x03 []
    if value.length ≠ 36 then no d
    else match item.toNat with
      | 0 => if 1 < v then no d else respond { d with flash := { d.flash with mode := v } } r 0 value
      | 1 =>
        if 2 < v then no d
        else respond (envelopeSwitch (BitVec.ofNat 64 (v * 2 ^ 48)) { d with flash := { d.flash with envelope := v } })
          r 0 value
      | 2 =>
        let p := fieldAt value 0 4
        if 1 < p then no d
        else
          let stored := natBytes 4 p ++ (portRegs p value).flatMap fun e => natBytes 8 e.2.toNat
          setPort (respond d r 0 stored) p value
      | 3 =>
        (match sessionOf q.origin with
        | none => no d
        | some sn => passMessages (respond (setFab d { d.fab with sink := some sn }) r 0 value) sn)
      | _ => no d) d

/-! ## RESET and SEC_RESET_CTRL (16 R480, R500) -/

/-- KIND and INDEX name a reset that a command can ask for. -/
def resetNamed (kind index : Nat) : Bool :=
  match kind with
  | 1 | 2 | 3 => decide (index = 0)
  | 4 => decide (index < 2)
  | 5 => decide (index < 64)
  | 6 => decide (index < 2048)
  | _ => false

/-- Start a reset with trigger 0: module and device warm resets run at once, the others take their turn
(R481). -/
def startReset (d : Dev) (kind index : Nat) : Dev :=
  match kind with
  | 1 => moduleReset d 0
  | 2 => warmReset d 0
  | _ => askReset d kind index 0

/-- The word of SEC_RESET_CTRL that asks for a reset (Table 16.13). -/
def resetWord (kind index : Nat) : D64 := BitVec.ofNat 64 (kind * 2 ^ 52 + index * 2 ^ 32)

/-- A write of SEC_RESET_CTRL (R500): a GO that names no reset is ignored and logged. Every session hears first of a
reset that clears the base die (R480, 12 R370). -/
def resetCtrlWrite (v : D64) (d : Dev) : Dev :=
  let d := regPut d aResetCtrl (v &&& 0x00F007FF00000000)
  if !bit v 63 then d
  else if resetNamed (bits v 52 4) (bits v 32 11) then
    startReset (if bits v 52 4 ≤ 3 then sessionEndEvents d else d) (bits v 52 4) (bits v 32 11)
  else ignored d aResetCtrl v

/-- RESET: sessions hear of a reset that clears the base die, the answer leaves, and the reset starts (R480). -/
def reset (q : SciReq) (kind : Byte) (index : BitVec 16) (d : Dev) : Option Dev :=
  sci 0x31 true q (fun r d =>
    let k := kind.toNat
    let i := index.toNat
    if !resetNamed k i then respond d r 0x03 []
    else
      let d := respond (if k ≤ 3 then sessionEndEvents d else d) r 0 []
      startReset (regPut d aResetCtrl (resetWord k i)) k i) d

/-! ## UPDATE (16 R491) -/

/-- Bytes of the header before the body (Table 16.6). -/
def imageHeader : Nat := 0x2000

/-- Step 1 of R491 on an image whose bytes have been read with status `s`: the code of the first check that
fails. -/
def updateCheck (d : Dev) (comp len s : Nat) (im : ImageInfo) : Option Nat :=
  if s ≠ 0 then some (sciOf s)
  else if !imageVerified im ∨ im.component.toNat ≠ comp ∨ len < imageHeader + im.bodyLen.toNat then some 0x1D
  else if im.rollback.toNat < d.fuses.rollback then some 0x1E else none

/-- The new commit word: GENERATION one above the word in use, slot `s` for a component (R490). -/
def nextCommit (d : Dev) (comp s : Nat) : D64 :=
  let w := commitWord d
  seal16 (setBits (setBits w 32 32 (bits w 32 32 + 1)) (16 + comp) 1 s)

/-- Put a word into the copy that does not hold the word in use. -/
def putCommit (d : Dev) (w : D64) : Dev :=
  { d with flash := { d.flash with commit := setAt d.flash.commit (1 - commitIndex d.flash.commit) w } }

/-- UPDATE: check, write and read back the inactive slot, commit, answer VERSION (R491). -/
def update (q : SciReq) (comp : Byte) (addr : D64) (len : Word) (im : ImageInfo) (d : Dev) : Option Dev :=
  if !budgetOk d 2123 then none
  else sci 0x32 true q (fun r d =>
    let c := comp.toNat
    if 2 ≤ c then respond d r 0x03 []
    else if !inDevice addr.toNat len.toNat then respond d r 0x0B []
    else
      let ((s, _), d) := readDev d 7 addr.toNat len.toNat
      match updateCheck d c len.toNat s im with
      | some e => respond (noteUe d 3 0x32 e addr.toNat) r e []
      | none =>
        let slot := 1 - bits (commitWord d) (16 + c) 1
        if !im.readBack then
          let d := putFwSlot d c slot { whole := false, part := true, rollback := im.rollback.toNat, version := im.version }
          respond (event d (src 8 3) 0x0604 0 0 0 0) r 0x1D []
        else
          let d := putFwSlot d c slot { whole := true, part := false, rollback := im.rollback.toNat, version := im.version }
          let d := regSet (putCommit d (nextCommit d c slot)) aSecBoot 58 1 1
          respond (event d (src 8 3) 0x0603 0 0 0 0) r 0 (natBytes 8 im.version.toNat)) d

/-! ## ROLE (11 R349, R350, R353; 12 Table 12.12) -/

/-- FAB_ROLE as ROLE gives it (Table 11.11). -/
def roleWord (role : Nat) (mgr : Bool) (manager : Nat) : D64 :=
  BitVec.ofNat 64 (role * 2 ^ 62 + b2n mgr * 2 ^ 61 + manager)

/-- ROLE item 0: FAB_ROLE at once and in flash; 3 is a reserved role. -/
def role (q : SciReq) (rl : Byte) (mgr : Bool) (manager : Word) (d : Dev) : Option Dev :=
  sci 0x33 true q (fun r d =>
    if 2 < rl.toNat ∨ 2 ^ 17 ≤ manager.toNat then respond d r 0x03 []
    else
      let w := roleWord rl.toNat mgr manager.toNat
      respond (regPut { d with flash := { d.flash with role := w } } aFabRole w) r 0 []) d

/-- ROLE item 1: FAB_ID with VALID 1, in flash too. -/
def roleDeviceId (q : SciReq) (deviceId : Word) (d : Dev) : Option Dev :=
  sci 0x33 true q (fun r d =>
    if 2 ^ 17 ≤ deviceId.toNat then respond d r 0x03 []
    else
      let w := BitVec.ofNat 64 (2 ^ 63 + deviceId.toNat)
      respond (pumpPorts (regPut { d with flash := { d.flash with ident := w } } aFabId w)) r 0 []) d

/-- ROLE item 2: 1 to 100 route entries from FIRST on. -/
def roleRouteEntries (q : SciReq) (first : Word) (entries : List Word) (d : Dev) : Option Dev :=
  sci 0x33 true q (fun r d =>
    let n := entries.length
    if n = 0 ∨ 100 < n ∨ 131072 < first.toNat + n then respond d r 0x03 []
    else respond ((entries.zip (List.range n)).foldl (fun d e => writeRoute d (first.toNat + e.2) e.1) d) r 0 []) d

/-! ## The commands of this family -/

/-- SETTING (12 R385). -/
def execSetting (q : SciReq) (item : BitVec 32) (value : List (BitVec 8)) (s : State) : Host.Outcome State Fault Refusal :=
  gated s "SETTING" (setting q item value s.dev)
/-- RESET (16 R480). -/
def execReset (q : SciReq) (kind : BitVec 8) (index : BitVec 16) (s : State) : Host.Outcome State Fault Refusal :=
  gated s "RESET" (reset q kind index s.dev)
/-- UPDATE (16 R491). -/
def execUpdate (q : SciReq) (comp : BitVec 8) (addr : BitVec 64) (len : BitVec 32) (im : ImageInfo) (s : State) : Host.Outcome State Fault Refusal :=
  gated s "UPDATE" (update q comp addr len im s.dev)
/-- ROLE (11 R353). -/
def execRole (q : SciReq) (rl : BitVec 8) (mgrValid : Bool) (managerId : BitVec 32) (s : State) : Host.Outcome State Fault Refusal :=
  gated s "ROLE" (role q rl mgrValid managerId s.dev)
/-- ROLE_DEVICE_ID (11 R349). -/
def execRoleDeviceId (q : SciReq) (deviceId : BitVec 32) (s : State) : Host.Outcome State Fault Refusal :=
  gated s "ROLE_DEVICE_ID" (roleDeviceId q deviceId s.dev)
/-- ROLE_ROUTE_ENTRIES (11 R350). -/
def execRoleRouteEntries (q : SciReq) (first : BitVec 32) (entries : List (BitVec 32)) (s : State) : Host.Outcome State Fault Refusal :=
  gated s "ROLE_ROUTE_ENTRIES" (roleRouteEntries q first entries s.dev)

end Sys2Proof.Machine
end

