-- ==== Sys2Proof/Machine/Registers.lean ====
section
/-! DEFINITION. The registers as firmware and management see them (00 R13 to R16; 09 Tables 9.1 and 9.2): access
types, the fields that show other state, and reads and writes. -/

namespace Sys2Proof.Machine

/-! ## Access types (00 Table 0.5) -/

/-- The RW, W1C and RC bits of a register; its other bits are RO, WO or reserved. -/
structure Access3 where
  rw  : D64
  w1c : D64
  rc  : D64
deriving DecidableEq, Repr

/-- A register with only RO, WO and reserved bits. -/
def roAcc : Access3 := { rw := 0, w1c := 0, rc := 0 }
def rwAcc (m : D64) : Access3 := { roAcc with rw := m }
def rcAcc (m : D64) : Access3 := { roAcc with rc := m }
def w1Acc (m : D64) : Access3 := { roAcc with w1c := m }

/-- Registers of a core control window by offset (Tables 2.4 to 2.6, 4.20, 5.3, 5.7, 6.8 to 6.10, 7.8 to 7.13). -/
def coreAcc (o : Nat) : Option Access3 :=
  if o = 0x40 then some (rwAcc 0xFFFFFFFF)
  else if o = 0x110 then some (rwAcc 0xFF)
  else if o = 0x310 then some (rwAcc 0xFFFFFFFF)
  else if o = 0x320 then some { rw := 0, w1c := 0xFFFF, rc := 0xFFFFFFFF00000000 }
  else if [0x48, 0x100, 0x118, 0x120, 0x300, 0x308, 0x318].contains o || inSeries o 0x200 8 32 || inSeries o 0x140 8 8 ||
      inSeries o 0x340 8 16 then some roAcc
  else none

/-- Registers of a cache die control window by offset (Tables 8.6 to 8.16). -/
def cacheAcc (o : Nat) : Option Access3 :=
  if o = 0 then some (rwAcc 0xF3)
  else if o = 0x8 then some (rcAcc 0xFFFFFFFF)
  else if o = 0x10 then some (rwAcc 0x2)
  else if o = 0x18 then some (w1Acc 0x4000000000000000)
  else if inSeries o 0x80 8 8 then some (rwAcc 0x8FFF00FF)
  else if o = 0xC0 then some (w1Acc 0xFF00)
  else if o = 0xC8 then some (rcAcc 0x8000000000000000)
  else if o = 0xD0 || inSeries o 0x40 8 4 || inSeries o 0x1000 8 64 || inSeries o 0x80000 8 1024 then some roAcc
  else none

/-- Page map window and PGM_ registers (Tables 9.3, 9.4, 9.9 to 9.12). -/
def pgmAcc (a : Nat) : Option Access3 :=
  if inSeries a 0x7B0000000000 8 524288 then some (rwAcc (BitVec.allOnes 64))
  else if a = aPgmMode then some (rwAcc 0x10)
  else if a = aShoot then some { rw := 0x30007FFFF, w1c := 0x4000000000000000, rc := 0 }
  else if a = aScrubCtrl then some (rwAcc 0x3FFFFF)
  else if a = aScrubStatus then some roAcc
  else if inSeries a (aChan 0) 8 32 then some (rcAcc 0xFFFFFFFFFFFF)
  else none

/-- RGL_ registers (Tables 10.9 to 10.18). -/
def rglAcc (a : Nat) : Option Access3 :=
  if a = aClassPrio then some (rwAcc 0xFFFFFFFF)
  else if a = aWdogCfg then some (rwAcc 0xFFFFFFFFF)
  else if a = aWdogStatus then some (rcAcc 0xFFFFFFFF00000000)
  else if a = aWdogLast then some (rcAcc 0x8000000000000000)
  else if inSeries a (aWayMask 0) 8 8 then some (rwAcc 0xFFFFFFFF)
  else if inSeries a (aMissShare 0) 8 8 then some (rwAcc 0x1FFFF0001FFFF)
  else if inSeries a (aMcqShare 0) 8 8 then some (rwAcc 0x1FF000001FF)
  else if inSeries a (aBw 0 0) 8 16 || inSeries a (aMbw 0) 8 8 then some roAcc
  else if inSeries a (aBudget 0) 8 2124 then some (rwAcc 0x800003FFFFFFFFFF)
  else none

/-- FAB_ registers and Lovage contexts (Tables 11.8, 11.10 to 11.17). -/
def fabAcc (a : Nat) : Option Access3 :=
  if a = aFabId then some (rwAcc 0x800000000001FFFF)
  else if a = aFabRole then some (rwAcc 0xE00000000001FFFF)
  else if a = aFabCfg then some (rwAcc 0xFFFFFFFF00FF)
  else if a = aRtIndex then some (rwAcc 0x1FFFF)
  else if a = aRtData then some (rwAcc 0xFFFFFFFF)
  else if a = aLovCmd || a = aLovStatus then some roAcc
  else if inSeries a (aFabPort 0) 8 8 then some (rcAcc 0xFFFFFF00)
  else if inSeries a (aLovCtx 0) 8 8192 then
    let i := (a - aLovCtx 0) / 8 % 8
    some (rwAcc (BitVec.ofNat 64 (lcRwMask.toNat / 2 ^ (64 * i))))
  else none

/-- HPT_ registers (Tables 12.2 to 12.6). -/
def hptAcc (a : Nat) : Option Access3 :=
  if inSeries a (aHptCfg 0) 0x100 2 then some (rwAcc 0xFFFFFCFFFFFFFFFF)
  else if inSeries a (aHptStatus 0) 0x100 2 then some (rcAcc 0xFFFFFFFF)
  else if inSeries a (aHptIpv4 0) 0x100 2 then some (rwAcc 0xFFFFFFFF)
  else if inSeries a (aHptIpv6Hi 0) 0x100 2 || inSeries a (aHptIpv6Lo 0) 0x100 2 then some (rwAcc (BitVec.allOnes 64))
  else none

/-- PWR_ registers (Tables 13.12 to 13.18). -/
def pwrAcc (a : Nat) : Option Access3 :=
  if a = aNoticeCfg then some (rwAcc 0x80FFFFFF00FF00FF)
  else if a = aNoticeStatus then some (rcAcc (BitVec.allOnes 64))
  else if a = aPwrInput || a = aClkStatus || a = aUsec || inSeries a (aRail 0) 8 72 then some roAcc
  else if inSeries a (aCluster 0) 8 64 then some (rwAcc 0x2000FFFF00000000)
  else none

/-- SOR_ registers (Tables 1.6, 1.7, 14.5, 14.12 to 14.20, 15.18 to 15.21) and the error log ring (15 R453). -/
def sorAcc (a : Nat) : Option Access3 :=
  if a = aEnv then some (rwAcc 0x3000000000000)
  else if a = aThermalCfg then some (rwAcc 0xFFFFFFFFFF000000)
  else if a = aDroopCfg then some (rwAcc 0xFFFF00000000)
  else if a = aAlertCfg then some (rwAcc 0x3)
  else if inSeries a (aSorCluster 0) 8 64 then some (rcAcc 0xFFFF0000)
  else if inSeries a (aRuleLo 0) 16 64 then some (rwAcc 0xFFFFFFB8FFFFFFFF)
  else if inSeries a (aRuleHi 0) 16 64 then some (rwAcc 0xFFFFFCFF8000FFFF)
  else if a = aErrCfg then some (rwAcc 0x03F0FF0000000000)
  else if a = aErrStatus then some (rcAcc 0xFFFF)
  else if a = aErrInject then some (rwAcc 0x0F8007FF00000000)
  else if [aWearUp, aWearLo, aSensorClr].contains a || inSeries a (aRuleState 0) 8 64 || inSeries a (aSrc 0) 8 255 ||
      inSeries a (aTs 0) 8 2224 || inSeries a (aChervil 0) 8 64 || inSeries a (aCoreFence 0) 8 32 ||
      inSeries a aErrRing 8 8192 then some roAcc
  else none

/-- CVU_ registers by offset in the unit's window (Tables 15.10 to 15.17). -/
def cvuAcc (o : Nat) : Option Access3 :=
  if o = 0 then some (rwAcc 0x8FFF7FFFFF000000)
  else if o = 0x8 then some (rwAcc 0xFFFFFFFFFFFFFFC0)
  else if o = 0x28 then some roAcc
  else if o = 0x30 then some (rcAcc 0xFFFFFF00FFFFFFFF)
  else if o % 8 = 0 then some (rwAcc (BitVec.allOnes 64))
  else none

/-- SEC_ registers (Tables 16.11 to 16.14). -/
def secAcc (a : Nat) : Option Access3 :=
  if a = aResetCtrl then some (rwAcc 0x00F007FF00000000)
  else if a = aSecBoot || a = aResetCause || a = aRollback then some roAcc
  else none

/-- A core control window, or a cache die control window (02 R67, 08 R258). -/
def inCcw (a : Nat) : Bool := decide (ccw 0 ≤ a) && decide (a < ccw 2048)
def inCdcw (a : Nat) : Bool := decide (cdcw 0 ≤ a) && decide (a < cdcw 2)
def inCvuw (a : Nat) : Bool := decide (cvuw 0 ≤ a) && decide (a < cvuw 32)
def ccwCore (a : Nat) : Nat := (a - ccw 0) / 0x100000
def cdcwHalf (a : Nat) : Nat := (a - cdcw 0) / 0x100000

/-- The access types of the register at `a`; `none` for a reserved address (09 R263). -/
def accOf (a : Nat) : Option Access3 :=
  if inCcw a then coreAcc ((a - ccw 0) % 0x100000)
  else if inCdcw a then cacheAcc ((a - cdcw 0) % 0x100000)
  else if inCvuw a then cvuAcc ((a - cvuw 0) % 0x40)
  else pgmAcc a <|> rglAcc a <|> fabAcc a <|> hptAcc a <|> pwrAcc a <|> sorAcc a <|> secAcc a

/-! ## Fields that show other state -/

/-- Bits `i` of `n` for which `p` holds, bit `i` at `lo` + `i`. -/
def flagBits (n lo : Nat) (p : Nat → Bool) : Nat :=
  (List.range n).foldl (fun a i => if p i then a + 2 ^ (lo + i) else a) 0

/-- A field at `lo`. -/
def fld (lo v : Nat) : Nat := v * 2 ^ lo

/-- A release drains: a task that admits no further group still holds its position. -/
def draining (t : Option Task) : Bool := match t with
  | some t => t.aborted || decide (t.ngroups ≤ t.admitted)
  | none => false

/-- CORE_TASK_STATUS (Table 2.5). -/
def taskStatus (c : Core) : Nat :=
  let groups := (slots.filter fun s => (getGroup c s).isSome).length
  let tasks := b2n c.task0.isSome + b2n c.task1.isSome
  fld 20 (regFree c) + fld 14 groups + fld 12 tasks +
    b2n (decide (groups = 0) && !draining c.task0 && !draining c.task1)

/-- CORE_GROUP_STATUS_g (Table 2.6). DESIGN CHOICE (log 68): STALL_AGE shows its largest value once the count exceeds
the field. -/
def groupStatus (c : Core) (s : Nat) : Nat :=
  match getGroup c s with
  | none => 0
  | some g =>
    let count (p : Lane → Bool) : Nat := ((List.range 32).filter fun t => p (laneOf g t)).length
    let parked (l : Lane) : Bool := isLive l && !isActive l
    let age := if (parkedLane g).isSome then min (g.stall / 1024) (2 ^ 25 - 1) else 0
    fld 63 1 + fld 62 (b2n g.pos) + fld 53 g.alloc + fld 47 (count isActive) + fld 41 (count parked) +
      fld 35 (count fun l => !isLive l) + fld 10 age

/-- CORE_MX_STATUS (Table 4.20). -/
def mxStatus (d : Dev) (n : Nat) : Nat :=
  let m := getMx d n
  let used := m.q.flatMap fun o => writesTiles o ++ readsTiles o
  let held := match m.q.find? fun o => decide (o.kind = .mma) && !o.started with
    | some o => noticeHeld d n o.pos
    | none => false
  flagBits 16 48 (fun i => (getTile m i).poison) + flagBits 16 32 (fun i => (getTile m i).int) +
    flagBits 16 16 (fun i => used.contains i) + fld 11 m.q.length + fld 10 (b2n held) +
    flagBits 8 0 fun i => (getBank m (i / 2) (i % 2)).valid

/-- CORE_RU_STATUS (Table 5.7). -/
def ruStatus (c : Core) : Nat :=
  let mode (s : Nat) : Nat := match (getRs c s).mode with
    | .empty => 0
    | .smax => 1
    | .stat => 2
  flagBits 4 16 (fun s => (getRs c s).poison) + flagBits 4 12 (fun s => (getRs c s).sealed) +
    fld 4 (mode 0) + fld 6 (mode 1) + fld 8 (mode 2) + fld 10 (mode 3) +
    b2n (c.mx.q.any fun o => isRu o.kind && o.started)

/-- CORE_FFX_STATUS (Table 6.8). -/
def ffxStatus (c : Core) : Nat :=
  let f := c.ffx
  let vs := (List.range 4).map (getSlot f)
  flagBits 16 24 (fun i => vs.any fun v => v.valid && bit v.lutMask i) + flagBits 4 20 (fun s => (getSlot f s).valid) +
    flagBits 4 16 (fun s => (getSlot f s).loading) + fld 14 (f.active % 4) +
    fld 13 (b2n (ffxSwitching f)) + fld 12 (b2n (ffxRunning f != [])) + fld 8 (min f.q.length 15)

/-- CORE_FFX_INFO_s (Table 6.9). -/
def ffxInfo (v : FfxSlot) : Nat :=
  if v.valid then
    fld 48 v.lutMask.toNat + fld 40 (v.lat % 256) + fld 32 (v.ii % 256) + fld 24 (v.copies % 8) + fld 20 (v.nIn % 16) +
      fld 17 (v.nOut % 8) + v.cfgBytes / 64 % 1024
  else 0

/-- SPX_PORT_STATUS (Table 7.9). -/
def spxStatus (s : Spx) : Nat :=
  let pending := s.hands.flatMap fun h => h.banks.map (·.1)
  fld 48 (min s.q.length 15) + fld 16 s.queued.toNat + flagBits 16 0 fun b => pending.contains b

/-- SPX_TASK_BANKS (Table 7.11). -/
def taskBanks (c : Core) : Nat :=
  let m (t : Option Task) : Nat := match t with
    | some t => t.banks.toNat
    | none => 0
  fld 16 (m c.task1) + m c.task0

/-- The word of a core's window. -/
def coreView (d : Dev) (n o : Nat) : D64 :=
  let c := getCore d n
  if o = 0x48 then BitVec.ofNat 64 (taskStatus c)
  else if inSeries o 0x200 8 32 then BitVec.ofNat 64 (groupStatus c ((o - 0x200) / 8))
  else if o = 0x100 then BitVec.ofNat 64 (mxStatus d n)
  else if o = 0x118 then BitVec.ofNat 64 (ruStatus c)
  else if o = 0x120 then BitVec.ofNat 64 (ffxStatus c)
  else if inSeries o 0x140 16 4 then BitVec.ofNat 64 (ffxInfo (getSlot c.ffx ((o - 0x140) / 16)))
  else if inSeries o 0x148 16 4 then
    let v := getSlot c.ffx ((o - 0x148) / 16)
    if v.valid then v.config else 0
  else if o = 0x300 then BitVec.ofNat 64 c.spx.owner.toNat
  else if o = 0x308 then BitVec.ofNat 64 (spxStatus c.spx)
  else if o = 0x310 then BitVec.ofNat 64 c.spx.bstate.toNat
  else if o = 0x318 then BitVec.ofNat 64 (taskBanks c)
  else if inSeries o 0x340 8 16 then
    let b := (o - 0x340) / 8
    if bankState c.spx b = bankRetain then BitVec.ofNat 64 (mapGet 0 c.spx.tags b).toNat else 0
  else regGet d (ccw n + o)

/-- Every line of a half. -/
def halfLines (d : Dev) (h : Nat) : List CLine :=
  (slicesOf d h).flatMap fun s => (getSlice d s).sets.flatMap (·.2)

/-- CDC_SLICE_s (Table 8.16). -/
def sliceView (v : Slice) : Nat :=
  fld 47 v.retired.toNat + fld 42 (v.spareFor % 32) + fld 37 (waysOf v) + fld 32 (waysOf v - 4)

/-- The word of a half's window. -/
def cacheView (d : Dev) (h o : Nat) : D64 :=
  if o = 0x8 then
    setBits (regGet d (aCdcStatus h)) 32 16 (min ((halfLines d h).filter (·.poison)).length 65535)
  else if inSeries o 0x40 8 4 then
    let l := (halfLines d h).filter fun c => c.pinned && decide (ptePinClass c.pte = (o - 0x40) / 8)
    BitVec.ofNat 64 (fld 32 ((l.map fun c => sectCount c.sect).foldl (· + ·) 0) + l.length)
  else if inSeries o 0x80000 8 1024 then BitVec.ofNat 64 (sliceView (getSlice d (1024 * h + (o - 0x80000) / 8)))
  else regGet d (cdcw h + o)

/-- FAB_LOV_STATUS (Table 11.16). -/
def lovStatus (d : Dev) : Nat :=
  let n (p : LovCtx → Bool) : Nat := (d.lov.filter fun e => p e.2).length
  let used := (d.lov.map fun e => e.2.store).foldl (· + ·) 0
  fld 34 (16384 - used / 1024) + fld 23 (n lcLive) + fld 12 (n fun x => decide (lcState x = lcRunning)) +
    fld 1 (n fun x => decide (lcState x = lcError))

/-- The word of a fabric register. -/
def fabView (d : Dev) (a : Nat) : D64 :=
  if a = aRtData then BitVec.ofNat 64 (routeEntry d (regField d aRtIndex 0 17)).toNat
  else if a = aLovStatus then BitVec.ofNat 64 (lovStatus d)
  else if inSeries a (aFabPort 0) 8 8 then
    let v := getLink d ((a - aFabPort 0) / 8)
    setBits (setBits (setBits (regGet d a) 61 3 v.st) 60 1 (b2n v.degraded)) 41 17 v.peer
  else if inSeries a (aLovCtx 0) 8 8192 then
    let i := (a - aLovCtx 0) / 8
    BitVec.ofNat 64 (bits (getCtx d (i / 8)).image (64 * (i % 8)) 64)
  else regGet d a

/-- HPT_PORT_STATUS_p (Table 12.3): an enabled, powered port without link is DOWN. -/
def hptView (d : Dev) (p : Nat) : D64 :=
  let v := getHost d p
  let st := if listening d p then 1 else if v.link then 2 else 0
  let n := (d.hpt.shakes.filter fun s => decide (s.port = p)).length
  setBits (setBits (setBits (regGet d (aHptStatus p)) 61 3 st) 60 1 (b2n v.pausing)) 32 8 n

/-- The clock of an AWAKE cluster in MHz: CLOCK_MHZ lowered by an eighth per throttle level and stopped at T7, halved
in a droop episode (14 R432, R446). -/
def clusterMhz (d : Dev) (c : Nat) : Nat :=
  let f := if levelOf d c = 7 then 0 else regField d aEnv 0 16 * (8 - levelOf d c) / 8
  if bit (regGet d (aSorCluster c)) 54 then f / 2 else f

/-- PWR_CLUSTER_c (Table 13.18). Sleep entry shows SLEEP. -/
def clusterView (d : Dev) (c : Nat) : D64 :=
  let k := getCluster d c
  let st := match k.st with
    | .off => 0
    | .sleep | .entering => 1
    | .waking => 2
    | .awake => 3
  let f := if k.st = .awake then clusterMhz d c else 0
  setBits (setBits (setBits (regGet d (aCluster c)) 62 2 st) 16 16 f) 0 8 (min k.ups.length 255)

/-- PWR_CLK_STATUS (Table 13.15): an optical port has lock when it is UP. -/
def clkView (d : Dev) : D64 :=
  let lock (i : Nat) : Bool := if i < 2 then (getHost d i).link else portUp d (i - 2)
  regGet d aClkStatus ||| BitVec.ofNat 64 (flagBits 10 30 lock)

/-- SOR_TS_j (Table 14.20). -/
def sensorView (d : Dev) (j : Nat) : D64 :=
  let s := getSensor d j
  let kind := if isMasked d j then 7 else s.kind
  BitVec.ofNat 64 (fld 63 (b2n (decide (s.kind ≠ 0))) + fld 60 kind + fld 16 (wrap 16 s.raw) + wrap 16 (sensorValue d j))

/-- Eight bytes of the error log ring (15 R453). -/
def ringView (d : Dev) (i : Nat) : D64 :=
  match d.funnel.ring.find? fun e => decide (e.1 = i / 8) with
  | some e => BitVec.ofNat 64 (fieldAt (recordBytes e.2) (8 * (i % 8)) 8)
  | none => 0

/-- The word of a SOR_ register. -/
def sorView (d : Dev) (a : Nat) : D64 :=
  if inSeries a (aRuleState 0) 8 64 then
    BitVec.ofNat 64 (flagBits 64 0 fun e => (getEl d ((a - aRuleState 0) / 8) e).fired)
  else if inSeries a (aTs 0) 8 2224 then sensorView d ((a - aTs 0) / 8)
  else if a = aErrStatus then setBits (regGet d a) 16 48 d.funnel.seq
  else if inSeries a aErrRing 8 8192 then ringView d ((a - aErrRing) / 8)
  else regGet d a

/-- What a read of the register at `a` returns. -/
def regView (d : Dev) (a : Nat) : D64 :=
  if inCcw a then coreView d (ccwCore a) ((a - ccw 0) % 0x100000)
  else if inCdcw a then cacheView d (cdcwHalf a) ((a - cdcw 0) % 0x100000)
  else if inCvuw a then
    let u := (a - cvuw 0) / 0x40
    if (a - cvuw 0) % 0x40 = 0x28 then BitVec.ofNat 64 (cvResult d u)
    else if (a - cvuw 0) % 0x40 = 0x20 then BitVec.ofNat 64 ((regGet d a).toNat % 2 ^ cvWidth (regGet d (cvCtrl u)))
    else regGet d a
  else if inSeries a 0x7B0000000000 8 524288 then pmapEntry d ((a - 0x7B0000000000) / 8)
  else if inSeries a (aHptStatus 0) 0x100 2 then hptView d ((a - aHptStatus 0) / 0x100)
  else if inSeries a (aCluster 0) 8 64 then clusterView d ((a - aCluster 0) / 8)
  else if a = aClkStatus then clkView d
  else if (fabAcc a).isSome then fabView d a
  else sorView d a

/-! ## Reads (R14; 09 R263; 02 R67) -/

/-- The window of a fenced core. -/
def fencedWindow (d : Dev) (a : Nat) : Bool := inCcw a && coreFenced d (ccwCore a)

/-- RC fields take their reset value. -/
def clearRc (d : Dev) (a : Nat) (m : D64) : Dev :=
  if m = 0 then d else regPut d a ((regGet d a &&& ~~~m) ||| (regReset a &&& m))

/-- A read by control processor core `cp`: the word, and the state after it. A reserved address reads 0 and is
logged. The device address window is open to firmware but not to management, core 3 (09 Table 9.1): it is read as
master 2,123 in TC7, and a read that does not end well reads 0 and is logged as a failed command (15 Table 15.2; log
18). -/
def readRegister (cp a : Nat) (d : Dev) : D64 × Dev :=
  if fencedWindow d a then (0, d)
  else if inDevice a 8 ∧ cp ≠ 3 then
    match readDev (spendRange d 2123 a 8) 7 a 8 with
    | ((0, bs), d) => (BitVec.ofNat 64 (bytesNat bs), d)
    | ((s, _), d) => (0, fwRecord d cp 0x04 a s 0)
  else match accOf a with
    | none => (0, fwRecord d cp 0x01 a 0 0)
    | some t => (regView d a, clearRc d a t.rc)

/-- The budget of the control processor complex holds firmware's accesses to device memory (10 R314, R315). -/
def firmwareHeld (d : Dev) (a : Nat) : Bool := inDevice a 8 && !budgetOk d 2123

/-- REGISTER_READ_CLEAR: firmware reads a register; RC fields are returned and cleared (R14). -/
def registerReadClear (addr : BitVec 47) (d : Dev) : Option Dev :=
  if firmwareHeld d addr.toNat then none
  else
    let (v, d) := readRegister 1 addr.toNat d
    some { d with lastRead := v }

/-! ## Writes -/

/-- A write by access type: RW fields are set, a 1 clears a W1C bit, everything else is ignored (R14). -/
def plainWrite (d : Dev) (a : Nat) (t : Access3) (v : D64) : Dev :=
  let w := regGet d a
  regPut d a ((w &&& ~~~t.rw &&& ~~~(t.w1c &&& v)) ||| (v &&& t.rw))

/-- A write of FAB_LOV_CMD (11 R344). -/
def lovCmdWrite (v : D64) (d : Dev) : Dev :=
  let c := BitVec.ofNat 10 (bits v 0 10)
  match bits v 10 2 with
  | 0 => lovageOpen c d
  | 1 => lovageStart c d
  | 2 => lovageClose c d
  | _ => lovageAbort c d

/-- A write of PWR_CLUSTER_c: its RW fields, then SLEEP and WAKE (13 R420, R421). -/
def clusterWrite (c : Nat) (v : D64) (d : Dev) : Dev :=
  let d := plainWrite d (aCluster c) (rwAcc 0x2000FFFF00000000) v
  let d := if bit v 60 then clusterSleepRequest (BitVec.ofNat 6 c) d else d
  if bit v 59 then clusterWakeRequest (BitVec.ofNat 6 c) d else d

/-- A write of a CVU_ register (15 R468). -/
def cvuWrite (u o : Nat) (v : D64) (d : Dev) : Dev :=
  let n := BitVec.ofNat 5 u
  match o with
  | 0x00 => cvuCtrlWrite n v d
  | 0x08 => cvuConfigWrite n .filter v d
  | 0x10 => cvuConfigWrite n .poly v d
  | 0x18 => cvuConfigWrite n .xorOut v d
  | 0x20 => cvuConfigWrite n .value v d
  | 0x38 => cvuConfigWrite n .bytes v d
  | _ => d

/-- A write in a half's window: the registers with behaviour of their own, else by access type. -/
def cacheWrite (h o : Nat) (t : Access3) (v : D64) (d : Dev) : Dev :=
  if o = 0x10 then writebackAll (BitVec.ofNat 1 h) v d
  else if o = 0xD0 then cntClear (BitVec.ofNat 1 h) v d
  else if inSeries o 0x80000 8 1024 then bankRetire (BitVec.ofNat 11 (1024 * h + (o - 0x80000) / 8)) v d
  else plainWrite d (cdcw h + o) t v

/-- A write in a core's window. -/
def coreWrite (n o : Nat) (t : Access3) (v : D64) (d : Dev) : Dev :=
  if o = 0x310 then spxBankStateWrite (BitVec.ofNat 11 n) v d else plainWrite d (ccw n + o) t v

/-- A write of a register outside the core and cache die windows. -/
def baseWrite (a : Nat) (t : Access3) (v : D64) (d : Dev) : Dev :=
  if inCvuw a then cvuWrite ((a - cvuw 0) / 0x40) ((a - cvuw 0) % 0x40) v d
  else if inSeries a 0x7B0000000000 8 524288 then pageMapWrite (BitVec.ofNat 19 ((a - 0x7B0000000000) / 8)) 8 v d
  else if a = aShoot then shootdownStart v d
  else if inSeries a (aMissShare 0) 8 8 then missShareWrite (BitVec.ofNat 3 ((a - aMissShare 0) / 8)) v d
  else if inSeries a (aMcqShare 0) 8 8 then mcqShareWrite (BitVec.ofNat 3 ((a - aMcqShare 0) / 8)) v d
  else if a = aRtData then routeEntryWrite v d
  else if a = aLovCmd then lovCmdWrite v d
  else if inSeries a (aLovCtx 0) 8 8192 then
    let i := (a - aLovCtx 0) / 8
    lovageContextWrite (BitVec.ofNat 10 (i / 8)) (BitVec.ofNat 3 (i % 8)) v d
  else if inSeries a (aCluster 0) 8 64 then clusterWrite ((a - aCluster 0) / 8) v d
  else if a = aEnv then envelopeSwitch v d
  else if a = aSensorClr then sensorClear v d
  else if inSeries a (aRuleLo 0) 16 64 then sorRuleWrite (BitVec.ofNat 6 ((a - aRuleLo 0) / 16)) false v d
  else if inSeries a (aRuleHi 0) 16 64 then sorRuleWrite (BitVec.ofNat 6 ((a - aRuleHi 0) / 16)) true v d
  else if a = aErrInject then errInjectArm v d
  else if a = aResetCtrl then resetCtrlWrite v d
  else plainWrite d a t v

/-- A write by control processor core `cp`: the register's own behaviour where it has one, else its access types.
A fenced core's window ignores it; a reserved address ignores and logs it (R14; 02 R67; 09 R263). In the device
address window it writes 8 bytes (09 Table 9.1). -/
def writeRegister (cp a : Nat) (v : D64) (d : Dev) : Dev :=
  if fencedWindow d a then d
  else if inDevice a 8 ∧ cp ≠ 3 then
    match writeDev (spendRange d 2123 a 8) 7 a (natBytes 8 v.toNat) with
    | (0, d) => d
    | (s, d) => fwRecord d cp 0x04 a s 0
  else match accOf a with
    | none => fwRecord d cp 0x01 a v.toNat 0
    | some t =>
      if inCcw a then coreWrite (ccwCore a) ((a - ccw 0) % 0x100000) t v d
      else if inCdcw a then cacheWrite (cdcwHalf a) ((a - cdcw 0) % 0x100000) t v d
      else baseWrite a t v d

/-- REGISTER_WRITE: firmware writes a register. -/
def registerWrite (addr : BitVec 47) (v : D64) (d : Dev) : Option Dev :=
  if firmwareHeld d addr.toNat then none else some (writeRegister 1 addr.toNat v d)

/-! ## The commands of this family -/

/-- REGISTER_READ_CLEAR (00 R14). -/
def execRegisterReadClear (addr : BitVec 47) (s : State) : Host.Outcome State Fault Refusal :=
  gated s "REGISTER_READ_CLEAR" (registerReadClear addr s.dev)
/-- REGISTER_WRITE (00 R14). -/
def execRegisterWrite (addr : BitVec 47) (v : BitVec 64) (s : State) : Host.Outcome State Fault Refusal :=
  gated s "REGISTER_WRITE" (registerWrite addr v s.dev)

end Sys2Proof.Machine
end

