-- ==== Sys2Proof/Machine/Security.lean ====
section
/-! DEFINITION. The management link, the owner list, debug tokens and boundary scan (13 R396, R398, R400; 16 R497, R498, R499). -/

namespace Sys2Proof.Machine

/-! ## The management link (13 R396, 14 R448, 15 R453) -/

/-- Run an access of the management link: its FIRMWARE records carry control processor core 3 in place of core 1
(15 R454), whose queue stands aside meanwhile. -/
def asManagement (f : Dev → Dev) (d : Dev) : Dev :=
  let k1 := (src 8 1).toNat
  let k3 := (src 8 3).toNat
  let swap (d : Dev) : Dev :=
    let q := d.funnel.srcq
    let o := d.funnel.overflow
    { d with funnel := { d.funnel with
      srcq := mapPut [] (mapPut [] q k1 (mapGet [] q k3)) k3 (mapGet [] q k1),
      overflow := mapPut false (mapPut false o k1 (mapGet false o k3)) k3 (mapGet false o k1) } }
  let d := swap (f (swap d))
  let q := d.funnel.srcq
  { d with funnel := { d.funnel with
    srcq := mapPut [] q k3 ((mapGet [] q k3).map fun r => { r with source := src 8 3 }) } }

/-- The next alert-class record that management reads; PENDING counts those it has not read. -/
def readAlert (d : Dev) : Dev :=
  match d.funnel.mgmtq with
  | [] => { d with sor := { d.sor with mgmtOut := [] } }
  | r :: rs =>
    let d := { d with funnel := { d.funnel with mgmtq := rs }, sor := { d.sor with mgmtOut := [r] } }
    regSet d aAlertCfg 16 16 (min rs.length 65535)

/-- MANAGEMENT_MESSAGE: one message of the management link while Sorrel runs (13 R396). -/
def managementMessage (m : MgmtMsg) (d : Dev) : Option Dev :=
  if !d.sor.running then none
  else some (match m with
    | .assignAddress a => { d with sor := { d.sor with smbus := a.toNat } }
    | .readEvent => readAlert d
    | .readFlashLog => { d with sor := { d.sor with mgmtOut := d.flash.log } }
    | .readRegister a =>
      let (v, d) := readRegister 3 a.toNat d
      { d with sor := { d.sor with mgmtRead := v } }
    | .writeRegister a v => asManagement (writeRegister 3 a.toNat v) d
    | .moduleReset => moduleReset d 2)

/-! ## The owner list (16 R497) -/

/-- OWNER_LIST_CHANGE: a change signed by an entry of the list takes effect at once, one whose signature fails
changes nothing; an unsigned one replaces the list after a device warm reset. The list holds up to 8 digests (12 R368). -/
def ownerListChange (signed_ sigOk : Bool) (signer : BitVec 512) (keys : List (BitVec 512)) (d : Dev) : Option Dev :=
  if !d.sor.running ∨ 8 < keys.length then none
  else
    let store (d : Dev) : Dev := { d with flash := { d.flash with owners := some keys } }
    let listed := match d.flash.owners with
      | some l => l.contains signer
      | none => false
    some (if signed_ then (if sigOk && listed then store d else d) else store (warmReset d 10))

/-! ## Debug (16 R498) -/

/-- DEBUG_TOKEN: a token that fits in every respect is logged, a device warm reset wipes the dies, DEBUG locks the
identity, and its scope of scan opens; any other changes nothing. -/
def debugToken (t : Token) (d : Dev) : Option Dev :=
  if !d.sor.rails then none
  else if t.fusedId = d.fuses.fusedId ∧ d.boot.nonce = some t.nonce ∧ t.sigOk then
    let d := acceptRecord d (mkRec (src 12 0) 0 0x0605 sevCritical 0 0 0 0)
    let d := regSet (warmReset d 6) aSecBoot 62 1 1
    some { d with boot := { d.boot with scan := t.scope } }
  else some d

/-- BOUNDARY_SCAN: a scan of pin states changes nothing; a read of the debug nonce offers a fresh one, which
stands until the next or the next power-on reset. -/
def boundaryScan (nonceRead : Bool) (d : Dev) : Option Dev :=
  if !nonceRead then some d
  else if !d.sor.rails then none
  else
    let (bs, d) := freshBytes d 13 32
    some { d with boot := { d.boot with nonce := some (BitVec.ofNat 256 (bytesNat bs)) } }

/-! ## The commands of this family -/

/-- MANAGEMENT_MESSAGE (13 R396). -/
def execManagementMessage (m : MgmtMsg) (s : State) : Host.Outcome State Fault Refusal :=
  gated s "MANAGEMENT_MESSAGE" (managementMessage m s.dev)
/-- OWNER_LIST_CHANGE (16 R497). -/
def execOwnerListChange (signed sigOk : Bool) (signer : BitVec 512) (keys : List (BitVec 512)) (s : State) : Host.Outcome State Fault Refusal :=
  gated s "OWNER_LIST_CHANGE" (ownerListChange signed sigOk signer keys s.dev)
/-- DEBUG_TOKEN (16 R498). -/
def execDebugToken (t : Token) (s : State) : Host.Outcome State Fault Refusal :=
  gated s "DEBUG_TOKEN" (debugToken t s.dev)
/-- BOUNDARY_SCAN (16 R498). -/
def execBoundaryScan (nonceRead : Bool) (s : State) : Host.Outcome State Fault Refusal :=
  gated s "BOUNDARY_SCAN" (boundaryScan nonceRead s.dev)

end Sys2Proof.Machine
end

