-- ==== Sys2Proof/Machine/Clock.lean ====
section
/-! DEFINITION. What passes while no command waits: one microsecond (log 1), with the counters that count time (02
R59, 03 R81, 13 R419), the packets on the networks (10 R305), the sweeps of WRITEBACK_ALL (08 R256) and the frames that leave the host ports (12 R360). -/

namespace Sys2Proof.Machine

/-- The base clock runs (13 Table 13.15). -/
def baseClock (d : Dev) : Bool := bit (regGet d aClkStatus) 59

/-- A group that waits at a barrier counts the core cycles (02 R59). -/
def stallGroup (cycles : Nat) (g : Group) : Group :=
  if (parkedLane g).isSome then { g with stall := g.stall + cycles } else g

/-- Core cycles pass on one core. -/
def stallCore (cycles : Nat) (c : Core) : Core :=
  { c with groups := c.groups.map fun e => (e.1, e.2.map (stallGroup cycles)) }

/-- Core cycles that a cluster's cores see in one microsecond. -/
def cyclesIn (d : Dev) (c : Nat) : Nat := if (getCluster d c).st = .awake then clusterMhz d c else 0

/-- The frames a port has queued leave it, when it has link and is not paused. -/
def sendQueued (d : Dev) (v : HostPort) : HostPort := if v.link && d.sor.rails && !v.paused then { v with txq := [], nbrs := [] } else v

/-- A port in LISTEN has no link; what it had queued has left it first (12 R361, R385). -/
def dropLink (d : Dev) (p : Nat) (v : HostPort) : HostPort := if listening d p && decide (v.txq = []) then { v with link := false } else v

/-- One microsecond. -/
def tick (d0 : Dev) : Dev :=
  let d := sweepTick (linkTick d0)
  let d1 := if baseClock d then regPut d aUsec (regGet d aUsec + 1) else d
  { d1 with
    now := d.now + 1,
    clusters := d.clusters.map fun e => (e.1, { e.2 with cycles := e.2.cycles + BitVec.ofNat 64 (cyclesIn d e.1) }),
    cores := d.cores.map fun e => (e.1, stallCore (cyclesIn d (e.1 / 32)) e.2),
    hpt := { d.hpt with ports := d.hpt.ports.filterMap fun e =>
      let v := dropLink d e.1 (sendQueued d e.2)
      if v = idleHost then none else some (e.1, v) } }

end Sys2Proof.Machine
end

