-- ==== Sys2Proof/Machine/Dispatch.lean ====
section
/-! DEFINITION. Which meaning runs each command: one arm per row of the opcode table. -/

namespace Sys2Proof.Machine

def exec (i : Instr) (s : State) : Host.Outcome State Fault Refusal :=
  match i with
  | .iadd x f => Sys2Proof.Machine.execIadd x f s
  | .isub x f => Sys2Proof.Machine.execIsub x f s
  | .imul x f => Sys2Proof.Machine.execImul x f s
  | .imulhi x f => Sys2Proof.Machine.execImulhi x f s
  | .imad x f => Sys2Proof.Machine.execImad x f s
  | .imin x f => Sys2Proof.Machine.execImin x f s
  | .imax x f => Sys2Proof.Machine.execImax x f s
  | .iabs x f => Sys2Proof.Machine.execIabs x f s
  | .lmux x f => Sys2Proof.Machine.execLmux x f s
  | .shl x f => Sys2Proof.Machine.execShl x f s
  | .shr x f => Sys2Proof.Machine.execShr x f s
  | .bfe x f => Sys2Proof.Machine.execBfe x f s
  | .bfi x f => Sys2Proof.Machine.execBfi x f s
  | .popc x f => Sys2Proof.Machine.execPopc x f s
  | .clz x f => Sys2Proof.Machine.execClz x f s
  | .brev x f => Sys2Proof.Machine.execBrev x f s
  | .ipred x f => Sys2Proof.Machine.execIpred x f s
  | .sel x f => Sys2Proof.Machine.execSel x f s
  | .mov x f => Sys2Proof.Machine.execMov x f s
  | .iaddi x f => Sys2Proof.Machine.execIaddi x f s
  | .movi x f => Sys2Proof.Machine.execMovi x f s
  | .movl x f => Sys2Proof.Machine.execMovl x f s
  | .shfl x f => Sys2Proof.Machine.execShfl x f s
  | .rdsys x f => Sys2Proof.Machine.execRdsys x f s
  | .fadd x f => Sys2Proof.Machine.execFadd x f s
  | .fmul x f => Sys2Proof.Machine.execFmul x f s
  | .ffma x f => Sys2Proof.Machine.execFfma x f s
  | .fmin x f => Sys2Proof.Machine.execFmin x f s
  | .fmax x f => Sys2Proof.Machine.execFmax x f s
  | .fpred x f => Sys2Proof.Machine.execFpred x f s
  | .frcpSeed x f => Sys2Proof.Machine.execFrcpSeed x f s
  | .frsqSeed x f => Sys2Proof.Machine.execFrsqSeed x f s
  | .f2i x f => Sys2Proof.Machine.execF2i x f s
  | .i2f x f => Sys2Proof.Machine.execI2f x f s
  | .f2f x f => Sys2Proof.Machine.execF2f x f s
  | .pack x f => Sys2Proof.Machine.execPack x f s
  | .unpack x f => Sys2Proof.Machine.execUnpack x f s
  | .plmux x f => Sys2Proof.Machine.execPlmux x f s
  | .vote x f => Sys2Proof.Machine.execVote x f s
  | .ppack x f => Sys2Proof.Machine.execPpack x f s
  | .punpack x f => Sys2Proof.Machine.execPunpack x f s
  | .dot4I8 x f => Sys2Proof.Machine.execDot4I8 x f s
  | .dot8I4 x f => Sys2Proof.Machine.execDot8I4 x f s
  | .dot2F16 x f => Sys2Proof.Machine.execDot2F16 x f s
  | .dot2Bf16 x f => Sys2Proof.Machine.execDot2Bf16 x f s
  | .dot4F8 x f => Sys2Proof.Machine.execDot4F8 x f s
  | .dot8F4 x f => Sys2Proof.Machine.execDot8F4 x f s
  | .bra x f => Sys2Proof.Machine.execBra x f s
  | .brx x f => Sys2Proof.Machine.execBrx x f s
  | .call x f => Sys2Proof.Machine.execCall x f s
  | .callx x f => Sys2Proof.Machine.execCallx x f s
  | .yield x f => Sys2Proof.Machine.execYield x f s
  | .barGrp x f => Sys2Proof.Machine.execBarGrp x f s
  | .barCore x f => Sys2Proof.Machine.execBarCore x f s
  | .exit x f => Sys2Proof.Machine.execExit x f s
  | .trap x f => Sys2Proof.Machine.execTrap x f s
  | .nop x f => Sys2Proof.Machine.execNop x f s
  | .ualu x f => Sys2Proof.Machine.execUalu x f s
  | .umovi x f => Sys2Proof.Machine.execUmovi x f s
  | .umovl x f => Sys2Proof.Machine.execUmovl x f s
  | .urdl x f => Sys2Proof.Machine.execUrdl x f s
  | .ld x f => Sys2Proof.Machine.execLd x f s
  | .ldLast x f => Sys2Proof.Machine.execLdLast x f s
  | .st x f => Sys2Proof.Machine.execSt x f s
  | .ldc x f => Sys2Proof.Machine.execLdc x f s
  | .ldd x f => Sys2Proof.Machine.execLdd x f s
  | .cachePref x f => Sys2Proof.Machine.execCachePref x f s
  | .cacheDead x f => Sys2Proof.Machine.execCacheDead x f s
  | .cachePin x f => Sys2Proof.Machine.execCachePin x f s
  | .cacheUnpin x f => Sys2Proof.Machine.execCacheUnpin x f s
  | .spxLd x f => Sys2Proof.Machine.execSpxLd x f s
  | .spxSt x f => Sys2Proof.Machine.execSpxSt x f s
  | .spxFill x f => Sys2Proof.Machine.execSpxFill x f s
  | .spxCopy x f => Sys2Proof.Machine.execSpxCopy x f s
  | .spxHandover x f => Sys2Proof.Machine.execSpxHandover x f s
  | .spxWait x f => Sys2Proof.Machine.execSpxWait x f s
  | .fenceAcq x f => Sys2Proof.Machine.execFenceAcq x f s
  | .fenceRel x f => Sys2Proof.Machine.execFenceRel x f s
  | .fenceSc x f => Sys2Proof.Machine.execFenceSc x f s
  | .fenceI x f => Sys2Proof.Machine.execFenceI x f s
  | .fenceRo x f => Sys2Proof.Machine.execFenceRo x f s
  | .atomAdd x f => Sys2Proof.Machine.execAtomAdd x f s
  | .atomMin x f => Sys2Proof.Machine.execAtomMin x f s
  | .atomMax x f => Sys2Proof.Machine.execAtomMax x f s
  | .atomAnd x f => Sys2Proof.Machine.execAtomAnd x f s
  | .atomOr x f => Sys2Proof.Machine.execAtomOr x f s
  | .atomXor x f => Sys2Proof.Machine.execAtomXor x f s
  | .atomExch x f => Sys2Proof.Machine.execAtomExch x f s
  | .atomCas x f => Sys2Proof.Machine.execAtomCas x f s
  | .loadDataReturn core id => Sys2Proof.Machine.execLoadDataReturn core id s
  | .atomicReturn core id => Sys2Proof.Machine.execAtomicReturn core id s
  | .storeAcknowledge core id => Sys2Proof.Machine.execStoreAcknowledge core id s
  | .fenceDrained x => Sys2Proof.Machine.execFenceDrained x s
  | .faultBarrierStall x => Sys2Proof.Machine.execFaultBarrierStall x s
  | .coreBarLimitWrite core v => Sys2Proof.Machine.execCoreBarLimitWrite core v s
  | .taskStart core queue item => Sys2Proof.Machine.execTaskStart core queue item s
  | .groupAdmit core pos => Sys2Proof.Machine.execGroupAdmit core pos s
  | .taskRelease core pos => Sys2Proof.Machine.execTaskRelease core pos s
  | .mxWld x f => Sys2Proof.Machine.execMxWld x f s
  | .mxSld x f => Sys2Proof.Machine.execMxSld x f s
  | .mxMma x f => Sys2Proof.Machine.execMxMma x f s
  | .mxDrain x f => Sys2Proof.Machine.execMxDrain x f s
  | .mxTzero x f => Sys2Proof.Machine.execMxTzero x f s
  | .mxWait x f => Sys2Proof.Machine.execMxWait x f s
  | .mxMmaStreamStart core => Sys2Proof.Machine.execMxMmaStreamStart core s
  | .mxMmaComplete core => Sys2Proof.Machine.execMxMmaComplete core s
  | .tileMoverOpStart core => Sys2Proof.Machine.execTileMoverOpStart core s
  | .tileMoverOpComplete core => Sys2Proof.Machine.execTileMoverOpComplete core s
  | .ruMap x f => Sys2Proof.Machine.execRuMap x f s
  | .ruSmax1 x f => Sys2Proof.Machine.execRuSmax1 x f s
  | .ruSmax2 x f => Sys2Proof.Machine.execRuSmax2 x f s
  | .ruStat x f => Sys2Proof.Machine.execRuStat x f s
  | .ruNorm x f => Sys2Proof.Machine.execRuNorm x f s
  | .ruRowout x f => Sys2Proof.Machine.execRuRowout x f s
  | .ruOpStart core => Sys2Proof.Machine.execRuOpStart core s
  | .ruOpComplete core => Sys2Proof.Machine.execRuOpComplete core s
  | .ffx x f => Sys2Proof.Machine.execFfx x f s
  | .ffxLds x f => Sys2Proof.Machine.execFfxLds x f s
  | .ffxLoadStart core => Sys2Proof.Machine.execFfxLoadStart core s
  | .ffxLoadComplete core => Sys2Proof.Machine.execFfxLoadComplete core s
  | .ffxSlotSwitch core => Sys2Proof.Machine.execFfxSlotSwitch core s
  | .ffxComplete core => Sys2Proof.Machine.execFfxComplete core s
  | .bankOwnerChange core hand bank => Sys2Proof.Machine.execBankOwnerChange core hand bank s
  | .bankWakeComplete core bank => Sys2Proof.Machine.execBankWakeComplete core bank s
  | .spxBankStateWrite core v => Sys2Proof.Machine.execSpxBankStateWrite core v s
  | .spxWindowAccess core acc => Sys2Proof.Machine.execSpxWindowAccess core acc s
  | .spxCorrectionWriteback core off => Sys2Proof.Machine.execSpxCorrectionWriteback core off s
  | .homeRead id => Sys2Proof.Machine.execHomeRead id s
  | .homeWrite id => Sys2Proof.Machine.execHomeWrite id s
  | .homeAtomic id => Sys2Proof.Machine.execHomeAtomic id s
  | .deadMark id => Sys2Proof.Machine.execDeadMark id s
  | .pinLine id => Sys2Proof.Machine.execPinLine id s
  | .unpinLine id => Sys2Proof.Machine.execUnpinLine id s
  | .prefLine id => Sys2Proof.Machine.execPrefLine id s
  | .missSlotFreed half cls => Sys2Proof.Machine.execMissSlotFreed half cls s
  | .lineFill id => Sys2Proof.Machine.execLineFill id s
  | .thrashWindowEnd half cls => Sys2Proof.Machine.execThrashWindowEnd half cls s
  | .writebackAll half v => Sys2Proof.Machine.execWritebackAll half v s
  | .writebackAllDone half => Sys2Proof.Machine.execWritebackAllDone half s
  | .cntClear half v => Sys2Proof.Machine.execCntClear half v s
  | .bankRetire slice v => Sys2Proof.Machine.execBankRetire slice v s
  | .pageMapWrite page bytes v => Sys2Proof.Machine.execPageMapWrite page bytes v s
  | .shootdownStart v => Sys2Proof.Machine.execShootdownStart v s
  | .shootdownDone => Sys2Proof.Machine.execShootdownDone s
  | .tlbMissFill who page => Sys2Proof.Machine.execTlbMissFill who page s
  | .memRetrainInterval ch => Sys2Proof.Machine.execMemRetrainInterval ch s
  | .burstCrcFail ch req fails => Sys2Proof.Machine.execBurstCrcFail ch req fails s
  | .memInitDone => Sys2Proof.Machine.execMemInitDone s
  | .scrubPassStart => Sys2Proof.Machine.execScrubPassStart s
  | .scrubRead tgt => Sys2Proof.Machine.execScrubRead tgt s
  | .bankAccessPerform slice bank arrivals => Sys2Proof.Machine.execBankAccessPerform slice bank arrivals s
  | .grantWatchdogExpiry res victim => Sys2Proof.Machine.execGrantWatchdogExpiry res victim s
  | .budgetWindow master => Sys2Proof.Machine.execBudgetWindow master s
  | .missShareWrite cls v => Sys2Proof.Machine.execMissShareWrite cls v s
  | .mcqShareWrite cls v => Sys2Proof.Machine.execMcqShareWrite cls v s
  | .linkTrained port => Sys2Proof.Machine.execLinkTrained port s
  | .linkKeyed port peer authOk => Sys2Proof.Machine.execLinkKeyed port peer authOk s
  | .linkRetryTimer port => Sys2Proof.Machine.execLinkRetryTimer port s
  | .laneFail port lane => Sys2Proof.Machine.execLaneFail port lane s
  | .linkDown port => Sys2Proof.Machine.execLinkDown port s
  | .flitReceive port flit => Sys2Proof.Machine.execFlitReceive port flit s
  | .retryReq port seq => Sys2Proof.Machine.execRetryReq port seq s
  | .messageForward port m => Sys2Proof.Machine.execMessageForward port m s
  | .putMessage port m => Sys2Proof.Machine.execPutMessage port m s
  | .getMessage port m => Sys2Proof.Machine.execGetMessage port m s
  | .atomicMessage port m => Sys2Proof.Machine.execAtomicMessage port m s
  | .msg port m => Sys2Proof.Machine.execMsg port m s
  | .reduce port m => Sys2Proof.Machine.execReduce port m s
  | .barrier port m => Sys2Proof.Machine.execBarrier port m s
  | .completion port m => Sys2Proof.Machine.execCompletion port m s
  | .getData port m => Sys2Proof.Machine.execGetData port m s
  | .atomicData port m => Sys2Proof.Machine.execAtomicData port m s
  | .fabRequestTimeout tag => Sys2Proof.Machine.execFabRequestTimeout tag s
  | .routeEntryWrite v => Sys2Proof.Machine.execRouteEntryWrite v s
  | .lovageContextWrite ctx word v => Sys2Proof.Machine.execLovageContextWrite ctx word v s
  | .lovageOpen ctx => Sys2Proof.Machine.execLovageOpen ctx s
  | .lovageStart ctx => Sys2Proof.Machine.execLovageStart ctx s
  | .lovageClose ctx => Sys2Proof.Machine.execLovageClose ctx s
  | .lovageAbort ctx => Sys2Proof.Machine.execLovageAbort ctx s
  | .lovageChunkComplete ctx chunk => Sys2Proof.Machine.execLovageChunkComplete ctx chunk s
  | .lovageTimeout ctx => Sys2Proof.Machine.execLovageTimeout ctx s
  | .heartbeatSend => Sys2Proof.Machine.execHeartbeatSend s
  | .memberHeartbeatTimeout member => Sys2Proof.Machine.execMemberHeartbeatTimeout member s
  | .fanoutTimeout id => Sys2Proof.Machine.execFanoutTimeout id s
  | .frameReceive port fr => Sys2Proof.Machine.execFrameReceive port fr s
  | .wakeFrame port => Sys2Proof.Machine.execWakeFrame port s
  | .pfcPause port prio xoff => Sys2Proof.Machine.execPfcPause port prio xoff s
  | .sessionHello port h => Sys2Proof.Machine.execSessionHello port h s
  | .sessionFinish port h => Sys2Proof.Machine.execSessionFinish port h s
  | .sessionClose q => Sys2Proof.Machine.execSessionClose q s
  | .handshakeTimeout id => Sys2Proof.Machine.execHandshakeTimeout id s
  | .sessionIdleTimeout session => Sys2Proof.Machine.execSessionIdleTimeout session s
  | .query q item nonce => Sys2Proof.Machine.execQuery q item nonce s
  | .telemetry q period => Sys2Proof.Machine.execTelemetry q period s
  | .telemetryPeriod session sub => Sys2Proof.Machine.execTelemetryPeriod session sub s
  | .setting q item value => Sys2Proof.Machine.execSetting q item value s
  | .map q page pages frame entry => Sys2Proof.Machine.execMap q page pages frame entry s
  | .unmap q page pages => Sys2Proof.Machine.execUnmap q page pages s
  | .pin q addr len => Sys2Proof.Machine.execPin q addr len s
  | .unpin q addr len => Sys2Proof.Machine.execUnpin q addr len s
  | .retirePage q migrate page => Sys2Proof.Machine.execRetirePage q migrate page s
  | .retireCacheBank q slice bank => Sys2Proof.Machine.execRetireCacheBank q slice bank s
  | .put q addr data => Sys2Proof.Machine.execPut q addr data s
  | .get q addr len => Sys2Proof.Machine.execGet q addr len s
  | .copy q src dst len engine cls => Sys2Proof.Machine.execCopy q src dst len engine cls s
  | .copyDescriptorComplete engine => Sys2Proof.Machine.execCopyDescriptorComplete engine s
  | .copyChannelRestart engine => Sys2Proof.Machine.execCopyChannelRestart engine s
  | .loadModule q pinCode addr len => Sys2Proof.Machine.execLoadModule q pinCode addr len s
  | .unloadModule q handle => Sys2Proof.Machine.execUnloadModule q handle s
  | .loadConfig q addr pin => Sys2Proof.Machine.execLoadConfig q addr pin s
  | .wqOpen q queue entries itemRing compRing => Sys2Proof.Machine.execWqOpen q queue entries itemRing compRing s
  | .wqClose q queue => Sys2Proof.Machine.execWqClose q queue s
  | .launch q d => Sys2Proof.Machine.execLaunch q d s
  | .signal q index add value => Sys2Proof.Machine.execSignal q index add value s
  | .wait q index timeoutUs value => Sys2Proof.Machine.execWait q index timeoutUs value s
  | .waitTimeout id => Sys2Proof.Machine.execWaitTimeout id s
  | .workItemStart queue => Sys2Proof.Machine.execWorkItemStart queue s
  | .workItemComplete queue item => Sys2Proof.Machine.execWorkItemComplete queue item s
  | .treeOpen q t image => Sys2Proof.Machine.execTreeOpen q t image s
  | .treeStart q t => Sys2Proof.Machine.execTreeStart q t s
  | .treeClose q t => Sys2Proof.Machine.execTreeClose q t s
  | .treeAbort q t => Sys2Proof.Machine.execTreeAbort q t s
  | .treeGenerationStart ctx => Sys2Proof.Machine.execTreeGenerationStart ctx s
  | .fenceCore q core => Sys2Proof.Machine.execFenceCore q core s
  | .reset q kind index => Sys2Proof.Machine.execReset q kind index s
  | .update q comp addr len im => Sys2Proof.Machine.execUpdate q comp addr len im s
  | .role q rl mgrValid managerId => Sys2Proof.Machine.execRole q rl mgrValid managerId s
  | .roleDeviceId q deviceId => Sys2Proof.Machine.execRoleDeviceId q deviceId s
  | .roleRouteEntries q first entries => Sys2Proof.Machine.execRoleRouteEntries q first entries s
  | .managementMessage m => Sys2Proof.Machine.execManagementMessage m s
  | .ownerListChange signed sigOk signer keys => Sys2Proof.Machine.execOwnerListChange signed sigOk signer keys s
  | .p54OutOfRange mv => Sys2Proof.Machine.execP54OutOfRange mv s
  | .p54Restart => Sys2Proof.Machine.execP54Restart s
  | .leakSenseSample ohms => Sys2Proof.Machine.execLeakSenseSample ohms s
  | .railReport rail mv cur => Sys2Proof.Machine.execRailReport rail mv cur s
  | .senseFault rail => Sys2Proof.Machine.execSenseFault rail s
  | .regulatorNotice cluster frame canBeReady => Sys2Proof.Machine.execRegulatorNotice cluster frame canBeReady s
  | .noticeAck cluster frame => Sys2Proof.Machine.execNoticeAck cluster frame s
  | .noticeLeadExpiry cluster seq => Sys2Proof.Machine.execNoticeLeadExpiry cluster seq s
  | .regulatorPhaseShed cluster => Sys2Proof.Machine.execRegulatorPhaseShed cluster s
  | .aonClockFail => Sys2Proof.Machine.execAonClockFail s
  | .refClockFail => Sys2Proof.Machine.execRefClockFail s
  | .refClockRetryLog => Sys2Proof.Machine.execRefClockRetryLog s
  | .clusterSleepRequest cluster => Sys2Proof.Machine.execClusterSleepRequest cluster s
  | .clusterWakeRequest cluster => Sys2Proof.Machine.execClusterWakeRequest cluster s
  | .clusterIdleTimeout cluster => Sys2Proof.Machine.execClusterIdleTimeout cluster s
  | .sleepEntryDone cluster => Sys2Proof.Machine.execSleepEntryDone cluster s
  | .clusterWakeDone cluster => Sys2Proof.Machine.execClusterWakeDone cluster s
  | .sorrelSample p => Sys2Proof.Machine.execSorrelSample p s
  | .ruleFire rule elem => Sys2Proof.Machine.execRuleFire rule elem s
  | .ruleRelease rule elem => Sys2Proof.Machine.execRuleRelease rule elem s
  | .orderlyPowerDownExpiry => Sys2Proof.Machine.execOrderlyPowerDownExpiry s
  | .thermalLimitRelease sensor => Sys2Proof.Machine.execThermalLimitRelease sensor s
  | .thermalTrip sensor => Sys2Proof.Machine.execThermalTrip sensor s
  | .rateActRelease sensor => Sys2Proof.Machine.execRateActRelease sensor s
  | .sensorBroken sensor kind => Sys2Proof.Machine.execSensorBroken sensor kind s
  | .sensorClear v => Sys2Proof.Machine.execSensorClear v s
  | .sorRuleWrite rule hi v => Sys2Proof.Machine.execSorRuleWrite rule hi v s
  | .bondWearSample => Sys2Proof.Machine.execBondWearSample s
  | .bondWearPersist => Sys2Proof.Machine.execBondWearPersist s
  | .compensationUpdate => Sys2Proof.Machine.execCompensationUpdate s
  | .envelopeSwitch v => Sys2Proof.Machine.execEnvelopeSwitch v s
  | .envelopeSwitchDone => Sys2Proof.Machine.execEnvelopeSwitchDone s
  | .droopEpisodeStart rail mv => Sys2Proof.Machine.execDroopEpisodeStart rail mv s
  | .droopEpisodeEnd cluster minMv us => Sys2Proof.Machine.execDroopEpisodeEnd cluster minMv us s
  | .resetLevelCrossing rail => Sys2Proof.Machine.execResetLevelCrossing rail s
  | .funnelAccept => Sys2Proof.Machine.execFunnelAccept s
  | .flashLogCopy => Sys2Proof.Machine.execFlashLogCopy s
  | .errInjectArm v => Sys2Proof.Machine.execErrInjectArm v s
  | .coreFenceStart core hw => Sys2Proof.Machine.execCoreFenceStart core hw s
  | .coreFenceComplete core => Sys2Proof.Machine.execCoreFenceComplete core s
  | .cvuCtrlWrite unit v => Sys2Proof.Machine.execCvuCtrlWrite unit v s
  | .cvuRestart unit => Sys2Proof.Machine.execCvuRestart unit s
  | .cvuConfigWrite unit reg v => Sys2Proof.Machine.execCvuConfigWrite unit reg v s
  | .cvuPause unit => Sys2Proof.Machine.execCvuPause unit s
  | .cvuTake unit b => Sys2Proof.Machine.execCvuTake unit b s
  | .sorrelStart => Sys2Proof.Machine.execSorrelStart s
  | .bringupRails refOk => Sys2Proof.Machine.execBringupRails refOk s
  | .bootVerify v => Sys2Proof.Machine.execBootVerify v s
  | .recoveryImage im => Sys2Proof.Machine.execRecoveryImage im s
  | .loadFlashRecords => Sys2Proof.Machine.execLoadFlashRecords s
  | .training t => Sys2Proof.Machine.execTraining t s
  | .cacheInit t => Sys2Proof.Machine.execCacheInit t s
  | .runtimeBroadcast => Sys2Proof.Machine.execRuntimeBroadcast s
  | .knownAnswerRuns failed => Sys2Proof.Machine.execKnownAnswerRuns failed s
  | .ready => Sys2Proof.Machine.execReady s
  | .powerOnReset trig => Sys2Proof.Machine.execPowerOnReset trig s
  | .moduleReset trig => Sys2Proof.Machine.execModuleReset trig s
  | .deviceWarmReset trig => Sys2Proof.Machine.execDeviceWarmReset trig s
  | .baseReset trig => Sys2Proof.Machine.execBaseReset trig s
  | .baseQuiesceComplete => Sys2Proof.Machine.execBaseQuiesceComplete s
  | .baseQuiesceFail => Sys2Proof.Machine.execBaseQuiesceFail s
  | .halfReset half trig => Sys2Proof.Machine.execHalfReset half trig s
  | .clusterReset cluster trig failed => Sys2Proof.Machine.execClusterReset cluster trig failed s
  | .coreReset core trig katFails => Sys2Proof.Machine.execCoreReset core trig katFails s
  | .debugToken t => Sys2Proof.Machine.execDebugToken t s
  | .registerReadClear addr => Sys2Proof.Machine.execRegisterReadClear addr s
  | .registerWrite addr v => Sys2Proof.Machine.execRegisterWrite addr v s
  | .standbyPowerLoss => Sys2Proof.Machine.execStandbyPowerLoss s
  | .refClockRestored => Sys2Proof.Machine.execRefClockRestored s
  | .instructionCacheFill x => Sys2Proof.Machine.execInstructionCacheFill x s
  | .hostPortLinkDown port => Sys2Proof.Machine.execHostPortLinkDown port s
  | .hostPortLinkUp port => Sys2Proof.Machine.execHostPortLinkUp port s
  | .linkKeyEpoch port => Sys2Proof.Machine.execLinkKeyEpoch port s
  | .frameCounterLimit session => Sys2Proof.Machine.execFrameCounterLimit session s
  | .boundaryScan nonceRead => Sys2Proof.Machine.execBoundaryScan nonceRead s
end Sys2Proof.Machine
end

