-- ==== Sys2Proof/Safety.lean ====
section
/-! DEFINITION. The terms the statements use: what it is for a command to complete, for a core instruction to
issue, and for a step to change one piece of the state and nothing else. -/

namespace Sys2Proof

/-- A command completes in a state: it answers a next state. -/
def Completes (c : Instr) (s : Machine.State) : Prop := ∃ t, Machine.exec c s = .next t

/-- A run of `k` steps stops nowhere. -/
def SafeRun (k : Nat) (s : Machine.State) : Prop := ∃ t, core.run k s = .next t

namespace Machine

/-- The state with another device and the same queue of commands. -/
def State.withDev (s : State) (d : Dev) : State := { s with dev := d }

/-! ## The issue of a core instruction -/

/-- The instruction of form `f` issues in `s` at `x` with lead `l` and nothing in its way (02 R44 to R48, 03 R70,
R71, R73 to R75): the group can issue, its PC lies in the device address window and is aligned, the instruction cache
holds the instruction's word or words there, its pipe and queue have room (R48 item 4), its task has the unit it
needs, the guard and the fields are defined, and every register it names exists and has no write pending. -/
def Issues (s : State) (x : At) (f : Form) (l : Lead) : Prop :=
  leadFor x f s.dev = some l ∧ pcBad l.pc = false ∧ opAssigned (f.code % 2 ^ 64 / 2 ^ 56) = true ∧
  spells (getCore s.dev l.core) l.pc f = true ∧ hasRoom (roomOf s.dev l.core) f = true ∧
  guardOk f.guard = true ∧ f.legal = true ∧ hasUnits (getCore s.dev l.core) l.g.pos f = true ∧ (∀ r ∈ f.regs, regOk l.g.nregs r = true) ∧
  ∀ r ∈ f.regs, regBusy (getCore s.dev l.core) l.g.uid r = false

/-- From `s` to `t` one group slot of one core has changed, to hold `g`, with the rotation of slot 0 and what slot 1
may take as the lead leaves them (02 R49, R50). Nothing else has: no other slot, core, register of the local map, byte of memory, queue or engine. -/
def OnlyGroup (s t : State) (l : Lead) (g : Group) : Prop :=
  t.pending = s.pending ∧
  t.dev = { s.dev with cores := t.dev.cores } ∧
  (∀ n, n ≠ l.core → getCore t.dev n = getCore s.dev n) ∧
  getCore t.dev l.core = { getCore s.dev l.core with groups := (getCore t.dev l.core).groups,
                                                     rr := l.rr, pair := l.pair } ∧
  (∀ k, k ≠ l.slot → getGroup (getCore t.dev l.core) k = getGroup (getCore s.dev l.core) k) ∧
  getGroup (getCore t.dev l.core) l.slot = some g ∧
  ∀ f o, memByte t.dev f o = memByte s.dev f o

/-- The threads of `g` are those of the lead's group with the PCs of the active set moved past `words` words. -/
def Advanced (l : Lead) (g : Group) (words : Nat) : Prop :=
  ∀ t, t < 32 → laneOf g t =
    if onLane l.act t then { laneOf l.g t with pc := (laneOf l.g t).pc + BitVec.ofNat 47 (8 * words) }
    else laneOf l.g t

/-- `g` is the lead's group, advanced, with the `n` thread registers from `r0` of every lane whose guard is true
holding `v`, lowest 32 bits first (03 R71); a write to XZ is discarded (03 R70). Uniform registers, predicates and
every other register are as they were. -/
def WroteX (l : Lead) (g : Group) (words r0 n : Nat) (v : Nat → Nat) : Prop :=
  Advanced l g words ∧ g = { l.g with lanes := g.lanes, x := g.x } ∧
  ∀ r t, t < 32 → r ≠ 255 → readX g r t =
    if r0 ≠ 255 ∧ r0 ≤ r ∧ r < r0 + n ∧ onLane l.run t = true then BitVec.ofNat 32 (v t / 2 ^ (32 * (r - r0)))
    else readX l.g r t

/-- The command writes thread registers and nothing else: it answers a next state in which the issuing group is as
`WroteX` says and everything outside it is unchanged. -/
def SetsX (c : Instr) (s : State) (l : Lead) (words r0 n : Nat) (v : Nat → Nat) : Prop :=
  ∃ t g, exec c s = .next t ∧ OnlyGroup s t l g ∧ WroteX l g words r0 n v

/-- `g` is the lead's group, advanced, with predicate `p` of every lane whose guard is true holding `v`. -/
def WroteP (l : Lead) (g : Group) (words p : Nat) (v : Nat → Bool) : Prop :=
  g = { l.g with lanes := g.lanes } ∧
  ∀ t, t < 32 → laneOf g t =
    { laneOf l.g t with
      pc := if onLane l.act t then (laneOf l.g t).pc + BitVec.ofNat 47 (8 * words) else (laneOf l.g t).pc,
      preds := if onLane l.run t then setBits (laneOf l.g t).preds p 1 (b2n (v t)) else (laneOf l.g t).preds }

/-- The command writes one predicate and nothing else. -/
def SetsP (c : Instr) (s : State) (l : Lead) (words p : Nat) (v : Nat → Bool) : Prop :=
  ∃ t g, exec c s = .next t ∧ OnlyGroup s t l g ∧ WroteP l g words p v

/-- The command replaces the issuing group and nothing else. -/
def SetsGroup (c : Instr) (s : State) (l : Lead) (g : Group) : Prop :=
  ∃ t, exec c s = .next t ∧ OnlyGroup s t l g

/-- The command writes uniform registers and nothing else: `n` of them from `r0` hold `v`, lowest 32 bits first. -/
def SetsU (c : Instr) (s : State) (l : Lead) (words r0 n : Nat) (v : Nat) : Prop :=
  ∃ t g, exec c s = .next t ∧ OnlyGroup s t l g ∧ Advanced l g words ∧
    g = { l.g with lanes := g.lanes, u := g.u } ∧
    ∀ r, readU g r = if r0 ≤ r ∧ r < r0 + n then BitVec.ofNat 32 (v / 2 ^ (32 * (r - r0))) else readU l.g r

/-- The lanes whose guard is true are at their target, the rest of the active set at PC + 8, the others where they
were (03 R73, Table 3.12). -/
def Jumped (l : Lead) (g : Group) (target : Nat → BitVec 47) : Prop :=
  ∀ t, t < 32 → laneOf g t =
    if onLane l.run t then { laneOf l.g t with pc := target t }
    else if onLane l.act t then { laneOf l.g t with pc := (laneOf l.g t).pc + 8 } else laneOf l.g t

/-- Pair `r0` of the lanes whose guard is true holds the address after the lead PC; no other thread register has
changed. -/
def ReturnIn (l : Lead) (g : Group) (r0 : Nat) : Prop :=
  ∀ r t, t < 32 → r ≠ 255 → readX g r t =
    if r0 ≠ 255 ∧ r0 ≤ r ∧ r < r0 + 2 ∧ onLane l.run t = true then
      BitVec.ofNat 32 ((l.pc + 8).toNat / 2 ^ (32 * (r - r0)))
    else readX l.g r t

/-- The lanes whose guard is true are PARKED at barrier `b` with their PC, the rest of the active set at PC + 8
(02 R55). -/
def Parked (l : Lead) (g : Group) (b : Option (BitVec 3)) : Prop :=
  ∀ t, t < 32 → laneOf g t =
    if onLane l.run t then { laneOf l.g t with st := .parked b }
    else if onLane l.act t then { laneOf l.g t with pc := (laneOf l.g t).pc + 8 } else laneOf l.g t

/-- Every live thread of the group is ACTIVE at the instruction after its barrier; exited ones are as they were
(02 R57). -/
def Released (l : Lead) (g : Group) (b : Option (BitVec 3)) : Prop :=
  ∀ t, t < 32 → laneOf g t =
    if onLane l.run t || decide ((laneOf l.g t).st = .parked b) then
      { laneOf l.g t with st := .active, pc := (laneOf l.g t).pc + 8 }
    else laneOf l.g t

/-- From `s` to `t` the lead's group took a core fault (03 R106 to R108, 02 R62; 15 Table 15.2 class 1): one record in
the core's queue of the funnel, the task's first fault kept as its status, and the threads ended that the fault policy
ends; the group stays held until the funnel accepts a record (15 R452). Nothing the instruction would have written has
changed. -/
def TookFault (s t : State) (l : Lead) (code addr mask : Nat) : Prop :=
  t.pending = s.pending ∧
  (∃ r, mapGet [] t.dev.funnel.srcq l.core = mapGet [] s.dev.funnel.srcq l.core ++ [r] ∧
    r.cls = 1 ∧ r.code = BitVec.ofNat 16 code ∧ r.source = BitVec.ofNat 32 l.core ∧ r.count = 1 ∧
    r.loc0 = BitVec.ofNat 64 l.pc.toNat ∧ r.loc1 = BitVec.ofNat 64 addr ∧
    r.loc2 = BitVec.ofNat 64 (mask * 2 ^ 32 + l.slot * 2 ^ 27 + (if l.g.pos then 2 ^ 26 else 0))) ∧
  (∀ k, getTask (getCore s.dev l.core) l.g.pos = some k → getTask (getCore t.dev l.core) l.g.pos =
    some { k with fault := some (k.fault.getD code), aborted := k.aborted || !k.endGroup }) ∧
  (∃ g, getGroup (getCore t.dev l.core) l.slot = some g ∧ g = { l.g with lanes := g.lanes, hold := some .record } ∧
    ∀ i, i < 32 → (laneOf g i).st = .exited) ∧
  (∀ k, getTask (getCore s.dev l.core) l.g.pos = some k → k.endGroup = false → ∀ j g, j < 32 →
    getGroup (getCore t.dev l.core) j = some g → g.pos = l.g.pos → g.hold = some .record ∧ ∀ i, i < 32 → (laneOf g i).st = .exited) ∧
  t.dev.regs = s.dev.regs ∧ t.dev.pmap = s.dev.pmap ∧ t.dev.slices = s.dev.slices ∧
  (∀ n, n ≠ l.core → getCore t.dev n = getCore s.dev n) ∧ ∀ f o, memByte t.dev f o = memByte s.dev f o

/-- The issuing group is `g` in `t`, and no byte of memory, register of the local map, entry of the page map or queue of
commands has changed. -/
def IssuedTo (s t : State) (l : Lead) (g : Group) : Prop :=
  t.pending = s.pending ∧ getGroup (getCore t.dev l.core) l.slot = some g ∧ t.dev.pmap = s.dev.pmap ∧
  ∀ f o, memByte t.dev f o = memByte s.dev f o

/-- Only the PCs of the active set of the issuing group have moved. -/
def OnlyAdvanced (l : Lead) (g : Group) : Prop := g = { l.g with lanes := g.lanes } ∧ Advanced l g 1

/-- The lanes whose guard is true with their effective addresses, ascending (03 R86). -/
def laneAddrs (l : Lead) (ea : Nat → Nat) : List (Nat × Nat) := (lanesOf l.run).map fun t => (t, ea t)

/-- The distinct lines of a set of lane addresses (03 R90). -/
def lineSet (as : List (Nat × Nat)) : List Nat := distinct (as.map fun a => a.2 / 128)

/-- An access to external memory through unit pair `o` of frame `f` meets no uncorrectable error: no error mark stands
on either unit. -/
def CleanLine (d : Dev) (f idx : Nat) : Prop :=
  markOf d (memCode d) (chanOf f (128 * idx)) (unitOf f (128 * idx)) = none ∧
  markOf d (memCode d) (chanOf f (128 * idx + 64)) (unitOf f (128 * idx + 64)) = none

/-- The bank of a request's line at its home, where one holds the line, is neither held nor waited for (10 R302). -/
def BankFree (d : Dev) (r : Req) : Prop := ∀ b, lineBank d (reqHome r) r.line = some b →
  (getPort d (reqHome r) b).holder = none ∧ (getPort d (reqHome r) b).waits = []

/-- A byte of a core's scratchpad by offset. -/
def spadByte (d : Dev) (n o : Nat) : Byte := mapGet 0 (getCore d n).spx.bytes o

/-- Lane `i` accesses the byte at offset `o` with an access of `n` bytes. -/
def Covers (l : Lead) (f : FmtM) (n i o : Nat) : Prop :=
  onLane l.run i = true ∧ spxOff l.g f i ≤ o ∧ o < spxOff l.g f i + n

/-- The status of one bank for a window access (07 R207, R219; 11 Table 11.7): SPAD_STATE 7, SPAD_BANK 6, OK 0. -/
def windowBank (d : Dev) (n b : Nat) : Nat :=
  let c := getCore d n
  if coreFenced d n = true ∨ bankState c.spx b ≠ bankOn ∨ inAnySet c b = false then 7
  else if bankField c.spx.owner b = portMover ∧ bankField c.spx.queued b = portMover then 0 else 6

/-- The status of a window access of `len` bytes at `off` before any byte is read: that of its lowest-addressed failing
bank, 0 when every bank passes. -/
def windowStatus (d : Dev) (n off len : Nat) : Nat :=
  if len = 0 then 0
  else (((List.range 16).filter fun b => decide (off < 32768 * (b + 1)) && decide (32768 * b < off + len)).map
    (windowBank d n)).foldl (fun a v => if a = 0 then v else a) 0

/-- Nothing outside core `n` has changed: no other core, register of the local map, byte of memory, queue or
record. -/
def OneCore (s t : State) (n : Nat) : Prop :=
  t.pending = s.pending ∧ t.dev = { s.dev with cores := t.dev.cores } ∧
  (∀ m, m ≠ n → getCore t.dev m = getCore s.dev m) ∧ ∀ f o, memByte t.dev f o = memByte s.dev f o

/-! ## Results of Tables 3.8 and 3.9, stated apart from the meanings -/

/-- The least integer of an integer TYPE. -/
def tyLeast (ty : Nat) : Int := if tySigned ty then -2 ^ (tyWidth ty - 1) else 0
/-- The greatest integer of an integer TYPE. -/
def tyGreatest (ty : Nat) : Int := if tySigned ty then 2 ^ (tyWidth ty - 1) - 1 else 2 ^ tyWidth ty - 1

/-- An integer result as a register value of TYPE: clamped to the range of TYPE or not, then modulo its width. -/
def inType (ty : Nat) (sat : Bool) (i : Int) : Nat :=
  ((if sat then max (tyLeast ty) (min i (tyGreatest ty)) else i) % 2 ^ tyWidth ty).toNat

/-- Element `i` of `w` bits of a 32-bit word, signed where TYPE is (03 R83). -/
def element (ty w v i : Nat) : Int :=
  let e := v / 2 ^ (w * i) % 2 ^ w
  if tySigned ty && e.testBit (w - 1) then (e : Int) - 2 ^ w else e

/-- The length and the position of a bit field in operand b (03 R81). -/
def fieldLen (f : FmtR) (g : Group) (t : Nat) : Nat := rawB f g t / 256 % 256
def fieldPos (f : FmtR) (g : Group) (t : Nat) : Nat := rawB f g t % 256

/-- The order of two integers. -/
def intOrder (a b : Int) : Option Ordering := some (compareOfLessAndEq a b)

/-- The order of two FP values, none when either is NaN. -/
def fpOrder (a b : FV) : Option Ordering :=
  if isNaN a || isNaN b then none else if fvEq a b then some .eq else if fvLt a b then some .lt else some .gt

/-- The compare codes of Table 3.8 over an order, none for unordered (03 R502). -/
def compare (code : Nat) (o : Option Ordering) : Bool :=
  match code with
  | 0 => o == some .eq
  | 1 => o != some .eq
  | 2 => o == some .lt
  | 3 => o == some .lt || o == some .eq
  | 4 => o == some .gt
  | 5 => o == some .gt || o == some .eq
  | 6 => o == none
  | _ => o != none

/-- The op of MOD[1:0] of a predicate instruction with Pc (03 Table 3.9). -/
def predicate (op : Nat) (v pc : Bool) : Bool :=
  if op = 0 then v else if op = 1 then v && pc else if op = 2 then v || pc else xor v pc

/-- One datum read as NaN is the canonical NaN of its format (03 R79). -/
def Canonical1 (f : Fmt) (b : Nat) : Prop := isNaN (decodeF f b) = true → b = f.qnan

/-- The word an FP instruction writes in one lane: one operation for F32, one for each half of a packed type, each
the exact result of the modified operands rounded once, then SAT (03 R79, R504). -/
def fpWord (f : FmtR) (k : FV → FV → FV → FV) (a b c : Nat) : Nat :=
  let m := tyFmt (tyOf f)
  let one (a b c : Nat) : Nat :=
    let r := encodeF m .rn false (k (decodeF m (fpMod m (modAbsA f.mod) (modNegA f.mod) a))
      (decodeF m (fpMod m (modAbsB f.mod) (modNegB f.mod) b)) (decodeF m (fpMod m false (modNegC f.mod) c)))
    if modSat f.mod then fpSat m r else r
  if tyOf f = 4 then one a b c
  else one (a % 2 ^ 16) (b % 2 ^ 16) (c % 2 ^ 16) +
    2 ^ 16 * one (a / 2 ^ 16 % 2 ^ 16) (b / 2 ^ 16 % 2 ^ 16) (c / 2 ^ 16 % 2 ^ 16)

/-- An FP instruction writes `fpWord` in its destination and nothing else, and each datum written that reads as NaN is
the canonical NaN; operand c takes part where `three`. -/
def SetsFp (c : Instr) (s : State) (l : Lead) (f : FmtR) (k : FV → FV → FV → FV) (three : Bool) : Prop :=
  let v (t : Nat) : Nat := fpWord f k (readX l.g f.a.toNat t).toNat (bVal l.g f 1 t)
    (if three then (readX l.g f.c.toNat t).toNat else 0)
  SetsX c s l 1 f.d.toNat 1 v ∧
  ∀ t, if tyOf f = 4 then Canonical1 fp32 (v t)
    else Canonical1 (tyFmt (tyOf f)) (v t % 2 ^ 16) ∧ Canonical1 (tyFmt (tyOf f)) (v t / 2 ^ 16)

/-- An FP DOT of a lane: c and every exact product, summed, and rounded once to FP32 (03 R83). -/
def dotRounded (fa fb : Fmt) (w n : Nat) (g : Group) (f : FmtR) (t : Nat) : Nat :=
  encodeF fp32 .rn false (fvSum (ofF32 (readX g f.c.toNat t) :: (List.range n).map fun i =>
    fvMul (decodeF fa ((readX g f.a.toNat t).toNat / 2 ^ (w * i) % 2 ^ w))
      (decodeF fb (bVal g f 1 t / 2 ^ (w * i) % 2 ^ w))))

/-- The source lane of SHFL (03 Table 3.9, R81). -/
def sourceLane (mode b t : Nat) : Nat :=
  match mode with
  | 0 => b % 32
  | 1 => if b ≤ t then t - b else t
  | 2 => if t + b ≤ 31 then t + b else t
  | _ => t ^^^ (b % 32)

/-! ## Matrix arrays and the row unit, stated apart from the meanings -/

/-- As `OneCore`, but for the error marks and the injection register that writing a protected word may use (15 R459). -/
def OneCoreW (s t : State) (n : Nat) : Prop :=
  t.pending = s.pending ∧ t.dev = { s.dev with cores := t.dev.cores, errs := t.dev.errs, regs := t.dev.regs } ∧
  (∀ a, a ≠ aErrInject → regGet t.dev a = regGet s.dev a) ∧
  (∀ m, m ≠ n → getCore t.dev m = getCore s.dev m) ∧ ∀ f o, memByte t.dev f o = memByte s.dev f o

/-- No error mark stands on the scratchpad, the stages, the FSB, the AFB, the tiles or the row state sets of core
`n`. -/
def CleanCore (d : Dev) (n : Nat) : Prop :=
  ∀ e ∈ d.errs, e.unit = n → e.mem ≠ 0x05 ∧ e.mem ≠ 0x06 ∧ e.mem ≠ 0x07 ∧ e.mem ≠ 0x08

/-- What an MX or row unit instruction takes at issue (04 R143, 05 R169). -/
def mxCheck (k : MxKind) (c : Core) (pos : Bool) (pc : Nat) (d : BitVec 128) : Option (Nat × Nat) :=
  if isRu k then ruFault k c pos pc d else mxFault c pos pc k d

/-- A byte of the stages (kind 0), the scale stores (1), the FSB (2) or the AFB (3) as it reads. -/
def stageByte (d : Dev) (n kind i : Nat) : Byte :=
  (mapGet none (stageMap (getMx d n) kind) i).getD (Config.undefByte kind (getMx d n).epoch i)

/-- Four bytes from `i`, little-endian. -/
def le4 (b : Nat → Byte) (i : Nat) : Nat :=
  (b i).toNat + 2 ^ 8 * (b (i + 1)).toNat + 2 ^ 16 * (b (i + 2)).toNat + 2 ^ 24 * (b (i + 3)).toNat

/-- The bits of activation element `k` of row `r` of a stream (04 R116, R118). -/
def actBits (d : Dev) (n : Nat) (desc : BitVec 128) (r k : Nat) : Nat :=
  let c := fmtClass (mmaFmt desc)
  le4 (fun i => if mmaAfb desc then stageByte d n 3 i else spadByte d n i)
    (64 * mmaLine desc + 64 * (k / classRank c) + 4 * r) / 2 ^ (classBits c * (k % classRank c)) % 2 ^ classBits c

/-- The bits of the weight element `k` rows after W_ROW and of column `j` in array `a` (04 R116, R119). -/
def wgtBits (d : Dev) (n : Nat) (desc : BitVec 128) (wf a k j : Nat) : Nat :=
  let w := classBits (fmtClass wf)
  le4 (stageByte d n 0) (32768 * a + (mmaRow desc + k) * (2 * w) + j * w / 8) / 2 ^ (j * w % 8) % 2 ^ w

/-- Product `k` of element (r, j) of array `a`, of two integer formats. -/
def intProduct (d : Dev) (n : Nat) (desc : BitVec 128) (wf a r j k : Nat) : Int :=
  signed (classBits (fmtClass (mmaFmt desc))) (actBits d n desc r k) *
    signed (classBits (fmtClass wf)) (wgtBits d n desc wf a k j)

/-- The K positions of slice `i` that are not rank-masked (04 R129, R138). -/
def sliceKs (desc : BitVec 128) (wf i : Nat) : List Nat :=
  let k := classRank (max (fmtClass (mmaFmt desc)) (fmtClass wf))
  ((List.range k).map fun j => k * i + j).filter fun j => decide (j < mmaKlen desc)

/-- The slices of a stream (04 R129). -/
def sliceCount (desc : BitVec 128) (wf : Nat) : Nat :=
  ceilDiv (mmaKlen desc) (classRank (max (fmtClass (mmaFmt desc)) (fmtClass wf)))

/-- An INT32 element after a stream with SAT: clamped at each slice (04 R123). -/
def satStream (d : Dev) (n : Nat) (desc : BitVec 128) (wf a r j : Nat) (acc : Int) : Int :=
  (List.range (sliceCount desc wf)).foldl (fun v i =>
    max (-2 ^ 31) (min (v + ((sliceKs desc wf i).map (intProduct d n desc wf a r j)).sum) (2 ^ 31 - 1))) acc

/-- The block scale of an activation or of a weight, 1 for a format without them (04 R115, R119, R120). -/
def actScale (d : Dev) (n : Nat) (desc : BitVec 128) (r k : Nat) : FV :=
  if fmtBlock (mmaFmt desc) = 0 then .fin false 1 0
  else scaleVal (mmaFmt desc) (stageByte d n 2 (16 * mmaFsb desc + 16 * (k / fmtBlock (mmaFmt desc)) + r))
def wgtScale (d : Dev) (n : Nat) (desc : BitVec 128) (wf a k j : Nat) : FV :=
  if fmtBlock wf = 0 then .fin false 1 0
  else
    let row := mmaRow desc + k
    let half := classRows (fmtClass wf) / 2
    scaleVal wf (stageByte d n 1 (4096 * a + 2048 * (row / half) + 16 * (row % half / fmtBlock wf) + j))

/-- An FP32 element after a stream: at each slice the exact scaled sum of the products is added, and the sum rounded
once and flushed (04 R121). -/
def fpStream (d : Dev) (n : Nat) (desc : BitVec 128) (wf a r j : Nat) (acc : Word) : Word :=
  (List.range (sliceCount desc wf)).foldl (fun v i =>
    let k := classRank (max (fmtClass (mmaFmt desc)) (fmtClass wf)) * i
    ftz (toF32 (fvAdd (ofF32 v) (fvMul (fvMul (actScale d n desc r k) (wgtScale d n desc wf a k j))
      (fvSum ((sliceKs desc wf i).map fun k =>
        fvMul (elemVal (mmaFmt desc) (actBits d n desc r k)) (elemVal wf (wgtBits d n desc wf a k j)))))))) acc

/-- Element (r, j) of a tile. -/
def tileEl (t : Tile) (r j : Nat) : Word := t.el.getD (16 * r + j) 0

/-- The operation that starts is marked as started in the queue, and nothing else of the queue changes. -/
def Started (s t : State) (n : Nat) (o : MxOp) : Prop :=
  (getMx t.dev n).q = (getMx s.dev n).q.map fun p => if p.id = o.id then { p with started := true } else p

/-! ## Records, registers and lines -/

/-- One record reaches the funnel's queue of its source: it joins the queue, or, where a source other than a core has
four already, the source is marked OVERFLOW (15 R451). -/
def Logged (d e : Dev) (source : Word) (cls code l0 l1 l2 : Nat) : Prop :=
  (source.toNat / 2 ^ 28 ≠ 0 ∧ 4 ≤ (mapGet [] d.funnel.srcq source.toNat).length →
    e.funnel.srcq = d.funnel.srcq ∧ mapGet false e.funnel.overflow source.toNat = true) ∧
  (¬ (source.toNat / 2 ^ 28 ≠ 0 ∧ 4 ≤ (mapGet [] d.funnel.srcq source.toNat).length) →
    ∃ r, mapGet [] e.funnel.srcq source.toNat = mapGet [] d.funnel.srcq source.toNat ++ [r] ∧
      (∀ k, k ≠ source.toNat → mapGet [] e.funnel.srcq k = mapGet [] d.funnel.srcq k) ∧
      r.cls = BitVec.ofNat 8 cls ∧ r.code = BitVec.ofNat 16 code ∧ r.source = source ∧
      r.loc0 = BitVec.ofNat 64 l0 ∧ r.loc1 = BitVec.ofNat 64 l1 ∧ r.loc2 = BitVec.ofNat 64 l2)

/-- Only registers of the local map and the funnel have changed. -/
def RegsOnly (s t : State) : Prop :=
  t.pending = s.pending ∧ t.dev = { s.dev with regs := t.dev.regs, funnel := t.dev.funnel }

/-- A dirty line of half `h` that is not poisoned, in a set from `lo` on, held for byte `o` of frame `f`. -/
def DirtyAt (d : Dev) (h lo f o : Nat) (c : CLine) : Prop :=
  ∃ sl i, halfOf sl = h ∧ lo ≤ i ∧ i < 3072 ∧ c ∈ getSet d sl i ∧ c.dirty = true ∧ c.poison = false ∧
    pteFrame c.pte = f ∧ lineIdx c.line = o / 128

/-! ## Sorrel and resets -/

/-- Every cluster's throttle level is the highest of its built-in protections and its fired rules (14 R432, R439). -/
def LevelsHold (d : Dev) : Prop :=
  ∀ c, c < 64 → levelOf d c = max (builtinLevel d c) (rulesLevel d c).1 % 8

/-- Nothing is left on the compute, cache and base dies or in external memory (16 Table 16.4, device warm). -/
def DiesCleared (d : Dev) : Prop :=
  d.cores = [] ∧ d.reqs = [] ∧ d.slices = [] ∧ d.mem = [] ∧ d.pmap = [] ∧ d.clusters = [] ∧ d.hpt = resetHpt ∧
  d.disp = resetDisp ∧ d.fab = resetFab ∧ d.lov = [] ∧ d.errs = [] ∧ d.shoot = none

/-- The power is off but for standby (13 R402, 14 R430): no rail but VAON has a setpoint, the device is not READY, and
no core, cache line, byte of memory, page entry, session or queue is left. -/
def PoweredOff (d : Dev) : Prop :=
  d.sor.rails = false ∧ isReady d = false ∧ (∀ r, r < 72 → r ≠ 69 → regGet d (aRail r) = 0) ∧ DiesCleared d

/-- SEC_RESET_CAUSE names a reset, and COUNT has risen by one, saturating (16 Table 16.12). -/
def CauseIs (s t : State) (kind index trig : Nat) : Prop :=
  regField t.dev aResetCause 60 4 = kind ∧ regField t.dev aResetCause 56 4 = trig ∧
  regField t.dev aResetCause 32 11 = index ∧
  regField t.dev aResetCause 0 32 = min (regField s.dev aResetCause 0 32 + 1) (2 ^ 32 - 1)

/-- Core `n` holds reset state and registers (16 R488, 15 R461). -/
def CoreReset (d : Dev) (n : Nat) : Prop :=
  getCore d n = { freshCore with fencing := (getCore d n).fencing, cycleBase := (getCore d n).cycleBase } ∧
  ∀ a, ccw n ≤ a → a < ccw n + 0x100000 → regGet d a = regReset a

/-! ## Registers -/

/-- A register whose write has an effect of its own: the registers that the rules of 07 R209, 08 R255 to R260, 09 R265
and R270, 10 R312 and R313, 11 R330 and R344, 13 R420, 14 R431, R435 and R441, 15 R459 and R468 and 16 R500 give one. -/
def ownBehaviour (a : Nat) : Bool :=
  if inCcw a then decide ((a - ccw 0) % 0x100000 = 0x310)
  else if inCdcw a then
    let o := (a - cdcw 0) % 0x100000
    decide (o = 0x10) || decide (o = 0xD0) || inSeries o 0x80000 8 1024
  else inCvuw a || inSeries a 0x7B0000000000 8 524288 || inSeries a (aMissShare 0) 8 8 || inSeries a (aMcqShare 0) 8 8 ||
    inSeries a (aLovCtx 0) 8 8192 || inSeries a (aCluster 0) 8 64 || inSeries a (aRuleLo 0) 16 64 ||
    inSeries a (aRuleHi 0) 16 64 ||
    [aShoot, aRtData, aLovCmd, aEnv, aSensorClr, aErrInject, aResetCtrl].contains a

/-- The register at `a` after a write of `v`, bit by bit: RW takes the bit written, a 1 clears W1C, every other bit is
as it was (00 R14). -/
def WrittenBy (k : Access3) (v : D64) (d e : Dev) (a : Nat) : Prop :=
  ∀ i, i < 64 → bit (regGet e a) i =
    if bit k.rw i = true then bit v i
    else if bit k.w1c i = true ∧ bit v i = true then false else bit (regGet d a) i

/-! ## Commands of the host interface -/

/-- An SCI command for this device itself may begin, comes from a session or a manager of the device, and its header is
in order (12 R362, R376, R379): it runs with the response header `r` in the device `d`, from which its frame is gone. -/
def Accepted (s : State) (q : SciReq) (opcode : Nat) (ordered : Bool) (r : Resp) (d : Dev) : Prop :=
  mayBegin s.dev q opcode ordered = true ∧ admitReq s.dev q opcode ordered = some (r, d) ∧
  headerStatus d q opcode r = none ∧ q.target = 0

/-- The command answers a next state: `d`, in which the response `r` has been given with a status and data. -/
def Answers (c : Instr) (s : State) (d : Dev) (r : Resp) (status : Nat) (data : List Byte) : Prop :=
  exec c s = .next (s.withDev (respond d r status data))

/-- From `d` to `e` session `n` has ended (12 R370): it is gone with its WAITs and its frames in host mailboxes. Where no
frame waits in a receive buffer, every other session, frame and register is as it was, and the ports lose only its
transfers. -/
def SessionEnded (d e : Dev) (n : Nat) : Prop :=
  getSession e n = none ∧ e.mem = d.mem ∧
  (∀ w, w ∈ e.disp.waits ↔ w ∈ d.disp.waits ∧ ∀ sn m, w.resp.origin = .host sn m → sn.toNat ≠ n) ∧
  (∀ m x, x ∈ getHmb e m → x.2.session.toNat ≠ n) ∧
  ((∀ p, (getHost d p).rxbuf = []) →
    (∀ k, k ≠ n → getSession e k = getSession d k) ∧
    (∀ x ∈ d.hpt.boxes, ∀ f ∈ x.2, f.2.session.toNat ≠ n → ∃ y ∈ e.hpt.boxes, y.1 = x.1 ∧ f ∈ y.2) ∧
    (∀ p, p < 2 → getHost e p = { getHost d p with
      xfers := (getHost d p).xfers.filter (fun f => decide (f.session.toNat ≠ n)), pausing := (getHost e p).pausing }) ∧
    e.regs = d.regs)

/-- The fields of a launch descriptor that LAUNCH checks are in order for module `m` (12 R387, Table 12.13; 07 R211; 02
R56): its fields and flags, its bank declaration, its span of logical cores, and CORE_BAR's groups on one core. -/
def GoodLaunch (d : Dev) (l : Launch) (m : Module) : Prop :=
  (l.rsv = true ∧ bits l.lflags 10 6 = 0 ∧ l.entry.toNat % 8 = 0 ∧ l.entry.toNat < m.len ∧ l.regs ≠ 0 ∧
    1 ≤ l.threads.toNat ∧ l.threads.toNat ≤ 2 ^ 24 ∧ (lfWstage l = true → lfMx l = true)) ∧
  (lfBankDecl l = true → l.resident &&& ~~~l.banks = 0 ∧ l.keep &&& ~~~l.banks = 0 ∧
    ∀ b, b < 16 → bit l.banks b = false → bits l.owner (2 * b) 2 = 0) ∧
  (lfBankDecl l = false → l.banks = 0 ∧ l.resident = 0 ∧ l.keep = 0 ∧ l.owner = 0) ∧
  (if lfAllCores l = true then 0 < enabledCount d
   else 1 ≤ l.coreCount.toNat ∧ l.coreCount.toNat ≤ 2048 ∧ l.coreFirst.toNat + l.coreCount.toNat ≤ enabledCount d) ∧
  (lfCoreBar l = true → (l.threads.toNat + 31) / 32 ≤ min 32 (2048 / (8 * ((l.regs.toNat + 7) / 8))))

/-- From `d` to `e` the `n` pages from `p` have valid entries with the fields of `w` and the frames from `f` on, and no
other entry and no byte of memory has changed (12 R378). -/
def MapsPages (d e : Dev) (p n f : Nat) (w : D64) : Prop :=
  (∀ i, i < n → pmapEntry e (p + i) = w ||| BitVec.ofNat 64 (2 ^ 63 + 2 ^ 62 + (f + i))) ∧
  (∀ k, k < p ∨ p + n ≤ k → pmapEntry e k = pmapEntry d k) ∧ e.mem = d.mem

/-- Only the host ports and the registers of the local map have changed. -/
def PortsOnly (s t : State) : Prop :=
  t.pending = s.pending ∧ t.dev = { s.dev with hpt := t.dev.hpt, regs := t.dev.regs }

/-! ## When a command of the block is enabled -/

/-- An SCI command of this opcode is accepted here and now (12 R376, R379). -/
def Arrives (s : State) (q : SciReq) (opcode : Nat) (ordered : Bool) : Prop :=
  ∃ r d, Accepted s q opcode ordered r d

/-- The oldest queued reset is this one and none runs (16 R488). -/
def ResetTurn (d : Dev) (kind index trig : Nat) : Prop :=
  runningResets d = [] ∧ d.boot.queued.head? = some (kind, index, trig)

/-- A request of core `n` may arrive at a home that is reached, serves requests and holds no misses, whose bank is free;
it needs no fetch, joins a fill, or has a miss table slot to take (08 R236, R252; 10 R302, R312). -/
def MayBeServed (s : State) (id : Nat) (r : Req) : Prop :=
  getReq s.dev id = some r ∧ mayArrive s.dev r = true ∧ BankFree s.dev r ∧
  reaches s.dev r.core (reqHome r) = true ∧ baseReaches s.dev (reqHome r) = true ∧
  halfReady s.dev (halfOf (reqHome r)) = true ∧ bit (regGet s.dev (aCdcStatus (halfOf (reqHome r)))) 62 = false ∧
  (pteCacheable r.pte = false ∨ mayMiss s.dev (reqHalf r) r.cls = true)

/-- The next line of a range operation of `kind` may be acted on (03 R92, 10 R314). -/
def RangeTurn (s : State) (id kind : Nat) : Prop :=
  ∃ n r, findRange s.dev id = some (n, r) ∧ r.kind = kind ∧ budgetOk s.dev n = true ∧
    rangeHeld s.dev n r kind = false ∧ (kind = 1 ∨ ∀ m ∈ s.dev.miss, m.line ≠ r.next)

/-- A message of this type for this device is next in its order (11 R341). -/
def MessageTurn (s : State) (port : BitVec 3) (m : Msg) (typ : Nat) : Prop :=
  hasId s.dev = true ∧ m.dst.toNat = devId s.dev ∧ m.typ.toNat = typ ∧ inTurn s.dev port.toNat m = true

/-- A command of the block is enabled: the conditions on the state and the operands alone under which it completes
with its own effect, one constructor a command, as the rules give them for its normal execution (12 R376 and R379 for
the SCI commands, 16 R484 to R489 for bring-up and resets, 11 R341 for messages, 10 R302 and R312 to R314 for accesses,
13 and 14 for what Sorrel watches). The core instructions are not here: `Issues` is their condition. -/
inductive Enabled (s : State) : Instr → Prop
  | loadDataReturn (core : BitVec 11) (id : Nat) :
      (∃ p, getLoad (getCore s.dev core.toNat) id = some p ∧ p.kind ≠ .atom ∧
      ∀ r ∈ s.dev.reqs, p.reqs.contains r.id = true → r.st = .performed) →
      Enabled s (.loadDataReturn core id)
  | atomicReturn (core : BitVec 11) (id : Nat) :
      (∃ p, getLoad (getCore s.dev core.toNat) id = some p ∧ p.kind = .atom ∧
      ∀ r ∈ s.dev.reqs, p.reqs.contains r.id = true → r.st = .performed) →
      Enabled s (.atomicReturn core id)
  | storeAcknowledge (core : BitVec 11) (id : Nat) :
      (∃ r, getReq s.dev id = some r ∧ r.core = core.toNat ∧ isWrite r = true ∧
      r.ret = false ∧ r.st = .performed) →
      Enabled s (.storeAcknowledge core id)
  | fenceDrained (x : At) :
      (∃ g k id, getGroup (getCore s.dev x.core.toNat) x.slot.toNat = some g ∧
      g.hold = some (.fence k id) ∧ coreUp s.dev x.core.toNat = true ∧ fenceReady s.dev x.core.toNat g.uid id k = true) →
      Enabled s (.fenceDrained x)
  | faultBarrierStall (x : At) :
      (∃ g lim p, getGroup (getCore s.dev x.core.toNat) x.slot.toNat = some g ∧
      barLimit s.dev x.core.toNat = some lim ∧ parkedLane g = some p ∧ coreUp s.dev x.core.toNat = true ∧ lim ≤ g.stall) →
      Enabled s (.faultBarrierStall x)
  | taskRelease (core : BitVec 11) (pos : Bool) :
      (coreUp s.dev core.toNat = true ∧ releaseBusy s.dev core.toNat pos = false ∧
      (getTask (getCore s.dev core.toNat) pos).isSome = true) →
      Enabled s (.taskRelease core pos)
  | mxMmaComplete (core : BitVec 11) :
      (coreUp s.dev core.toNat = true ∧
      ∃ o ∈ (getMx s.dev core.toNat).q, o.kind = .mma ∧ o.started = true) →
      Enabled s (.mxMmaComplete core)
  | tileMoverOpComplete (core : BitVec 11) :
      (coreUp s.dev core.toNat = true ∧ (getCore s.dev core.toNat).spx.mover.isSome = true) →
      Enabled s (.tileMoverOpComplete core)
  | ruOpStart (core : BitVec 11) :
      (coreUp s.dev core.toNat = true ∧ ∃ o, (getMx s.dev core.toNat).q.find? (fun o =>
      isRu o.kind && !o.started) = some o ∧ mayStart (getCore s.dev core.toNat) o = true) →
      Enabled s (.ruOpStart core)
  | ruOpComplete (core : BitVec 11) :
      (coreUp s.dev core.toNat = true ∧
      ∃ o ∈ (getMx s.dev core.toNat).q, isRu o.kind = true ∧ o.started = true) →
      Enabled s (.ruOpComplete core)
  | ffxSlotSwitch (core : BitVec 11) :
      (coreUp s.dev core.toNat = true ∧ ∃ o, nextFfx (getCore s.dev core.toNat).ffx = some o ∧
      o.target ≠ (getCore s.dev core.toNat).ffx.active ∧ ffxLoading (getCore s.dev core.toNat).ffx o = false) →
      Enabled s (.ffxSlotSwitch core)
  | bankWakeComplete (core : BitVec 11) (bank : BitVec 4) :
      (coreUp s.dev core.toNat = true ∧
      bankState (getCore s.dev core.toNat).spx bank.toNat = bankWaking) →
      Enabled s (.bankWakeComplete core bank)
  | spxWindowAccess (core : BitVec 11) (acc : WinAccess) :
      acc.off.toNat + (if acc.write then acc.data.length else acc.len) ≤ 0x80000 →
      Enabled s (.spxWindowAccess core acc)
  | spxCorrectionWriteback (core : BitVec 11) (off : BitVec 19) :
      (∃ m, markOf s.dev 0x05 core.toNat off.toNat = some m ∧ m.seen = true ∧
      m.dbl = false) →
      Enabled s (.spxCorrectionWriteback core off)
  | homeRead (id : Nat) : (∃ r, MayBeServed s id r ∧ r.op = .read) → Enabled s (.homeRead id)
  | homeWrite (id : Nat) : (∃ r v m, MayBeServed s id r ∧ r.op = .write v m) → Enabled s (.homeWrite id)
  | homeAtomic (id : Nat) : (∃ r a, MayBeServed s id r ∧ r.op = .atomic a) → Enabled s (.homeAtomic id)
  | deadMark (id : Nat) : RangeTurn s id 1 → Enabled s (.deadMark id)
  | pinLine (id : Nat) : RangeTurn s id 2 → Enabled s (.pinLine id)
  | unpinLine (id : Nat) : RangeTurn s id 3 → Enabled s (.unpinLine id)
  | prefLine (id : Nat) : RangeTurn s id 0 → Enabled s (.prefLine id)
  | missSlotFreed (half : BitVec 1) (cls : BitVec 3) :
      (mayMiss s.dev half.toNat cls.toNat = true ∧
      ∃ r ∈ s.dev.reqs, r.st = .retried ∧ r.cls = cls.toNat ∧ reqHalf r = half.toNat) →
      Enabled s (.missSlotFreed half cls)
  | lineFill (id : Nat) :
      (∃ m, s.dev.miss.find? (fun m => decide (m.id = id)) = some m ∧
      bit (regGet s.dev (aCdcStatus m.half)) 62 = false ∧
      (m.cmd = true ∨ mayCommand s.dev (controllerOf m.pte m.line) m.cls = true)) →
      Enabled s (.lineFill id)
  | writebackAllDone (half : BitVec 1) :
      bit (regGet s.dev (aWbStatus half.toNat)) 63 = true →
      Enabled s (.writebackAllDone half)
  | shootdownDone :
      (∃ k, s.dev.shoot = some k ∧ shootReady s.dev k = true ∧ s.dev.boot.quiesce = false) →
      Enabled s .shootdownDone
  | tlbMissFillCore (n : BitVec 11) (page : BitVec 19) :
      (coreUp s.dev n.toNat = true ∧
      ∀ x ∈ (getCore s.dev n.toNat).tlb, x.1 ≠ page.toNat) →
      Enabled s (.tlbMissFill (.core n) page)
  | tlbMissFillBase (page : BitVec 19) : (∀ x ∈ s.dev.btc, x.1 ≠ page.toNat) → Enabled s (.tlbMissFill .base page)
  | memRetrainInterval (ch : BitVec 5) :
      bit (regGet s.dev (aChan ch.toNat)) 63 = true →
      Enabled s (.memRetrainInterval ch)
  | burstCrcFail (ch : BitVec 5) (req : Nat) (fails : BitVec 3) :
      (1 ≤ fails.toNat ∧ fails.toNat ≤ 4 ∧ bit (regGet s.dev (aChan ch.toNat)) 63 = true) →
      Enabled s (.burstCrcFail ch req fails)
  | memInitDone :
      (bootStep s.dev = 4 ∧ initDone s.dev = false ∧ ∀ c ∈ channels, bit (regGet s.dev (aChan c)) 63 = true) →
      Enabled s .memInitDone
  | scrubPassStart : bit (regGet s.dev aSecBoot) 63 = true → Enabled s .scrubPassStart
  | scrubReadCache :
      (s.dev.scrub.running = true ∧ bit (regGet s.dev aSecBoot) 63 = true ∧
      budgetOk s.dev 2122 = true ∧ s.dev.scrub.cacheDone = false) →
      Enabled s (.scrubRead .cache)
  | scrubReadMemory :
      (s.dev.scrub.running = true ∧ bit (regGet s.dev aSecBoot) 63 = true ∧
      budgetOk s.dev 2122 = true ∧ s.dev.scrub.memDone = false) →
      Enabled s (.scrubRead .memory)
  | bankAccessPerform (slice : BitVec 11) (bank : BitVec 5) (as : List BankReq) :
      (∃ a, as = [a] ∧ bank.toNat ≤ 16 ∧ a.who.toNat ≤ 5 ∧ a.delay = 0 ∧ a.req = 0 ∧
      (getPort s.dev slice.toNat bank.toNat).holder = none ∧ (getPort s.dev slice.toNat bank.toNat).waits = []) →
      Enabled s (.bankAccessPerform slice bank as)
  | grantWatchdogExpiry (res : BitVec 32) (victim : Option Nat) :
      (resourceOk res.toNat = true ∧ res.toNat ∉ s.dev.fencedRes ∧
      victimOk s.dev res.toNat victim = true) →
      Enabled s (.grantWatchdogExpiry res victim)
  | budgetWindow (m : BitVec 12) :
      (m.toNat ≤ 2123 ∧ (regGet s.dev aUsec).toNat % windowUs (budgetOf s.dev m.toNat) = 0) →
      Enabled s (.budgetWindow m)
  | linkTrained (port : BitVec 3) : (getLink s.dev port.toNat).st = lsTraining → Enabled s (.linkTrained port)
  | linkKeyed (port : BitVec 3) (peer : BitVec 17) (authOk : Bool) :
      (getLink s.dev port.toNat).st = lsKeying →
      Enabled s (.linkKeyed port peer authOk)
  | linkRetryTimer (port : BitVec 3) :
      ((getLink s.dev port.toNat).st = lsDown ∧ 4 ≤ bootStep s.dev) →
      Enabled s (.linkRetryTimer port)
  | laneFail (port lane : BitVec 3) :
      ((getLink s.dev port.toNat).st = lsUp ∧ bit (getLink s.dev port.toNat).failed lane.toNat = false) →
      Enabled s (.laneFail port lane)
  | linkDown (port : BitVec 3) : (getLink s.dev port.toNat).st ≠ lsDown → Enabled s (.linkDown port)
  | retryReq (port : BitVec 3) (seq : BitVec 16) :
      (getLink s.dev port.toNat).st = lsUp →
      Enabled s (.retryReq port seq)
  | flitReceive (port : BitVec 3) (flit : Flit) :
      ((getLink s.dev port.toNat).st = lsUp ∧ s.dev.boot.quiesce = false) →
      Enabled s (.flitReceive port flit)
  | messageForward (port : BitVec 3) (m : Msg) :
      (hasId s.dev = true ∧ m.dst.toNat ≠ devId s.dev ∧ inTurn s.dev port.toNat m = true) →
      Enabled s (.messageForward port m)
  | putMessage (port : BitVec 3) (m : Msg) : mayPerform 0 s.dev port.toNat m = true → Enabled s (.putMessage port m)
  | getMessage (port : BitVec 3) (m : Msg) : mayPerform 1 s.dev port.toNat m = true → Enabled s (.getMessage port m)
  | atomicMessage (port : BitVec 3) (m : Msg) :
      mayPerform 2 s.dev port.toNat m = true →
      Enabled s (.atomicMessage port m)
  | msg (port : BitVec 3) (m : Msg) : MessageTurn s port m 3 → Enabled s (.msg port m)
  | reduce (port : BitVec 3) (m : Msg) : MessageTurn s port m 4 → Enabled s (.reduce port m)
  | barrier (port : BitVec 3) (m : Msg) : MessageTurn s port m 5 → Enabled s (.barrier port m)
  | completion (port : BitVec 3) (m : Msg) : MessageTurn s port m 8 → Enabled s (.completion port m)
  | getData (port : BitVec 3) (m : Msg) : MessageTurn s port m 9 → Enabled s (.getData port m)
  | atomicData (port : BitVec 3) (m : Msg) : MessageTurn s port m 10 → Enabled s (.atomicData port m)
  | fabRequestTimeout (tag : BitVec 16) : (findOut s.dev tag.toNat).isSome = true → Enabled s (.fabRequestTimeout tag)
  | lovageChunkComplete (ctx : BitVec 10) (chunk : BitVec 32) :
      (chunkReady (getCtx s.dev ctx.toNat) chunk.toNat = true ∧
      lcLocal (getCtx s.dev ctx.toNat) = false) →
      Enabled s (.lovageChunkComplete ctx chunk)
  | lovageTimeout (ctx : BitVec 10) :
      (lcState (getCtx s.dev ctx.toNat) = lcRunning ∧ lcTimeout (getCtx s.dev ctx.toNat) ≠ 0) →
      Enabled s (.lovageTimeout ctx)
  | heartbeatSend :
      (mgrValid s.dev = true ∧ (isWorker s.dev = true ∨ isManager s.dev = true)) →
      Enabled s .heartbeatSend
  | memberHeartbeatTimeout (member : BitVec 17) :
      (isManager s.dev = true ∧
      ∃ m ∈ s.dev.fab.members, m.id = member.toNat ∧ m.lost = false) →
      Enabled s (.memberHeartbeatTimeout member)
  | fanoutTimeout (id : Nat) : (getFan s.dev id).isSome = true → Enabled s (.fanoutTimeout id)
  | frameReceive (port : BitVec 1) (fr : Frame) :
      (listening s.dev port.toNat = false ∧ (getHost s.dev port.toNat).link = true ∧
      s.dev.boot.quiesce = false) →
      Enabled s (.frameReceive port fr)
  | sessionHello (port : BitVec 1) (h : Hello) : portOpen s.dev port.toNat = true → Enabled s (.sessionHello port h)
  | sessionFinish (port : BitVec 1) (h : Finish) :
      (portOpen s.dev port.toNat = true ∧ ∃ k ∈ s.dev.hpt.shakes, k.id = h.handshake) →
      Enabled s (.sessionFinish port h)
  | handshakeTimeout (id : Nat) : (∃ k ∈ s.dev.hpt.shakes, k.id = id) → Enabled s (.handshakeTimeout id)
  | sessionIdleTimeout (session : BitVec 16) :
      (getSession s.dev session.toNat).isSome = true →
      Enabled s (.sessionIdleTimeout session)
  | frameCounterLimit (session : BitVec 16) :
      (∃ v, getSession s.dev session.toNat = some v ∧
      (v.txCnt = lastCount ∨ v.high = some lastCount)) →
      Enabled s (.frameCounterLimit session)
  | sessionClose (q : SciReq) : Arrives s q 0x01 true → Enabled s (.sessionClose q)
  | query (q : SciReq) (item : BitVec 32) (nonce : List (BitVec 8)) :
      (Arrives s q 0x02 false ∧ item.toNat ≤ 7 ∧ (item = 4 → nonce.length = 64)) →
      Enabled s (.query q item nonce)
  | telemetry (q : SciReq) (period : BitVec 32) :
      (Arrives s q 0x03 false ∧ period = 0) →
      Enabled s (.telemetry q period)
  | telemetryPeriod (session : BitVec 16) (sub : Nat) :
      sub < (subsOf s.dev session.toNat).length →
      Enabled s (.telemetryPeriod session sub)
  | setting (q : SciReq) (item : BitVec 32) (value : List (BitVec 8)) :
      (Arrives s q 0x04 true ∧ value.length = 36 ∧ item = 0 ∧ bytesNat value ≤ 1) →
      Enabled s (.setting q item value)
  | map (q : SciReq) (page pages frame : BitVec 32) (entry : BitVec 64) :
      (Arrives s q 0x08 true ∧ 1 ≤ pages.toNat ∧ page.toNat + pages.toNat ≤ 524288 ∧
      entry &&& ~~~0x1FFFF80000000000 = 0 ∧ frame.toNat + pages.toNat ≤ frameCount s.dev) →
      Enabled s (.map q page pages frame entry)
  | unmap (q : SciReq) (page pages : BitVec 32) :
      (Arrives s q 0x09 true ∧ page.toNat + pages.toNat ≤ 524288 ∧
      mayShoot s.dev ((List.range pages.toNat).map (page.toNat + ·)) = true) →
      Enabled s (.unmap q page pages)
  | pin (q : SciReq) (addr len : BitVec 64) :
      (Arrives s q 0x0A false ∧ inDevice addr.toNat len.toNat = true ∧ budgetOk s.dev 2123 = true) →
      Enabled s (.pin q addr len)
  | unpin (q : SciReq) (addr len : BitVec 64) :
      (Arrives s q 0x0B false ∧ inDevice addr.toNat len.toNat = true ∧ budgetOk s.dev 2123 = true) →
      Enabled s (.unpin q addr len)
  | retirePage (q : SciReq) (migrate : Bool) (page : BitVec 32) :
      (Arrives s q 0x0C true ∧ page.toNat < 524288 ∧ mayShoot s.dev [page.toNat] = true) →
      Enabled s (.retirePage q migrate page)
  | retireCacheBank (q : SciReq) (slice : BitVec 16) (bank : BitVec 8) :
      (Arrives s q 0x0C true ∧ slice.toNat < 2048 ∧ bank.toNat ≤ 16) →
      Enabled s (.retireCacheBank q slice bank)
  | put (q : SciReq) (addr : BitVec 64) (data : List (BitVec 8)) :
      (Arrives s q 0x10 false ∧ portHeld s.dev q 0x10 = false ∧ data ≠ [] ∧
      rangeOpen addr.toNat data.length = true ∧ oneRegion addr.toNat data.length = true) →
      Enabled s (.put q addr data)
  | get (q : SciReq) (addr : BitVec 64) (len : BitVec 32) :
      (Arrives s q 0x11 false ∧ portHeld s.dev q 0x11 = false ∧ 1 ≤ len.toNat ∧
      rangeOpen addr.toNat len.toNat = true ∧ oneRegion addr.toNat len.toNat = true) →
      Enabled s (.get q addr len)
  | copy (q : SciReq) (src dst len : BitVec 64) (engine cls : BitVec 8) :
      (Arrives s q 0x12 false ∧ engine.toNat ≤ 63 ∧ cls.toNat ≤ 7 ∧
      (getEngine s.dev engine.toNat).descs.length < 64) →
      Enabled s (.copy q src dst len engine cls)
  | copyDescriptorComplete (engine : BitVec 6) :
      ((getEngine s.dev engine.toNat).halted = false ∧
      ∃ c l, (getEngine s.dev engine.toNat).descs = c :: l ∧ (c.status ≠ 0 ∨ c.len ≤ c.off ∨
      (isOwn s.dev c.src = true ∧ isOwn s.dev c.dst = true ∧ budgetOk s.dev (2048 + engine.toNat) = true))) →
      Enabled s (.copyDescriptorComplete engine)
  | copyChannelRestart (engine : BitVec 6) :
      (getEngine s.dev engine.toNat).halted = true →
      Enabled s (.copyChannelRestart engine)
  | loadModule (q : SciReq) (pinCode : Bool) (addr : BitVec 64) (len : BitVec 32) :
      (Arrives s q 0x18 true ∧ (pinCode = true → budgetOk s.dev 2123 = true) ∧
      addr.toNat % 8 = 0 ∧ inDevice addr.toNat len.toNat = true ∧ s.dev.disp.modules.length < 1024) →
      Enabled s (.loadModule q pinCode addr len)
  | unloadModule (q : SciReq) (handle : BitVec 32) :
      (Arrives s q 0x18 true ∧ (mapGet none s.dev.disp.modules handle.toNat).isSome = true ∧
      moduleBusy s.dev handle.toNat = false) →
      Enabled s (.unloadModule q handle)
  | loadConfig (q : SciReq) (addr : BitVec 64) (pin : Bool) :
      (Arrives s q 0x19 true ∧ budgetOk s.dev 2123 = true ∧ addr.toNat % 64 = 0 ∧
      inDevice addr.toNat 64 = true) →
      Enabled s (.loadConfig q addr pin)
  | wqOpen (q : SciReq) (queue : BitVec 16) (entries : BitVec 32) (item comp : BitVec 64) :
      (Arrives s q 0x1A true ∧ (openQueue s.dev queue.toNat entries.toNat item.toNat comp.toNat).1 = 0) →
      Enabled s (.wqOpen q queue entries item comp)
  | wqClose (q : SciReq) (queue : BitVec 16) :
      (Arrives s q 0x1A true ∧ ∃ v, getQueue s.dev queue.toNat = some v ∧ v.items = []) →
      Enabled s (.wqClose q queue)
  | launch (q : SciReq) (l : Launch) : (Arrives s q 0x20 false ∧ launchStatus s.dev l = 0) → Enabled s (.launch q l)
  | signal (q : SciReq) (index : BitVec 16) (add : Bool) (value : BitVec 64) :
      (Arrives s q 0x21 false ∧ index.toNat ≠ 0xFFFF) →
      Enabled s (.signal q index add value)
  | wait (q : SciReq) (index : BitVec 16) (timeoutUs : BitVec 32) (value : BitVec 64) :
      (Arrives s q 0x22 false ∧ index.toNat ≠ 0xFFFF ∧
      value.toNat ≤ (getSignal s.dev index.toNat).toNat) →
      Enabled s (.wait q index timeoutUs value)
  | waitTimeout (id : Nat) : (∃ w ∈ s.dev.disp.waits, w.id = id) → Enabled s (.waitTimeout id)
  | workItemStart (queue : BitVec 12) :
      (isReady s.dev = true ∧ nextQueue s.dev = some queue.toNat ∧
      ∃ v w, getQueue s.dev queue.toNat = some v ∧ startable s.dev v = some w) →
      Enabled s (.workItemStart queue)
  | workItemComplete (queue : BitVec 12) (item : Nat) :
      (isReady s.dev = true ∧ (getQueue s.dev queue.toNat).isSome = true ∧
      ∃ w, getItem s.dev queue.toNat item = some w ∧ w.begun = true ∧ ∀ p ∈ w.parts, p.st = .ended) →
      Enabled s (.workItemComplete queue item)
  | treeOpen (q : SciReq) (t : TreeArgs) (image : BitVec 512) :
      (Arrives s q 0x28 false ∧ treeFields t = true ∧ lcState (getCtx s.dev t.context.toNat) = lcFree) →
      Enabled s (.treeOpen q t image)
  | treeStart (q : SciReq) (t : TreeArgs) :
      (Arrives s q 0x28 false ∧ treeFields t = true ∧
      (lcState (getCtx s.dev t.context.toNat) = lcOpen ∨ lcState (getCtx s.dev t.context.toNat) = lcDone)) →
      Enabled s (.treeStart q t)
  | treeClose (q : SciReq) (t : TreeArgs) :
      (Arrives s q 0x28 false ∧ treeFields t = true ∧
      (lcState (getCtx s.dev t.context.toNat) = lcOpen ∨ lcState (getCtx s.dev t.context.toNat) = lcDone)) →
      Enabled s (.treeClose q t)
  | treeAbort (q : SciReq) (t : TreeArgs) :
      (Arrives s q 0x28 false ∧ treeFields t = true ∧
      lcState (getCtx s.dev t.context.toNat) = lcRunning) →
      Enabled s (.treeAbort q t)
  | treeGenerationStart (ctx : BitVec 10) :
      ((getCtx s.dev ctx.toNat).armed = true ∧
      (lcState (getCtx s.dev ctx.toNat) = lcOpen ∨ lcState (getCtx s.dev ctx.toNat) = lcDone) ∧
      signalReached s.dev (getCtx s.dev ctx.toNat).startSig ((getCtx s.dev ctx.toNat).startVal +
      BitVec.ofNat 64 (if (getCtx s.dev ctx.toNat).auto then (getCtx s.dev ctx.toNat).gen else 0)) = true) →
      Enabled s (.treeGenerationStart ctx)
  | fenceCore (q : SciReq) (core : BitVec 16) :
      (Arrives s q 0x30 true ∧ core.toNat < 2048 ∧ coreFenced s.dev core.toNat = false) →
      Enabled s (.fenceCore q core)
  | reset (q : SciReq) (kind : BitVec 8) (index : BitVec 16) :
      (Arrives s q 0x31 true ∧ resetNamed kind.toNat index.toNat = true) →
      Enabled s (.reset q kind index)
  | update (q : SciReq) (comp : BitVec 8) (addr : BitVec 64) (len : BitVec 32) (im : ImageInfo) :
      (Arrives s q 0x32 true ∧ budgetOk s.dev 2123 = true ∧ comp.toNat < 2 ∧
      inDevice addr.toNat len.toNat = true) →
      Enabled s (.update q comp addr len im)
  | role (q : SciReq) (rl : BitVec 8) (mgrValid : Bool) (manager : BitVec 32) :
      (Arrives s q 0x33 true ∧ rl.toNat ≤ 2 ∧ manager.toNat < 2 ^ 17) →
      Enabled s (.role q rl mgrValid manager)
  | roleDeviceId (q : SciReq) (deviceId : BitVec 32) :
      (Arrives s q 0x33 true ∧ deviceId.toNat < 2 ^ 17) →
      Enabled s (.roleDeviceId q deviceId)
  | roleRouteEntries (q : SciReq) (first : BitVec 32) (entries : List (BitVec 32)) :
      (Arrives s q 0x33 true ∧ 1 ≤ entries.length ∧ entries.length ≤ 100 ∧
      first.toNat + entries.length ≤ 131072) →
      Enabled s (.roleRouteEntries q first entries)
  | managementMessage (m : MgmtMsg) : s.dev.sor.running = true → Enabled s (.managementMessage m)
  | ownerListChange (signed_ sigOk : Bool) (signer : BitVec 512) (keys : List (BitVec 512)) :
      (s.dev.sor.running = true ∧ keys.length ≤ 8) →
      Enabled s (.ownerListChange signed_ sigOk signer keys)
  | p54OutOfRange (mv : BitVec 16) :
      (s.dev.sor.running = true ∧ (mv.toNat < 42000 ∨ 60000 < mv.toNat)) →
      Enabled s (.p54OutOfRange mv)
  | p54Restart : (s.dev.sor.running = true ∧ s.dev.sor.p54Ok = false) → Enabled s .p54Restart
  | leakSenseSample (ohms : Option Nat) : s.dev.sor.running = true → Enabled s (.leakSenseSample ohms)
  | bondWearSample : s.dev.sor.running = true → Enabled s .bondWearSample
  | bondWearPersist : s.dev.sor.running = true → Enabled s .bondWearPersist
  | compensationUpdate : s.dev.sor.running = true → Enabled s .compensationUpdate
  | railReport (rail : BitVec 7) (mv cur : BitVec 16) :
      (rail.toNat < 72 ∧ s.dev.sor.running = true) →
      Enabled s (.railReport rail mv cur)
  | senseFault (rail : BitVec 7) :
      (rail.toNat < 72 ∧ bit (regGet s.dev (aRail rail.toNat)) 62 = false) →
      Enabled s (.senseFault rail)
  | noticeLeadExpiry (cluster : BitVec 6) (seq : BitVec 8) :
      (∃ u ∈ (getCluster s.dev cluster.toNat).ups, u.seq = seq.toNat) →
      Enabled s (.noticeLeadExpiry cluster seq)
  | regulatorPhaseShed (cluster : BitVec 6) :
      (getCluster s.dev cluster.toNat).phases ≠ [] →
      Enabled s (.regulatorPhaseShed cluster)
  | aonClockFail : (s.dev.sor.running = true ∧ bit (regGet s.dev aClkStatus) 63 = false) → Enabled s .aonClockFail
  | refClockFail : (s.dev.sor.running = true ∧ bit (regGet s.dev aClkStatus) 62 = true) → Enabled s .refClockFail
  | refClockRetryLog : (s.dev.boot.waitRef = true ∧ bootStep s.dev = 1) → Enabled s .refClockRetryLog
  | refClockRestored :
      (s.dev.boot.waitRef = true ∧ bootStep s.dev = 1 ∧ s.dev.sor.p54Ok = true) →
      Enabled s .refClockRestored
  | clusterIdleTimeout (cluster : BitVec 6) :
      (bit (regGet s.dev (aCluster cluster.toNat)) 61 = true ∧
      (getCluster s.dev cluster.toNat).st = .awake ∧ clusterIdle s.dev cluster.toNat = true) →
      Enabled s (.clusterIdleTimeout cluster)
  | sleepEntryDone (cluster : BitVec 6) :
      (getCluster s.dev cluster.toNat).st = .entering →
      Enabled s (.sleepEntryDone cluster)
  | clusterWakeDone (cluster : BitVec 6) :
      (getCluster s.dev cluster.toNat).st = .waking →
      Enabled s (.clusterWakeDone cluster)
  | sorrelSample (p : Sample) : (s.dev.sor.running = true ∧ nothingDue s.dev = true) → Enabled s (.sorrelSample p)
  | ruleFire (rule elem : BitVec 6) :
      ((getEl s.dev rule.toNat elem.toNat).due = true ∧
      (getEl s.dev rule.toNat elem.toNat).fired = false ∧ (ruAction (ruleHi s.dev rule.toNat) = 3 → wakeDue s.dev = false)) →
      Enabled s (.ruleFire rule elem)
  | ruleRelease (rule elem : BitVec 6) :
      ((getEl s.dev rule.toNat elem.toNat).due = true ∧
      (getEl s.dev rule.toNat elem.toNat).fired = true) →
      Enabled s (.ruleRelease rule elem)
  | orderlyPowerDownExpiry : s.dev.sor.orderly = true → Enabled s .orderlyPowerDownExpiry
  | thermalLimitRelease (sensor : BitVec 12) :
      ((getSensor s.dev sensor.toNat).limit = true ∧
      100 ≤ (getSensor s.dev sensor.toNat).limCnt) →
      Enabled s (.thermalLimitRelease sensor)
  | thermalTrip (sensor : BitVec 12) :
      (3 ≤ (getSensor s.dev sensor.toNat).trip ∧ isBroken (getSensor s.dev sensor.toNat) = false) →
      Enabled s (.thermalTrip sensor)
  | rateActRelease (sensor : BitVec 12) :
      ((getSensor s.dev sensor.toNat).rate = true ∧ 100 ≤ (getSensor s.dev sensor.toNat).rateCnt) →
      Enabled s (.rateActRelease sensor)
  | sensorBroken (sensor : BitVec 12) (kind : BitVec 3) :
      ((getSensor s.dev sensor.toNat).found = kind.toNat ∧ kind.toNat ≠ 0) →
      Enabled s (.sensorBroken sensor kind)
  | envelopeSwitchDone : bit (regGet s.dev aEnv) 63 = true → Enabled s .envelopeSwitchDone
  | droopEpisodeStart (rail : BitVec 7) (mv : BitVec 16) :
      (rail.toNat < 72 ∧ comparatorOn s.dev rail.toNat = true ∧
      mv.toNat + warnMv s.dev < droopBase s.dev rail.toNat ∧ droopBase s.dev rail.toNat ≤ mv.toNat + resetMv s.dev ∧
      (rail.toNat < 64 → (getCluster s.dev rail.toNat).droop = none)) →
      Enabled s (.droopEpisodeStart rail mv)
  | droopEpisodeEnd (cluster : BitVec 6) (minMv : BitVec 16) (us : BitVec 32) :
      ((getCluster s.dev cluster.toNat).droop.isSome = true ∧
      regField s.dev aDroopCfg 16 16 ≤ us.toNat) →
      Enabled s (.droopEpisodeEnd cluster minMv us)
  | resetLevelCrossing (rail : BitVec 7) :
      (rail.toNat < 72 ∧ (rail.toNat = 69 ∨ comparatorOn s.dev rail.toNat = true)) →
      Enabled s (.resetLevelCrossing rail)
  | funnelAccept : (∃ k r rs l, s.dev.funnel.srcq = (k, r :: rs) :: l) → Enabled s .funnelAccept
  | flashLogCopy : s.dev.funnel.flashq ≠ [] → Enabled s .flashLogCopy
  | coreFenceComplete (core : BitVec 11) :
      ((getCore s.dev core.toNat).fencing = true ∧ sentOpen s.dev core.toNat = false) →
      Enabled s (.coreFenceComplete core)
  | cvuPause (unit : BitVec 5) : (getCvu s.dev unit.toNat).pausing = true → Enabled s (.cvuPause unit)
  | cvuTake (unit : BitVec 5) (b : CvuBlock) :
      (cvStopped s.dev unit.toNat = false ∧
      bits (regGet s.dev (cvCtrl unit.toNat)) 56 4 = b.attach.toNat ∧ 1 ≤ b.attach.toNat ∧ b.attach.toNat ≤ 5 ∧
      bits (regGet s.dev (cvCtrl unit.toNat)) 50 6 = b.index.toNat ∧ cvPasses s.dev unit.toNat b = true) →
      Enabled s (.cvuTake unit b)
  | sorrelStart : s.dev.sor.running = false → Enabled s .sorrelStart
  | bringupRails (refOk : Bool) :
      (s.dev.sor.running = true ∧ s.dev.sor.p54Ok = true ∧ s.dev.sor.down = false ∧
      bootStep s.dev = 1 ∧ s.dev.boot.waitRef = false) →
      Enabled s (.bringupRails refOk)
  | bootVerify (v : BootVerify) :
      (bootStep s.dev = 2 ∧ s.dev.sor.rails = true ∧ regField s.dev aSecBoot 40 8 = 0) →
      Enabled s (.bootVerify v)
  | recoveryImage (im : ImageInfo) :
      (bootStep s.dev = 2 ∧ regField s.dev aSecBoot 40 8 = 1) →
      Enabled s (.recoveryImage im)
  | loadFlashRecords : bootStep s.dev = 3 → Enabled s .loadFlashRecords
  | training (t : Training) :
      (bootStep s.dev = 4 ∧ (initDone s.dev = true ∨ s.dev.boot.base = true ∨
      ∀ c ∈ channels, bit (regGet s.dev (aChan c)) 63 = false)) →
      Enabled s (.training t)
  | cacheInit (t : CheckerResults) : bootStep s.dev = 5 → Enabled s (.cacheInit t)
  | runtimeBroadcast : bootStep s.dev = 6 → Enabled s .runtimeBroadcast
  | knownAnswerRuns (failed : List (BitVec 11)) : bootStep s.dev = 7 → Enabled s (.knownAnswerRuns failed)
  | ready : (bootStep s.dev = 8 ∧ isReady s.dev = false ∧ regField s.dev aSecBoot 40 8 = 0) → Enabled s .ready
  | powerOnReset (trig : BitVec 4) : trig.toNat ∈ [3, 8] → Enabled s (.powerOnReset trig)
  | moduleReset (trig : BitVec 4) :
      (s.dev.sor.running = true ∧ trig.toNat ∈ moduleTriggers s.dev) →
      Enabled s (.moduleReset trig)
  | deviceWarmReset (trig : BitVec 4) :
      (s.dev.sor.rails = true ∧ trig.toNat ∈ [0, 3, 6, 7, 10]) →
      Enabled s (.deviceWarmReset trig)
  | baseReset (trig : BitVec 4) : ResetTurn s.dev 3 0 trig.toNat → Enabled s (.baseReset trig)
  | baseQuiesceComplete : s.dev.boot.quiesce = true → Enabled s .baseQuiesceComplete
  | baseQuiesceFail : s.dev.boot.quiesce = true → Enabled s .baseQuiesceFail
  | halfReset (half : BitVec 1) (trig : BitVec 4) :
      ResetTurn s.dev 4 half.toNat trig.toNat →
      Enabled s (.halfReset half trig)
  | clusterReset (cluster : BitVec 6) (trig : BitVec 4) (failed : List (BitVec 11)) :
      ResetTurn s.dev 5 cluster.toNat trig.toNat →
      Enabled s (.clusterReset cluster trig failed)
  | coreReset (core : BitVec 11) (trig : BitVec 4) (katFails : Bool) :
      ResetTurn s.dev 6 core.toNat trig.toNat →
      Enabled s (.coreReset core trig katFails)
  | debugToken (t : Token) : s.dev.sor.rails = true → Enabled s (.debugToken t)
  | registerReadClear (addr : BitVec 47) : budgetOk s.dev 2123 = true → Enabled s (.registerReadClear addr)
  | registerWrite (addr : BitVec 47) (v : BitVec 64) : budgetOk s.dev 2123 = true → Enabled s (.registerWrite addr v)
  | instructionCacheFill (x : At) :
      (∃ l e d, leadOf x 0 s.dev = some l ∧ pcBad l.pc = false ∧
      fetchAddr (getCore s.dev l.core) l.pc < 2 ^ 39 ∧
      (∀ w ∈ (getCore s.dev l.core).ic, w.1 ≠ fetchAddr (getCore s.dev l.core) l.pc / 128) ∧
      coreTx s.dev l.core (fetchAddr (getCore s.dev l.core) l.pc / 2 ^ 20) = (.entry e, d) ∧ budgetOk d l.core = true ∧
      serveStop d (some l.core) e (fetchAddr (getCore s.dev l.core) l.pc / 128) .read = 0 ∧
      bit (regGet d (aCdcStatus (halfOf (homeOf e (fetchAddr (getCore s.dev l.core) l.pc / 128))))) 62 = false) →
      Enabled s (.instructionCacheFill x)
  | hostPortLinkDown (port : BitVec 1) : (getHost s.dev port.toNat).link = true → Enabled s (.hostPortLinkDown port)
  | hostPortLinkUp (port : BitVec 1) :
      ((getHost s.dev port.toNat).link = false ∧ listening s.dev port.toNat = false) →
      Enabled s (.hostPortLinkUp port)
  | linkKeyEpoch (port : BitVec 3) : (getLink s.dev port.toNat).st = lsUp → Enabled s (.linkKeyEpoch port)
  | boundaryScan (nonceRead : Bool) :
      (nonceRead = true → s.dev.sor.rails = true) →
      Enabled s (.boundaryScan nonceRead)
  | coreBarLimitWrite (core : BitVec 11) (v : BitVec 64) : Enabled s (.coreBarLimitWrite core v)
  | spxBankStateWrite (core : BitVec 11) (v : BitVec 64) : Enabled s (.spxBankStateWrite core v)
  | thrashWindowEnd (half : BitVec 1) (cls : BitVec 3) : Enabled s (.thrashWindowEnd half cls)
  | writebackAll (half : BitVec 1) (v : BitVec 64) : Enabled s (.writebackAll half v)
  | cntClear (half : BitVec 1) (v : BitVec 64) : Enabled s (.cntClear half v)
  | bankRetire (slice : BitVec 11) (v : BitVec 64) : Enabled s (.bankRetire slice v)
  | pageMapWrite (page : BitVec 19) (bytes : BitVec 4) (v : BitVec 64) : Enabled s (.pageMapWrite page bytes v)
  | shootdownStart (v : BitVec 64) : Enabled s (.shootdownStart v)
  | missShareWrite (cls : BitVec 3) (v : BitVec 64) : Enabled s (.missShareWrite cls v)
  | mcqShareWrite (cls : BitVec 3) (v : BitVec 64) : Enabled s (.mcqShareWrite cls v)
  | routeEntryWrite (v : BitVec 64) : Enabled s (.routeEntryWrite v)
  | lovageContextWrite (ctx : BitVec 10) (word : BitVec 3) (v : BitVec 64) : Enabled s (.lovageContextWrite ctx word v)
  | lovageOpen (ctx : BitVec 10) : Enabled s (.lovageOpen ctx)
  | lovageStart (ctx : BitVec 10) : Enabled s (.lovageStart ctx)
  | lovageClose (ctx : BitVec 10) : Enabled s (.lovageClose ctx)
  | lovageAbort (ctx : BitVec 10) : Enabled s (.lovageAbort ctx)
  | wakeFrame (port : BitVec 1) : Enabled s (.wakeFrame port)
  | pfcPause (port : BitVec 1) (prio : BitVec 3) (xoff : Bool) : Enabled s (.pfcPause port prio xoff)
  | regulatorNotice (cluster : BitVec 6) (frame : BitVec 64) (canBeReady : Bool) : Enabled s (.regulatorNotice cluster frame canBeReady)
  | noticeAck (cluster : BitVec 6) (frame : BitVec 32) : Enabled s (.noticeAck cluster frame)
  | clusterSleepRequest (cluster : BitVec 6) : Enabled s (.clusterSleepRequest cluster)
  | clusterWakeRequest (cluster : BitVec 6) : Enabled s (.clusterWakeRequest cluster)
  | sensorClear (v : BitVec 64) : Enabled s (.sensorClear v)
  | sorRuleWrite (rule : BitVec 6) (hi : Bool) (v : BitVec 64) : Enabled s (.sorRuleWrite rule hi v)
  | envelopeSwitch (v : BitVec 64) : Enabled s (.envelopeSwitch v)
  | errInjectArm (v : BitVec 64) : Enabled s (.errInjectArm v)
  | coreFenceStart (core : BitVec 11) (hw : Bool) : Enabled s (.coreFenceStart core hw)
  | cvuCtrlWrite (unit : BitVec 5) (v : BitVec 64) : Enabled s (.cvuCtrlWrite unit v)
  | cvuRestart (unit : BitVec 5) : Enabled s (.cvuRestart unit)
  | cvuConfigWrite (unit : BitVec 5) (reg : CvuReg) (v : BitVec 64) : Enabled s (.cvuConfigWrite unit reg v)
  | standbyPowerLoss : Enabled s .standbyPowerLoss

end Machine

end Sys2Proof
end

