-- ==== Sys2Proof/WellFormed.lean ====
section
/-! DEFINITION. Which terms of `Instr` are commands the device can be given: the relations between fields that
their types do not say. A meaning is total all the same. -/

namespace Sys2Proof

/-- A window access lies within the 512 KiB of a scratchpad, and a write carries as many bytes as it says (07
R219). -/
def winOk (a : WinAccess) : Bool :=
  decide (1 ≤ a.len) && decide (a.off.toNat + a.len ≤ 524288) &&
    decide (a.data.length = if a.write then a.len else 0)

/-- A GET carries no data; any other message carries LEN bytes, at most 512 (11 R327, Table 11.5). -/
def msgOk (m : Msg) : Bool :=
  decide (m.data.length ≤ 512) && decide (m.data.length = if m.typ = 1 then 0 else m.len.toNat)

/-- A frame fills at least its Spaolo header and payload in the receive buffer (12 R363). -/
def frameOk (f : Frame) : Bool := decide (32 + f.payload ≤ f.bytes)

/-- A sample names sensors that exist, and the receive power of ten ports (14 R425, R437). -/
def sampleOk (p : Sample) : Bool :=
  p.temps.all (fun e => decide (e.1 < 2224)) && decide (p.optical.length = 10)

/-- A command is well formed. -/
def Instr.wf : Instr → Bool
  | .iadd _ _ => true
  | .isub _ _ => true
  | .imul _ _ => true
  | .imulhi _ _ => true
  | .imad _ _ => true
  | .imin _ _ => true
  | .imax _ _ => true
  | .iabs _ _ => true
  | .lmux _ _ => true
  | .shl _ _ => true
  | .shr _ _ => true
  | .bfe _ _ => true
  | .bfi _ _ => true
  | .popc _ _ => true
  | .clz _ _ => true
  | .brev _ _ => true
  | .ipred _ _ => true
  | .sel _ _ => true
  | .mov _ _ => true
  | .iaddi _ _ => true
  | .movi _ _ => true
  | .movl _ _ => true
  | .shfl _ _ => true
  | .rdsys _ _ => true
  | .fadd _ _ => true
  | .fmul _ _ => true
  | .ffma _ _ => true
  | .fmin _ _ => true
  | .fmax _ _ => true
  | .fpred _ _ => true
  | .frcpSeed _ _ => true
  | .frsqSeed _ _ => true
  | .f2i _ _ => true
  | .i2f _ _ => true
  | .f2f _ _ => true
  | .pack _ _ => true
  | .unpack _ _ => true
  | .plmux _ _ => true
  | .vote _ _ => true
  | .ppack _ _ => true
  | .punpack _ _ => true
  | .dot4I8 _ _ => true
  | .dot8I4 _ _ => true
  | .dot2F16 _ _ => true
  | .dot2Bf16 _ _ => true
  | .dot4F8 _ _ => true
  | .dot8F4 _ _ => true
  | .bra _ _ => true
  | .brx _ _ => true
  | .call _ _ => true
  | .callx _ _ => true
  | .yield _ _ => true
  | .barGrp _ _ => true
  | .barCore _ _ => true
  | .exit _ _ => true
  | .trap _ _ => true
  | .nop _ _ => true
  | .ualu _ _ => true
  | .umovi _ _ => true
  | .umovl _ _ => true
  | .urdl _ _ => true
  | .ld _ _ => true
  | .ldLast _ _ => true
  | .st _ _ => true
  | .ldc _ _ => true
  | .ldd _ _ => true
  | .cachePref _ _ => true
  | .cacheDead _ _ => true
  | .cachePin _ _ => true
  | .cacheUnpin _ _ => true
  | .spxLd _ _ => true
  | .spxSt _ _ => true
  | .spxFill _ _ => true
  | .spxCopy _ _ => true
  | .spxHandover _ _ => true
  | .spxWait _ _ => true
  | .fenceAcq _ _ => true
  | .fenceRel _ _ => true
  | .fenceSc _ _ => true
  | .fenceI _ _ => true
  | .fenceRo _ _ => true
  | .atomAdd _ _ => true
  | .atomMin _ _ => true
  | .atomMax _ _ => true
  | .atomAnd _ _ => true
  | .atomOr _ _ => true
  | .atomXor _ _ => true
  | .atomExch _ _ => true
  | .atomCas _ _ => true
  | .loadDataReturn _ _ => true
  | .atomicReturn _ _ => true
  | .storeAcknowledge _ _ => true
  | .fenceDrained _ => true
  | .faultBarrierStall _ => true
  | .coreBarLimitWrite _ _ => true
  | .taskStart _ _ _ => true
  | .groupAdmit _ _ => true
  | .taskRelease _ _ => true
  | .mxWld _ _ => true
  | .mxSld _ _ => true
  | .mxMma _ _ => true
  | .mxDrain _ _ => true
  | .mxTzero _ _ => true
  | .mxWait _ _ => true
  | .mxMmaStreamStart _ => true
  | .mxMmaComplete _ => true
  | .tileMoverOpStart _ => true
  | .tileMoverOpComplete _ => true
  | .ruMap _ _ => true
  | .ruSmax1 _ _ => true
  | .ruSmax2 _ _ => true
  | .ruStat _ _ => true
  | .ruNorm _ _ => true
  | .ruRowout _ _ => true
  | .ruOpStart _ => true
  | .ruOpComplete _ => true
  | .ffx _ _ => true
  | .ffxLds _ _ => true
  | .ffxLoadStart _ => true
  | .ffxLoadComplete _ => true
  | .ffxSlotSwitch _ => true
  | .ffxComplete _ => true
  | .bankOwnerChange _ _ _ => true
  | .bankWakeComplete _ _ => true
  | .spxBankStateWrite _ _ => true
  | .spxWindowAccess _ acc => winOk acc
  | .spxCorrectionWriteback _ _ => true
  | .homeRead _ => true
  | .homeWrite _ => true
  | .homeAtomic _ => true
  | .deadMark _ => true
  | .pinLine _ => true
  | .unpinLine _ => true
  | .prefLine _ => true
  | .missSlotFreed _ _ => true
  | .lineFill _ => true
  | .thrashWindowEnd _ _ => true
  | .writebackAll _ _ => true
  | .writebackAllDone _ => true
  | .cntClear _ _ => true
  | .bankRetire _ _ => true
  | .pageMapWrite _ bytes _ => [1, 2, 4, 8].contains bytes.toNat
  | .shootdownStart _ => true
  | .shootdownDone => true
  | .tlbMissFill _ _ => true
  | .memRetrainInterval _ => true
  | .burstCrcFail _ _ _ => true
  | .memInitDone => true
  | .scrubPassStart => true
  | .scrubRead _ => true
  | .bankAccessPerform _ bank arrivals => decide (bank.toNat ≤ 16) && arrivals.all fun r => decide (r.who.toNat < 6)
  | .grantWatchdogExpiry _ _ => true
  | .budgetWindow master => decide (master.toNat < 2124)
  | .missShareWrite _ _ => true
  | .mcqShareWrite _ _ => true
  | .linkTrained _ => true
  | .linkKeyed _ _ _ => true
  | .linkRetryTimer _ => true
  | .laneFail _ _ => true
  | .linkDown _ => true
  | .flitReceive _ flit => flit.msgs.all msgOk
  | .retryReq _ _ => true
  | .messageForward _ m => msgOk m
  | .putMessage _ m => msgOk m
  | .getMessage _ m => msgOk m
  | .atomicMessage _ m => msgOk m
  | .msg _ m => msgOk m
  | .reduce _ m => msgOk m
  | .barrier _ m => msgOk m
  | .completion _ m => msgOk m
  | .getData _ m => msgOk m
  | .atomicData _ m => msgOk m
  | .fabRequestTimeout _ => true
  | .routeEntryWrite _ => true
  | .lovageContextWrite _ _ _ => true
  | .lovageOpen _ => true
  | .lovageStart _ => true
  | .lovageClose _ => true
  | .lovageAbort _ => true
  | .lovageChunkComplete _ _ => true
  | .lovageTimeout _ => true
  | .heartbeatSend => true
  | .memberHeartbeatTimeout _ => true
  | .fanoutTimeout _ => true
  | .frameReceive _ fr => frameOk fr
  | .wakeFrame _ => true
  | .pfcPause _ _ _ => true
  | .sessionHello _ _ => true
  | .sessionFinish _ _ => true
  | .sessionClose _ => true
  | .handshakeTimeout _ => true
  | .sessionIdleTimeout _ => true
  | .query _ _ _ => true
  | .telemetry _ _ => true
  | .telemetryPeriod _ _ => true
  | .setting _ _ _ => true
  | .map _ _ _ _ _ => true
  | .unmap _ _ _ => true
  | .pin _ _ _ => true
  | .unpin _ _ _ => true
  | .retirePage _ _ _ => true
  | .retireCacheBank _ _ _ => true
  | .put _ _ _ => true
  | .get _ _ _ => true
  | .copy _ _ _ _ _ _ => true
  | .copyDescriptorComplete _ => true
  | .copyChannelRestart _ => true
  | .loadModule _ _ _ _ => true
  | .unloadModule _ _ => true
  | .loadConfig _ _ _ => true
  | .wqOpen _ _ _ _ _ => true
  | .wqClose _ _ => true
  | .launch _ d => decide (d.args.length = 16)
  | .signal _ _ _ _ => true
  | .wait _ _ _ _ => true
  | .waitTimeout _ => true
  | .workItemStart _ => true
  | .workItemComplete _ _ => true
  | .treeOpen _ _ _ => true
  | .treeStart _ _ => true
  | .treeClose _ _ => true
  | .treeAbort _ _ => true
  | .treeGenerationStart _ => true
  | .fenceCore _ _ => true
  | .reset _ _ _ => true
  | .update _ _ _ _ _ => true
  | .role _ _ _ _ => true
  | .roleDeviceId _ _ => true
  | .roleRouteEntries _ _ _ => true
  | .managementMessage _ => true
  | .ownerListChange _ _ _ keys => decide (keys.length ≤ 8)
  | .p54OutOfRange _ => true
  | .p54Restart => true
  | .leakSenseSample _ => true
  | .railReport rail _ _ => decide (rail.toNat < 72)
  | .senseFault rail => decide (rail.toNat < 72)
  | .regulatorNotice _ _ _ => true
  | .noticeAck _ _ => true
  | .noticeLeadExpiry _ _ => true
  | .regulatorPhaseShed _ => true
  | .aonClockFail => true
  | .refClockFail => true
  | .refClockRetryLog => true
  | .clusterSleepRequest _ => true
  | .clusterWakeRequest _ => true
  | .clusterIdleTimeout _ => true
  | .sleepEntryDone _ => true
  | .clusterWakeDone _ => true
  | .sorrelSample p => sampleOk p
  | .ruleFire _ _ => true
  | .ruleRelease _ _ => true
  | .orderlyPowerDownExpiry => true
  | .thermalLimitRelease sensor => decide (sensor.toNat < 2224)
  | .thermalTrip sensor => decide (sensor.toNat < 2224)
  | .rateActRelease sensor => decide (sensor.toNat < 2224)
  | .sensorBroken sensor _ => decide (sensor.toNat < 2224)
  | .sensorClear _ => true
  | .sorRuleWrite _ _ _ => true
  | .bondWearSample => true
  | .bondWearPersist => true
  | .compensationUpdate => true
  | .envelopeSwitch _ => true
  | .envelopeSwitchDone => true
  | .droopEpisodeStart rail _ => decide (rail.toNat < 72)
  | .droopEpisodeEnd _ _ _ => true
  | .resetLevelCrossing rail => decide (rail.toNat < 72)
  | .funnelAccept => true
  | .flashLogCopy => true
  | .errInjectArm _ => true
  | .coreFenceStart _ _ => true
  | .coreFenceComplete _ => true
  | .cvuCtrlWrite _ _ => true
  | .cvuRestart _ => true
  | .cvuConfigWrite _ _ _ => true
  | .cvuPause _ => true
  | .cvuTake _ _ => true
  | .sorrelStart => true
  | .bringupRails _ => true
  | .bootVerify _ => true
  | .recoveryImage _ => true
  | .loadFlashRecords => true
  | .training _ => true
  | .cacheInit _ => true
  | .runtimeBroadcast => true
  | .knownAnswerRuns _ => true
  | .ready => true
  | .powerOnReset _ => true
  | .moduleReset _ => true
  | .deviceWarmReset _ => true
  | .baseReset _ => true
  | .baseQuiesceComplete => true
  | .baseQuiesceFail => true
  | .halfReset _ _ => true
  | .clusterReset _ _ _ => true
  | .coreReset _ _ _ => true
  | .debugToken _ => true
  | .registerReadClear _ => true
  | .registerWrite _ _ => true
  | .standbyPowerLoss => true
  | .refClockRestored => true
  | .instructionCacheFill _ => true
  | .hostPortLinkDown _ => true
  | .hostPortLinkUp _ => true
  | .linkKeyEpoch _ => true
  | .frameCounterLimit _ => true
  | .boundaryScan _ => true

end Sys2Proof
end

