-- ==== Sys2Proof/Certificates/Slice0/Obligations.lean ====
section
/-! DEFINITION. The statements for the provers. A command of a core instruction is stated for every state and
operands for which `Issues` holds: hypotheses on the state and the operands alone. -/

open Sys2Proof Sys2Proof.Machine

/-- A step runs the command at the front of the queue on the state with the queue's rest (00_scope.md). -/
def Obligations.StepRunsFront : Prop :=
  ∀ (c : Instr) (s : State), step { s with pending := c :: s.pending } = exec c s

/-- Integer arithmetic wraps modulo the width of TYPE; with SAT the six named kinds clamp to the range of TYPE,
and nothing but the destination changes (R80). -/
def Obligations.IntegerResultsWrapOrClamp : Prop :=
  (∀ x f s l, Issues s x ((form2 f allInt 0xF8).op 0x10 .fb) l → SetsX (.iadd x f) s l 1 f.d.toNat (tyRegs (tyOf f)) fun t =>
    inType (tyOf f) (modSat f.mod) (tyInt (tyOf f) (opA f l.g t) + tyInt (tyOf f) (opB f l.g t))) ∧
  (∀ x f s l, Issues s x ((form2 f allInt 0xF8).op 0x11 .fb) l → SetsX (.isub x f) s l 1 f.d.toNat (tyRegs (tyOf f)) fun t =>
    inType (tyOf f) (modSat f.mod) (tyInt (tyOf f) (opA f l.g t) - tyInt (tyOf f) (opB f l.g t))) ∧
  (∀ x f s l, Issues s x ((form2 f allInt 0x78).op 0x12 .fb) l → SetsX (.imul x f) s l 1 f.d.toNat (tyRegs (tyOf f)) fun t =>
    inType (tyOf f) false (tyInt (tyOf f) (opA f l.g t) * tyInt (tyOf f) (opB f l.g t))) ∧
  (∀ x f s l, Issues s x ((form2 f [0, 1] 0x78).op 0x13 .fb) l → SetsX (.imulhi x f) s l 1 f.d.toNat 1 fun t =>
    (tyInt (tyOf f) (opA f l.g t) * tyInt (tyOf f) (opB f l.g t) % 2 ^ 64).toNat / 2 ^ 32) ∧
  (∀ x f s l, Issues s x ((form3 f allInt 0xFC).op 0x14 .fb) l → SetsX (.imad x f) s l 1 f.d.toNat (tyRegs (tyOf f)) fun t =>
    inType (tyOf f) (modSat f.mod)
      (tyInt (tyOf f) (opA f l.g t) * tyInt (tyOf f) (opB f l.g t) + tyInt (tyOf f) (opC f l.g t))) ∧
  (∀ x f s l, Issues s x ((form2 f allInt 0x78).op 0x15 .fb) l → SetsX (.imin x f) s l 1 f.d.toNat (tyRegs (tyOf f)) fun t =>
    inType (tyOf f) false (min (tyInt (tyOf f) (opA f l.g t)) (tyInt (tyOf f) (opB f l.g t)))) ∧
  (∀ x f s l, Issues s x ((form2 f allInt 0x78).op 0x16 .fb) l → SetsX (.imax x f) s l 1 f.d.toNat (tyRegs (tyOf f)) fun t =>
    inType (tyOf f) false (max (tyInt (tyOf f) (opA f l.g t)) (tyInt (tyOf f) (opB f l.g t)))) ∧
  (∀ x f s l, Issues s x ((form1 f allInt 0x80).op 0x17 .fb) l → SetsX (.iabs x f) s l 1 f.d.toNat (tyRegs (tyOf f)) fun t =>
    inType (tyOf f) (modSat f.mod) |tyInt (tyOf f) (rawA f l.g t)|) ∧
  (∀ x f s l, Issues s x ((iaddiForm f).op 0x23 .fb) l → SetsX (.iaddi x f) s l 1 f.d.toNat 1 fun t =>
    ((readX l.g f.a.toNat t).toNat + f.imm.toNat) % 2 ^ 32) ∧
  (∀ x f s l, Issues s x ((dotForm f [0, 1] 0x80 0).op 0x50 .fb) l → SetsX (.dot4I8 x f) s l 1 f.d.toNat 1 fun t =>
    inType (tyOf f) (modSat f.mod) (tyInt (tyOf f) (readX l.g f.c.toNat t).toNat +
      ((List.range 4).map fun i =>
        element (tyOf f) 8 (readX l.g f.a.toNat t).toNat i * element (tyOf f) 8 (bVal l.g f 1 t) i).sum)) ∧
  (∀ x f s l, Issues s x ((dotForm f [0, 1] 0x80 0).op 0x51 .fb) l → SetsX (.dot8I4 x f) s l 1 f.d.toNat 1 fun t =>
    inType (tyOf f) (modSat f.mod) (tyInt (tyOf f) (readX l.g f.c.toNat t).toNat +
      ((List.range 8).map fun i =>
        element (tyOf f) 4 (readX l.g f.a.toNat t).toNat i * element (tyOf f) 4 (bVal l.g f 1 t) i).sum))

/-- LMUX, the shifts, the bit fields, POPC, CLZ and BREV write the result of Table 3.9, bit by bit, and nothing
else (03_core_instruction_set.md Table 3.9, R81). -/
def Obligations.BitInstructionsAct : Prop :=
  (∀ x f s l, Issues s x ((form2 f allInt 0).op 0x19 .fb) l → SetsX (.shl x f) s l 1 f.d.toNat (tyRegs (tyOf f)) fun t =>
    rawA f l.g t * 2 ^ (rawB f l.g t % tyWidth (tyOf f)) % 2 ^ tyWidth (tyOf f)) ∧
  (∀ x f s l, Issues s x ((form2 f allInt 0).op 0x1A .fb) l → SetsX (.shr x f) s l 1 f.d.toNat (tyRegs (tyOf f)) fun t =>
    inType (tyOf f) false (tyInt (tyOf f) (rawA f l.g t) / 2 ^ (rawB f l.g t % tyWidth (tyOf f)))) ∧
  (∀ x f s l, Issues s x ((form1 f unsInt 0).op 0x1D .fb) l → SetsX (.popc x f) s l 1 f.d.toNat (tyRegs (tyOf f)) fun t =>
    ((List.range (tyWidth (tyOf f))).filter fun i => (rawA f l.g t).testBit i).length) ∧
  (∀ x f s l, Issues s x ((form1 f unsInt 0).op 0x1E .fb) l → ∃ v, SetsX (.clz x f) s l 1 f.d.toNat (tyRegs (tyOf f)) v ∧
    ∀ t, (rawA f l.g t % 2 ^ tyWidth (tyOf f) = 0 → v t = tyWidth (tyOf f)) ∧
      ∀ k, k < tyWidth (tyOf f) → (rawA f l.g t).testBit k = true →
        (∀ i, k < i → i < tyWidth (tyOf f) → (rawA f l.g t).testBit i = false) → v t = tyWidth (tyOf f) - 1 - k) ∧
  (∀ x f s l, Issues s x ((form3 f unsInt 0xFF).op 0x18 .fb) l → ∃ v, SetsX (.lmux x f) s l 1 f.d.toNat (tyRegs (tyOf f)) v ∧
    ∀ t i, (v t).testBit i = (decide (i < tyWidth (tyOf f)) &&
      bit f.mod ((if (rawC f l.g t).testBit i then 4 else 0) +
        2 * ((rawA f l.g t).testBit i).toNat + ((rawB f l.g t).testBit i).toNat))) ∧
  (∀ x f s l, Issues s x ((form2 f allInt 0).op 0x1B .fb) l → ∃ v, SetsX (.bfe x f) s l 1 f.d.toNat (tyRegs (tyOf f)) v ∧
    ∀ t i, (v t).testBit i = (decide (i < tyWidth (tyOf f)) && decide (fieldLen f l.g t ≠ 0) &&
      (if i < fieldLen f l.g t then
        (if fieldPos f l.g t + i < tyWidth (tyOf f) then (rawA f l.g t).testBit (fieldPos f l.g t + i)
         else tySigned (tyOf f) && (rawA f l.g t).testBit (tyWidth (tyOf f) - 1))
       else tySigned (tyOf f) && (v t).testBit (fieldLen f l.g t - 1)))) ∧
  (∀ x f s l, Issues s x ((form3 f unsInt 0).op 0x1C .fb) l → ∃ v, SetsX (.bfi x f) s l 1 f.d.toNat (tyRegs (tyOf f)) v ∧
    ∀ t i, (v t).testBit i = (decide (i < tyWidth (tyOf f)) &&
      (if fieldPos f l.g t ≤ i ∧ i < fieldPos f l.g t + fieldLen f l.g t then
        (rawA f l.g t).testBit (i - fieldPos f l.g t)
       else (rawC f l.g t).testBit i))) ∧
  (∀ x f s l, Issues s x ((form1 f unsInt 0).op 0x1F .fb) l → ∃ v, SetsX (.brev x f) s l 1 f.d.toNat (tyRegs (tyOf f)) v ∧
    ∀ t i, (v t).testBit i = (decide (i < tyWidth (tyOf f)) &&
      (rawA f l.g t).testBit (tyWidth (tyOf f) - 1 - i)))

/-- IPRED and FPRED write the compare of R502 combined with Pc; SEL, MOV, MOVI, MOVL, SHFL, RDSYS, PLMUX, PPACK
write what Tables 3.9 and 3.11 give (R502). -/
def Obligations.MovesAndPredicatesAct : Prop :=
  (∀ x f s l, Issues s x ((ipredForm f).op 0x20 .fb) l → SetsP (.ipred x f) s l 1 (bits f.d 0 3) fun t =>
    predicate (bits f.mod 0 2) (compare (midOf f) (intOrder (tyInt (tyOf f) (rawA f l.g t)) (tyInt (tyOf f) (rawB f l.g t))))
      (readP l.g (bits f.c 0 3) t)) ∧
  (∀ x f s l, Issues s x ((fpredForm f).op 0x35 .fab) l → SetsP (.fpred x f) s l 1 (bits f.d 0 3) fun t =>
    predicate (bits f.mod 0 2)
      (compare (midOf f) (fpOrder (ofF32 (readX l.g f.a.toNat t)) (ofF32 (BitVec.ofNat 32 (bVal l.g f 1 t)))))
      (readP l.g (bits f.c 0 3) t)) ∧
  (∀ x f s l, Issues s x ((selForm f).op 0x21 .fb) l → SetsX (.sel x f) s l 1 f.d.toNat (tyRegs (tyOf f)) fun t =>
    if readP l.g (bits f.c 0 3) t then rawA f l.g t else rawB f l.g t) ∧
  (∀ x f s l, Issues s x ((movForm f).op 0x22 .fb) l → SetsX (.mov x f) s l 1 f.d.toNat (tyRegs (tyOf f)) fun t => rawB f l.g t) ∧
  (∀ x f s l, Issues s x ((moviForm f).op 0x24 .fb) l → SetsX (.movi x f) s l 1 f.d.toNat 1 fun _ => f.imm.toNat) ∧
  (∀ x f s l, Issues s x ((movlForm f).op 0x25 .fb) l → SetsX (.movl x f) s l 2 f.d.toNat 2 fun _ => f.imm.toNat) ∧
  (∀ x f s l, Issues s x ((shflForm f).op 0x26 .fb) l → SetsX (.shfl x f) s l 1 f.d.toNat 1 fun t =>
    (readX l.g f.a.toNat (sourceLane (subOf f) (bVal l.g f 1 t) t)).toNat) ∧
  (∀ x f s l, Issues s x ((rdsysForm f).op 0x27 .fb) l → SetsX (.rdsys x f) s l 1 f.d.toNat (if subOf f = 3 then 2 else 1) fun t =>
    if subOf f = 0 then t else if subOf f = 1 then x.slot.toNat else if subOf f = 2 then x.core.toNat
    else ((getCluster s.dev (x.core.toNat / 32)).cycles - (getCore s.dev x.core.toNat).cycleBase).toNat) ∧
  (∀ x f s l, Issues s x ((plmuxForm f).op 0x48 .fb) l → SetsP (.plmux x f) s l 1 (bits f.d 0 3) fun t =>
    bit f.mod ((if readP l.g (bits f.c 0 3) t then 4 else 0) +
      2 * (readP l.g (bits f.a 0 3) t).toNat + (readP l.g (bits f.b 0 3) t).toNat)) ∧
  (∀ x f s l, Issues s x ((ppackForm f).op 0x4A .fb) l → SetsX (.ppack x f) s l 1 f.d.toNat 1 fun t => (laneOf l.g t).preds.toNat)

/-- The FP32, packed and FP DOT instructions and the conversions write one rounding of the exact result, with the
canonical NaN for every NaN (R79, R83, R504, 03_core_instruction_set.md Table 3.10, 03_core_instruction_set.md
Table 3.20). -/
def Obligations.FloatingPointResults : Prop :=
  (∀ x f s l, Issues s x ((fpForm f 0xF8 false).op 0x30 .fab) l →
    SetsFp (.fadd x f) s l f (fun a b _ => fvAdd a b) false) ∧
  (∀ x f s l, Issues s x ((fpForm f 0xF8 false).op 0x31 .fab) l →
    SetsFp (.fmul x f) s l f (fun a b _ => fvMul a b) false) ∧
  (∀ x f s l, Issues s x ((fpForm f 0xFC true).op 0x32 .fab) l →
    SetsFp (.ffma x f) s l f (fun a b c => fvAdd (fvMul a b) c) true) ∧
  (∀ x f s l, Issues s x ((fpForm f 0xF8 false).op 0x33 .fab) l →
    SetsFp (.fmin x f) s l f (fun a b _ => fvMin a b) false) ∧
  (∀ x f s l, Issues s x ((fpForm f 0xF8 false).op 0x34 .fab) l →
    SetsFp (.fmax x f) s l f (fun a b _ => fvMax a b) false) ∧
  (∀ x f s l, Issues s x ((f2iForm f).op 0x40 .fb) l → SetsX (.f2i x f) s l 1 f.d.toNat (tyRegs (subOf f)) fun t =>
    match ofF32 (readX l.g f.a.toNat t) with
    | .nan => 0
    | .inf neg => inType (subOf f) true (if neg then -2 ^ 64 else 2 ^ 64)
    | .fin neg m e => inType (subOf f) true (roundInt (rmode (midOf f)) neg m e)) ∧
  (∀ x f s l, Issues s x ((i2fForm f).op 0x41 .fb) l → SetsX (.i2f x f) s l 1 f.d.toNat 1 fun t =>
    encodeF fp32 (rmode (midOf f)) false (fvOfInt (tyInt (tyOf f) (xVal l.g f.a.toNat (tyRegs (tyOf f)) t)))) ∧
  (∀ x f s l, Issues s x ((cvtForm f 1 1 (f2fLegal f)).op 0x42 .fb) l → SetsX (.f2f x f) s l 1 f.d.toNat 1 fun t =>
    if subOf f < 4 then
      (setBits (readX l.g f.d.toNat t) (f2fPos (subOf f) f.mod) (f2fWidth (subOf f))
        (encodeF (f2fFmt (subOf f)) (rmode (midOf f)) (modSat f.mod) (ofF32 (readX l.g f.a.toNat t)))).toNat
    else encodeF fp32 .rn false (decodeF (f2fFmt (subOf f))
      (bits (readX l.g f.a.toNat t) (f2fPos (subOf f) f.mod) (f2fWidth (subOf f))))) ∧
  (∀ x f s l, Issues s x ((packForm f).op 0x43 .fb) l → SetsX (.pack x f) s l 1 f.d.toNat 1 fun t =>
    encodeF (tyFmt (tyOf f)) (rmode (midOf f)) false (ofF32 (readX l.g f.a.toNat t)) +
      2 ^ 16 * encodeF (tyFmt (tyOf f)) (rmode (midOf f)) false (ofF32 (BitVec.ofNat 32 (bVal l.g f 1 t)))) ∧
  (∀ x f s l, Issues s x ((unpackForm f).op 0x44 .fb) l → SetsX (.unpack x f) s l 1 f.d.toNat 1 fun t =>
    encodeF fp32 .rn false
      (decodeF (tyFmt (tyOf f)) ((readX l.g f.a.toNat t).toNat / 2 ^ (16 * subOf f) % 2 ^ 16))) ∧
  (∀ x f s l, Issues s x ((dotForm f [0] 0 0).op 0x52 .fb) l → SetsX (.dot2F16 x f) s l 1 f.d.toNat 1 fun t =>
    dotRounded fp16 fp16 16 2 l.g f t) ∧
  (∀ x f s l, Issues s x ((dotForm f [0] 0 0).op 0x53 .fb) l → SetsX (.dot2Bf16 x f) s l 1 f.d.toNat 1 fun t =>
    dotRounded bf16 bf16 16 2 l.g f t) ∧
  (∀ x f s l, Issues s x ((dotForm f [0] 0 3).op 0x54 .fb) l → SetsX (.dot4F8 x f) s l 1 f.d.toNat 1 fun t =>
    dotRounded (if (subOf f).testBit 1 then e5m2 else e4m3) (if (subOf f).testBit 0 then e5m2 else e4m3) 8 4 l.g f t) ∧
  (∀ x f s l, Issues s x ((dotForm f [0] 0 0).op 0x55 .fb) l → SetsX (.dot8F4 x f) s l 1 f.d.toNat 1 fun t =>
    dotRounded e2m1 e2m1 4 8 l.g f t)

/-- FRCP.SEED and FRSQ.SEED write a fixed function of the argument with the special values of Table 3.10, and
nothing else (R505). -/
def Obligations.SeedsAreFixedFunctions : Prop :=
  ∃ rcp rsq : Word → Word,
    (∀ x f s l, Issues s x ((cvtForm f 1 1 (seedLegal f)).op 0x36 .fb) l →
      SetsX (.frcpSeed x f) s l 1 f.d.toNat 1 fun t => (rcp (readX l.g f.a.toNat t)).toNat) ∧
    (∀ x f s l, Issues s x ((cvtForm f 1 1 (seedLegal f)).op 0x37 .fb) l →
      SetsX (.frsqSeed x f) s l 1 f.d.toNat 1 fun t => (rsq (readX l.g f.a.toNat t)).toNat) ∧
    rcp 0x00000000 = 0x7F800000 ∧ rcp 0x80000000 = 0xFF800000 ∧
    rcp 0x7F800000 = 0x00000000 ∧ rcp 0xFF800000 = 0x80000000 ∧
    (∀ a, ofF32 a = .nan → rcp a = 0x7FC00000) ∧
    rsq 0x00000000 = 0x7F800000 ∧ rsq 0x80000000 = 0xFF800000 ∧ rsq 0x7F800000 = 0x00000000 ∧
    (∀ a, ofF32 a = .nan ∨ ofF32 a = .inf true ∨ (∃ m e, ofF32 a = .fin true m e ∧ m ≠ 0) → rsq a = 0x7FC00000)

/-- VOTE and PUNPACK write their predicates or mask, UALU, UMOVI, UMOVL and URDL one uniform register, the same
for every thread, and nothing else (R72, R83, 03_core_instruction_set.md Table 3.12). -/
def Obligations.VotesAndUniformRegisters : Prop :=
  (∀ x f s l, Issues s x ((voteForm f).op 0x49 .fb) l → subOf f = 2 → ∃ v : Nat, SetsX (.vote x f) s l 1 f.d.toNat 1 (fun _ => v) ∧
    ∀ i, v.testBit i = (decide (i < 32) && onLane l.run i && readP l.g (bits f.a 0 3) i)) ∧
  (∀ x f s l, Issues s x ((voteForm f).op 0x49 .fb) l → subOf f = 0 → SetsP (.vote x f) s l 1 (bits f.d 0 3) fun _ =>
    (List.range 32).any fun i => onLane l.run i && readP l.g (bits f.a 0 3) i) ∧
  (∀ x f s l, Issues s x ((voteForm f).op 0x49 .fb) l → subOf f = 1 → SetsP (.vote x f) s l 1 (bits f.d 0 3) fun _ =>
    (List.range 32).all fun i => !onLane l.run i || readP l.g (bits f.a 0 3) i) ∧
  (∀ x f s l, Issues s x ((punpackForm f).op 0x4B .fb) l → ∃ g, SetsGroup (.punpack x f) s l g ∧ g = { l.g with lanes := g.lanes } ∧
    ∀ t, t < 32 → laneOf g t = { laneOf l.g t with
      pc := if onLane l.act t then (laneOf l.g t).pc + 8 else (laneOf l.g t).pc,
      preds := if onLane l.run t then BitVec.ofNat 8 (readX l.g f.a.toNat t).toNat else (laneOf l.g t).preds }) ∧
  (∀ x f s l, Issues s x ((ualuForm f).op 0x6A .ctl) l → SetsU (.ualu x f) s l 1 f.d.toNat 1
    (match subOf f with
      | 0 => readU l.g f.a.toNat + readU l.g f.b.toNat
      | 1 => readU l.g f.a.toNat - readU l.g f.b.toNat
      | 2 => readU l.g f.a.toNat * readU l.g f.b.toNat
      | 3 => readU l.g f.a.toNat &&& readU l.g f.b.toNat
      | 4 => readU l.g f.a.toNat ||| readU l.g f.b.toNat
      | 5 => readU l.g f.a.toNat ^^^ readU l.g f.b.toNat
      | 6 => readU l.g f.a.toNat <<< ((readU l.g f.b.toNat).toNat % 32)
      | _ => readU l.g f.a.toNat >>> ((readU l.g f.b.toNat).toNat % 32)).toNat) ∧
  (∀ x f s l, Issues s x ((umoviForm f).op 0x6B .ctl) l → SetsU (.umovi x f) s l 1 f.d.toNat 1 f.imm.toNat) ∧
  (∀ x f s l, Issues s x ((umovlForm f).op 0x6C .ctl) l → SetsU (.umovl x f) s l 2 f.d.toNat 2 f.imm.toNat) ∧
  (∀ x f s l, Issues s x ((urdlForm f).op 0x6D .ctl) l → ∀ t, t < 32 → onLane l.act t = true →
    (∀ i, i < t → onLane l.act i = false) → SetsU (.urdl x f) s l 1 f.d.toNat 1 (readX l.g f.a.toNat t).toNat)

/-- BRA, BRX, CALL, CALLX, YIELD and NOP move the active set as Table 3.12 gives; EXIT ends lanes, and frees the
slot of a group with no live thread (R45, R46, R53, R57, R73, R84, 03_core_instruction_set.md Table 3.12). -/
def Obligations.ControlFlowMovesPcs : Prop :=
  (∀ x f s l, Issues s x ((braForm f).op 0x60 .ctl) l → ∃ g, SetsGroup (.bra x f) s l g ∧ g = { l.g with lanes := g.lanes } ∧
    Jumped l g fun _ => l.pc + BitVec.ofInt 47 (8 * f.off.toInt)) ∧
  (∀ x f s l, Issues s x ((brxForm f).op 0x61 .ctl) l → ∃ g, SetsGroup (.brx x f) s l g ∧ g = { l.g with lanes := g.lanes } ∧
    Jumped l g fun t => pcOfPair (readXPair l.g f.l.toNat t)) ∧
  (∀ x f s l, Issues s x ((callForm f).op 0x62 .ctl) l → ∃ g, SetsGroup (.call x f) s l g ∧
    g = { l.g with lanes := g.lanes, x := g.x } ∧ Jumped l g (fun _ => l.pc + BitVec.ofInt 47 (8 * f.off.toInt)) ∧
    ReturnIn l g f.l.toNat) ∧
  (∀ x f s l, Issues s x ((callxForm f).op 0x63 .ctl) l → ∃ g, SetsGroup (.callx x f) s l g ∧
    g = { l.g with lanes := g.lanes, x := g.x } ∧
    Jumped l g (fun t => pcOfPair (readXPair l.g (if f.l = 255 then 255 else f.l.toNat + 2) t)) ∧
    ReturnIn l g f.l.toNat) ∧
  (∀ x f s l, Issues s x ((bareForm f).op 0x64 .ctl) l → ∃ g, SetsGroup (.yield x f) s l g ∧ g = { l.g with lanes := g.lanes } ∧
    ∀ t, t < 32 → laneOf g t = { laneOf l.g t with
      pc := if onLane l.act t then (laneOf l.g t).pc + 8 else (laneOf l.g t).pc,
      yld := onLane l.run t || (laneOf l.g t).yld }) ∧
  (∀ x f s l, Issues s x ((bareForm f).op 0x69 .ctl) l → ∃ g, SetsGroup (.nop x f) s l g ∧ g = { l.g with lanes := g.lanes } ∧
    Advanced l g 1) ∧
  (∀ x f s l, Issues s x ((bareForm f).op 0x67 .ctl) l → (∃ t, t < 32 ∧ isActive (laneOf l.g t) = true ∧ onLane l.run t = false) →
    ∃ t g, exec (.exit x f) s = .next t ∧ getGroup (getCore t.dev l.core) l.slot = some g ∧
      (∀ i, i < 32 → laneOf g i =
        if onLane l.run i then { laneOf l.g i with st := .exited }
        else if onLane l.act i then { laneOf l.g i with pc := (laneOf l.g i).pc + 8 } else laneOf l.g i) ∧
      OneCore s t l.core) ∧
  (∀ x f s l, Issues s x ((bareForm f).op 0x67 .ctl) l →
    (∀ t, t < 32 → isLive (laneOf l.g t) = true → onLane l.run t = true) →
    ∃ t, exec (.exit x f) s = .next t ∧ getGroup (getCore t.dev l.core) l.slot = none ∧ OneCore s t l.core)

/-- BAR.GRP and BAR.CORE park the lanes whose guard is true, and a barrier completes exactly when every live
thread has arrived (R56). -/
def Obligations.BarriersParkAndRelease : Prop :=
  (∀ x f s l, Issues s x ((bareForm f).op 0x65 .ctl) l →
    (∃ t, t < 32 ∧ isLive (laneOf l.g t) = true ∧ onLane l.run t = false ∧ (laneOf l.g t).st ≠ .parked none) →
    ∃ t g, exec (.barGrp x f) s = .next t ∧ getGroup (getCore t.dev l.core) l.slot = some g ∧ Parked l g none) ∧
  (∀ x f s l, Issues s x ((bareForm f).op 0x65 .ctl) l → (∃ t, t < 32 ∧ onLane l.run t = true) →
    (∀ t, t < 32 → isLive (laneOf l.g t) = true → onLane l.run t = true ∨ (laneOf l.g t).st = .parked none) →
    ∃ t g, exec (.barGrp x f) s = .next t ∧ getGroup (getCore t.dev l.core) l.slot = some g ∧
      Released l g none) ∧
  (∀ x f s l, Issues s x ((barCoreForm f).op 0x66 .ctl) l →
    ((∃ t, t < 32 ∧ isLive (laneOf l.g t) = true ∧ onLane l.run t = false ∧
        (laneOf l.g t).st ≠ .parked (some f.func3)) ∨
     (∃ k, getTask (getCore s.dev l.core) l.g.pos = some k ∧ k.admitted < k.ngroups) ∨
     (∃ k h t, k < 32 ∧ k ≠ l.slot ∧ getGroup (getCore s.dev l.core) k = some h ∧ h.pos = l.g.pos ∧ t < 32 ∧
        isLive (laneOf h t) = true ∧ (laneOf h t).st ≠ .parked (some f.func3))) →
    ∃ t g, exec (.barCore x f) s = .next t ∧ getGroup (getCore t.dev l.core) l.slot = some g ∧
      Parked l g (some f.func3)) ∧
  (∀ x f s l, Issues s x ((barCoreForm f).op 0x66 .ctl) l → (∃ t, t < 32 ∧ onLane l.run t = true) →
    (∀ k, getTask (getCore s.dev l.core) l.g.pos = some k → k.ngroups ≤ k.admitted) →
    (∀ t, t < 32 → isLive (laneOf l.g t) = true → onLane l.run t = true ∨ (laneOf l.g t).st = .parked (some f.func3)) →
    (∀ k h, k < 32 → k ≠ l.slot → getGroup (getCore s.dev l.core) k = some h → h.pos = l.g.pos →
      ∀ t, t < 32 → isLive (laneOf h t) = true → (laneOf h t).st = .parked (some f.func3)) →
    ∃ t g, exec (.barCore x f) s = .next t ∧ getGroup (getCore t.dev l.core) l.slot = some g ∧
      Released l g (some f.func3))

/-- An instruction that names a bad PC, field or register takes the first fault of Table 3.18 that applies, which
is precise and ends what the fault policy says (R70, R71, R73, R74, R75, R84, R85, R106, R107, R108, R62). -/
def Obligations.IssueFaultsInTableOrder : Prop :=
  ∀ (x : At) (f : Form) (body : Lead → Dev → Option Dev) (s : State) (l : Lead), leadFor x f s.dev = some l →
    (2 ^ 39 ≤ l.pc.toNat ∨ l.pc.toNat % 8 ≠ 0 →
      ∃ d, issue x f body s.dev = some d ∧ TookFault s (s.withDev d) l 0x01 l.pc.toNat (laneMask l.act)) ∧
    (l.pc.toNat < 2 ^ 39 → l.pc.toNat % 8 = 0 →
      (∀ w, icWord (getCore s.dev l.core) l.pc.toNat = some w → opAssigned (w / 2 ^ 56) = false →
        ∃ d, issue x f body s.dev = some d ∧ TookFault s (s.withDev d) l 0x03 l.pc.toNat (laneMask l.act)) ∧
      (opAssigned (f.code % 2 ^ 64 / 2 ^ 56) = true → spells (getCore s.dev l.core) l.pc f = true →
        hasRoom (roomOf s.dev l.core) f = true →
        (guardOk f.guard = false ∨ f.legal = false ∨ hasUnits (getCore s.dev l.core) l.g.pos f = false →
          ∃ d, issue x f body s.dev = some d ∧ TookFault s (s.withDev d) l 0x03 l.pc.toNat (laneMask l.act)) ∧
        (guardOk f.guard = true → f.legal = true → hasUnits (getCore s.dev l.core) l.g.pos f = true →
          (∃ r ∈ f.regs, regOk l.g.nregs r = false) →
          ∃ d, issue x f body s.dev = some d ∧ TookFault s (s.withDev d) l 0x04 l.pc.toNat (laneMask l.act))))

/-- TRAP takes FAULT_TRAP for the lanes whose guard is true; a group PARKED for BAR_LIMIT cycles takes
FAULT_BARRIER_STALL (03_core_instruction_set.md Table 3.12, R106, R108, R73, R59, R60, R62, R68). -/
def Obligations.TrapsAndStalledBarriersFault : Prop :=
  (∀ x f s l, Issues s x ((trapForm f).op 0x68 .ctl) l →
     ((∃ i, i < 32 ∧ onLane l.run i = true) →
       ∃ t, exec (.trap x f) s = .next t ∧ TookFault s t l 0x10 (f.imm.toNat % 2 ^ 16) (laneMask l.run)) ∧
     ((∀ i, i < 32 → onLane l.run i = false) →
       ∃ g, SetsGroup (.trap x f) s l g ∧ g = { l.g with lanes := g.lanes } ∧ Advanced l g 1)) ∧
  (∀ (x : At) (s : State) (g : Group) (i : Nat) (b : Option (BitVec 3)), coreUp s.dev x.core.toNat = true →
     getGroup (getCore s.dev x.core.toNat) x.slot.toNat = some g →
     regField s.dev (aBarLimit x.core.toNat) 0 32 ≠ 0 → regField s.dev (aBarLimit x.core.toNat) 0 32 ≤ g.stall →
     4096 ≤ g.stall → i < 32 → (laneOf g i).st = .parked b →
     (∀ j c, j < i → (laneOf g j).st ≠ .parked c) →
     ∃ t, exec (.faultBarrierStall x) s = .next t ∧
       TookFault s t
         { core := x.core.toNat, slot := x.slot.toNat, g := g, pc := (laneOf g i).pc, act := [], run := [], rr := 0,
           pair := none } 0x13
         (((List.range 32).filter fun j => (laneOf g j).st = .active).length * 2 ^ 18 +
           ((List.range 32).filter fun j => (laneOf g j).st ≠ .active ∧ (laneOf g j).st ≠ .exited).length * 2 ^ 12 +
           ((List.range 32).filter fun j => (laneOf g j).st = .exited).length * 2 ^ 6 +
           (match b with | some n => 8 + n.toNat | none => 0))
         (laneMask (perLane fun j => decide ((laneOf g j).st = .parked b))))

/-- A load whose addresses raise no fault reads the lines its cache holds, or sends one read per distinct line and
holds its registers pending (R86, R87, R88, R90, R91, R95, R99, R101, R104). -/
def Obligations.LoadsReadOrRequestLines : Prop :=
  ∀ (x : At) (f : FmtM) (s : State) (l : Lead) (c : Instr) (k : LoadKind) (form : Form) (sext : Bool),
    (c = .ld x f ∧ form = (ldForm f (ldHintOk f)).op 0x80 .mem ∧ k = ldKind (bits f.hint 0 3) ∧ sext = bit f.hint 3 ∨
     c = .ldLast x f ∧ form = (ldForm (lastFmt f) (ldHintOk (lastFmt f))).op 0x80 .mem ∧ k = .last ∧ sext = bit f.hint 3 ∨
     c = .ldc x f ∧ form = (ldForm f (decide (f.hint = 0))).op 0x82 .mem ∧ k = .ldc ∧ sext = false ∨
     c = .ldd x f ∧ form = (ldForm f (decide (f.hint = 0))).op 0x83 .mem ∧ k = .ldd ∧ sext = false) →
    Issues s x form l →
    (memFault s.dev l.core (laneAddrs l (eaM l.g f)) (sizeBytes f.size) false).1 = none →
    inFlight s.dev l.core + (lineSet (laneAddrs l (eaM l.g f))).length ≤ 256 →
    (k = .ldc ∨ k = .ldd ∨ ldWaits s.dev l.core l.g.uid (sizeBytes f.size) (laneAddrs l (eaM l.g f)) = false) →
    ((∀ n ∈ lineSet (laneAddrs l (eaM l.g f)), cacheHit s.dev l.core k n ≠ none) →
      ∃ t g, exec c s = .next t ∧ IssuedTo s t l g ∧ WroteX l g 1 f.d.toNat (sizeRegs f.size) fun i =>
        match cacheHit s.dev l.core k (eaM l.g f i / 128) with
        | some line => loadVal line (eaM l.g f i) (sizeBytes f.size) sext
        | none => 0) ∧
    ((∃ n ∈ lineSet (laneAddrs l (eaM l.g f)), cacheHit s.dev l.core k n = none) →
      ∃ t g p rs, exec c s = .next t ∧ IssuedTo s t l g ∧ OnlyAdvanced l g ∧
        t.dev.reqs = s.dev.reqs ++ rs ∧ (getCore t.dev l.core).loads = (getCore s.dev l.core).loads ++ [p] ∧
        rs.map (fun r => r.line) = (lineSet (laneAddrs l (eaM l.g f))).filter (fun n => decide (cacheHit s.dev l.core k n = none)) ∧
        (∀ r ∈ rs, r.core = l.core ∧ r.uid = l.g.uid ∧ r.op = .read ∧ r.st = .waiting ∧ r.ret = true ∧
          r.cls = (if k = .ldc ∨ k = .ldd then 5 else 0)) ∧
        p.uid = l.g.uid ∧ p.kind = k ∧ p.dreg = f.d.toNat ∧ p.dcnt = sizeRegs f.size ∧
        p.bytes = sizeBytes f.size ∧ p.sext = sext ∧ p.addrs = laneAddrs l (eaM l.g f) ∧
        p.reqs = rs.map (fun r => r.id) ∧
        p.hits.map (fun h => h.1) = (lineSet (laneAddrs l (eaM l.g f))).filter (fun n => decide (cacheHit s.dev l.core k n ≠ none)) ∧
        ∀ h ∈ p.hits, cacheHit s.dev l.core k h.1 = some h.2)

/-- ST sends one masked write per distinct line, the highest lane's byte standing, and changes no register and no
byte of memory until its home performs it (R86, R87, R88, R90, R93). -/
def Obligations.StoresEnterTheWriteBuffer : Prop :=
  ∀ (x : At) (f : FmtM) (s : State) (l : Lead), Issues s x ((stForm f).op 0x81 .mem) l →
    (memFault s.dev l.core (laneAddrs l (eaM l.g f)) (sizeBytes f.size) true).1 = none →
    inFlight s.dev l.core + (lineSet (laneAddrs l (eaM l.g f))).length ≤ 256 →
    ∃ t g rs, exec (.st x f) s = .next t ∧ IssuedTo s t l g ∧ OnlyAdvanced l g ∧
      t.dev.reqs = (s.dev.reqs.map fun r =>
        if r.core = l.core ∧ r.line ∈ lineSet (laneAddrs l (eaM l.g f)) ∧ r.cls = 0 then { r with alloc := false }
        else r) ++ rs ∧
      rs.map (fun r => r.line) = lineSet (laneAddrs l (eaM l.g f)) ∧
      (∀ r ∈ rs, r.core = l.core ∧ r.uid = l.g.uid ∧ r.st = .waiting ∧ r.cls = 0 ∧ r.ret = false) ∧
      ∀ i b, i < 32 → onLane l.run i = true → b < sizeBytes f.size →
        (∀ j, i < j → j < 32 → onLane l.run j = true →
          ¬ (eaM l.g f j ≤ eaM l.g f i + b ∧ eaM l.g f i + b < eaM l.g f j + sizeBytes f.size)) →
        ∃ r ∈ rs, ∃ data m, r.op = .write data m ∧ r.line = eaM l.g f i / 128 ∧
          bit m (eaM l.g f i % 128 + b) = true ∧
          lineByte data (eaM l.g f i % 128 + b) =
            BitVec.ofNat 8 (storeLane l.g f.d.toNat (sizeRegs f.size) (sizeBytes f.size) i / 2 ^ (8 * b))

/-- An atomic sends one combined operation per distinct address with its lanes ascending, and holds its
destination or its group as R95 and R103 say (R86, R87, R88, R95, R96, R103). -/
def Obligations.AtomicsFormCombinedOperations : Prop :=
  ∀ (x : At) (f : FmtA) (s : State) (l : Lead) (c : Instr) (op : AtomOp),
    (c = .atomAdd x f ∧ op = .add ∨ c = .atomMin x f ∧ op = .min ∨ c = .atomMax x f ∧ op = .max ∨
     c = .atomAnd x f ∧ op = .and ∨ c = .atomOr x f ∧ op = .or ∨ c = .atomXor x f ∧ op = .xor ∨
     c = .atomExch x f ∧ op = .exch ∨ c = .atomCas x f ∧ op = .cas) →
    Issues s x ((atomForm op f).op (atomOp op) .mem) l →
    (memFault s.dev l.core (laneAddrs l (eaA l.g f)) (atomBytes f.ty.toNat) true).1 = none →
    inFlight s.dev l.core + (distinct ((laneAddrs l (eaA l.g f)).map (·.2))).length ≤ 256 →
    ∃ t g rs, exec c s = .next t ∧ IssuedTo s t l g ∧ Advanced l g 1 ∧ g = { l.g with lanes := g.lanes, hold := g.hold } ∧
      (f.ord = 0 → g.hold = none) ∧
      (f.ord = 1 → ∃ n, g.hold = some (.fence .atomAcq n)) ∧ (f.ord = 2 → ∃ n, g.hold = some (.fence .atomRel n)) ∧
      (f.ord = 3 → ∃ n, g.hold = some (.fence .atomAr n)) ∧
      t.dev.reqs = s.dev.reqs ++ rs ∧ rs.map (fun r => r.addr) = distinct ((laneAddrs l (eaA l.g f)).map (·.2)) ∧
      (∀ r ∈ rs, r.core = l.core ∧ r.uid = l.g.uid ∧ r.line = r.addr / 128 ∧ r.st = .waiting ∧
        r.ret = decide (f.d ≠ 255) ∧ r.rel = bit f.ord 1 ∧
        r.op = .atomic (Combined.mk op f.ty.toNat (r.addr % 128)
          (((laneAddrs l (eaA l.g f)).filter fun a => a.2 = r.addr).map fun a =>
            (a.1, xVal l.g f.b.toNat (atomRegs f.ty.toNat) a.1, xVal l.g f.c.toNat (atomRegs f.ty.toNat) a.1)))) ∧
      ((f.d = 255 ∨ ∀ i, i < 32 → onLane l.run i = false) →
        (getCore t.dev l.core).loads = (getCore s.dev l.core).loads) ∧
      (f.d ≠ 255 → (∃ i, i < 32 ∧ onLane l.run i = true) →
        ∃ p, (getCore t.dev l.core).loads = (getCore s.dev l.core).loads ++ [p] ∧ p.uid = l.g.uid ∧ p.kind = .atom ∧
          p.dreg = f.d.toNat ∧ p.dcnt = atomRegs f.ty.toNat ∧ p.reqs = rs.map fun r => r.id)

/-- A fence holds its group; it drains only when the accesses it waits for are done, and then invalidates the
core's caches that Table 3.15 names (R94, R103, 03_core_instruction_set.md Table 3.15). -/
def Obligations.FencesHoldAndInvalidate : Prop :=
  (∀ (x : At) (f : FmtR) (s : State) (l : Lead) (c : Instr) (k : FenceKind),
    (c = .fenceAcq x f ∧ k = .acq ∨ c = .fenceRel x f ∧ k = .rel ∨ c = .fenceSc x f ∧ k = .sc ∨
     c = .fenceI x f ∧ k = .inst ∨ c = .fenceRo x f ∧ k = .ro) → Issues s x ((fenceForm f).op (fenceOp k) .mem) l →
    ∃ t g, exec c s = .next t ∧ IssuedTo s t l g ∧ Advanced l g 1 ∧ g = { l.g with lanes := g.lanes, hold := g.hold } ∧
      g.hold = some (.fence k s.dev.nextId) ∧
      t.dev = { s.dev with cores := t.dev.cores, nextId := s.dev.nextId + 1 } ∧
      ∀ n, n ≠ l.core → getCore t.dev n = getCore s.dev n) ∧
  (∀ (x : At) (s : State) (g : Group) (k : FenceKind) (id : Nat),
    getGroup (getCore s.dev x.core.toNat) x.slot.toNat = some g → g.hold = some (.fence k id) →
    coreUp s.dev x.core.toNat = true → fenceReady s.dev x.core.toNat g.uid id k = true →
    ∃ t, exec (.fenceDrained x) s = .next t ∧ t.pending = s.pending ∧
      t.dev = { s.dev with cores := t.dev.cores, reqs := t.dev.reqs } ∧
      t.dev.reqs = (s.dev.reqs.map fun r => if r.core = x.core.toNat ∧ r.st = .performed ∧
        (r.cls = 0 ∧ (k = .acq ∨ k = .sc ∨ k = .atomAcq ∨ k = .atomAr) ∨ r.cls = 5 ∧ k = .ro) then
          { r with alloc := false } else r) ∧
      (∀ n, n ≠ x.core.toNat → getCore t.dev n = getCore s.dev n) ∧
      getGroup (getCore t.dev x.core.toNat) x.slot.toNat = some { g with hold := none } ∧
      (getCore t.dev x.core.toNat).l1 = (if k = .acq ∨ k = .sc ∨ k = .atomAcq ∨ k = .atomAr then []
        else (getCore s.dev x.core.toNat).l1) ∧
      (getCore t.dev x.core.toNat).ic = (if k = .inst then [] else (getCore s.dev x.core.toNat).ic) ∧
      (getCore t.dev x.core.toNat).constc = (if k = .ro then [] else (getCore s.dev x.core.toNat).constc) ∧
      (getCore t.dev x.core.toNat).descc = (if k = .ro then [] else (getCore s.dev x.core.toNat).descc)) ∧
  (∀ (x : At) (s : State) (g : Group) (k : FenceKind) (id : Nat) (r : Req),
    getGroup (getCore s.dev x.core.toNat) x.slot.toNat = some g → g.hold = some (.fence k id) → k = .rel ∨ k = .sc →
    r ∈ s.dev.reqs → r.core = x.core.toNat → r.uid = g.uid → r.ins < id → isWrite r = true →
    exec (.fenceDrained x) s = .refused (.notEnabled "FENCE_DRAINED")) ∧
  (∀ (x : At) (s : State) (g : Group) (k : FenceKind) (id : Nat) (p : PendLoad),
    getGroup (getCore s.dev x.core.toNat) x.slot.toNat = some g → g.hold = some (.fence k id) → k = .acq ∨ k = .sc →
    p ∈ (getCore s.dev x.core.toNat).loads → p.uid = g.uid → p.id < id →
    exec (.fenceDrained x) s = .refused (.notEnabled "FENCE_DRAINED"))

/-- LOAD_DATA_RETURN and ATOMIC_RETURN write each lane's value into its registers and free them; STORE_ACKNOWLEDGE
removes the write from the core's buffer (R77, R90, R93, R95, R96, R101). -/
def Obligations.ReturnsWriteTheirRegisters : Prop :=
  (∀ (core : BitVec 11) (id : Nat) (s : State) (p : PendLoad) (g : Group),
    getLoad (getCore s.dev core.toNat) id = some p → p.kind ≠ .atom →
    (∀ r ∈ s.dev.reqs, r.id ∈ p.reqs → r.st = .performed ∧ r.status = .ok) →
    getGroup (getCore s.dev core.toNat) p.slot = some g → g.uid = p.uid → p.ended = false →
    ∃ t g', exec (.loadDataReturn core id) s = .next t ∧ getGroup (getCore t.dev core.toNat) p.slot = some g' ∧
      g' = { g with x := g'.x } ∧ getLoad (getCore t.dev core.toNat) id = none ∧
      (∀ f o, memByte t.dev f o = memByte s.dev f o) ∧
      ∀ i q a line, i < 32 → q ≠ 255 → (p.addrs.find? fun e => e.1 = i) = some (i, a) →
        ((p.hits ++ (s.dev.reqs.filter fun r => p.reqs.contains r.id).map fun r =>
          (r.line, r.result)).find? fun e => e.1 = a / 128) = some (a / 128, line) →
        readX g' q i = if p.dreg ≠ 255 ∧ p.dreg ≤ q ∧ q < p.dreg + p.dcnt then
            BitVec.ofNat 32 (loadVal line a p.bytes p.sext / 2 ^ (32 * (q - p.dreg))) else readX g q i) ∧
  (∀ (core : BitVec 11) (id : Nat) (s : State) (p : PendLoad) (g : Group),
    getLoad (getCore s.dev core.toNat) id = some p → p.kind = .atom →
    (∀ r ∈ s.dev.reqs, r.id ∈ p.reqs → r.st = .performed ∧ r.status = .ok) →
    getGroup (getCore s.dev core.toNat) p.slot = some g → g.uid = p.uid → p.ended = false →
    ∃ t g', exec (.atomicReturn core id) s = .next t ∧ getGroup (getCore t.dev core.toNat) p.slot = some g' ∧
      g' = { g with x := g'.x } ∧ getLoad (getCore t.dev core.toNat) id = none ∧
      (∀ f o, memByte t.dev f o = memByte s.dev f o) ∧
      ∀ i q v, i < 32 → q ≠ 255 →
        (((s.dev.reqs.filter fun r => p.reqs.contains r.id).flatMap fun r => r.olds).find? fun e => e.1 = i) = some (i, v) →
        readX g' q i = if p.dreg ≠ 255 ∧ p.dreg ≤ q ∧ q < p.dreg + p.dcnt then
            BitVec.ofNat 32 (v / 2 ^ (32 * (q - p.dreg))) else readX g q i) ∧
  (∀ (core : BitVec 11) (id : Nat) (s : State) (r : Req), getReq s.dev id = some r → r.core = core.toNat →
    isWrite r = true → r.ret = false → r.st = .performed → r.status = .ok →
    exec (.storeAcknowledge core id) s =
      .next (s.withDev { s.dev with reqs := s.dev.reqs.filter fun q => q.id != id }))

/-- On a page with cacheable 0 a home read returns memory's bytes, a home write stores its masked bytes, an atomic
updates in one operation (R96, R101, R237). -/
def Obligations.HomeUpdatesMemoryUncached : Prop :=
  ∀ (id : Nat) (s : State) (r : Req), getReq s.dev id = some r → mayArrive s.dev r = true → BankFree s.dev r →
    reaches s.dev r.core (reqHome r) = true → baseReaches s.dev (reqHome r) = true →
    halfReady s.dev (halfOf (reqHome r)) = true → bit (regGet s.dev (aCdcStatus (halfOf (reqHome r)))) 62 = false →
    (∀ m ∈ s.dev.miss, ¬ (m.line = r.line ∧ m.home = reqHome r)) → pteCacheable r.pte = false →
    CleanLine s.dev (pteFrame r.pte) (lineIdx r.line) →
    (r.op = .read → r.ret = true → ∃ t r', exec (.homeRead id) s = .next t ∧ getReq t.dev id = some r' ∧
      r'.st = .performed ∧ r'.status = .ok ∧ t.dev.slices = s.dev.slices ∧
      (∀ b, b < 128 → lineByte r'.result b = if r.cls = 0 ∧ bit (overlay s.dev r).2 b = true then
        lineByte (overlay s.dev r).1 b else memByte s.dev (pteFrame r.pte) (128 * lineIdx r.line + b)) ∧
      ∀ f o, memByte t.dev f o = memByte s.dev f o) ∧
    (∀ data m, r.op = .write data m → ∃ t r', exec (.homeWrite id) s = .next t ∧ getReq t.dev id = some r' ∧
      r'.st = .performed ∧ r'.status = .ok ∧ t.dev.slices = s.dev.slices ∧
      ∀ a, mapGet 0 t.dev.mem a =
        (let b := pteFrame r.pte * 2 ^ 20 + 128 * lineIdx r.line
         if b ≤ a ∧ a < b + 128 ∧ bit m (a - b) = true then lineByte data (a - b) else mapGet 0 s.dev.mem a)) ∧
    (∀ c, r.op = .atomic c → c.off + atomBytes c.ty ≤ 128 → ∃ t r' old, exec (.homeAtomic id) s = .next t ∧
      getReq t.dev id = some r' ∧ r'.st = .performed ∧ r'.status = .ok ∧ t.dev.slices = s.dev.slices ∧
      (∀ b, b < 128 → lineByte old b = memByte s.dev (pteFrame r.pte) (128 * lineIdx r.line + b)) ∧
      r'.olds = (c.lanes.foldl (fun u x => (atomVal c.op c.ty u.1 x.2.1 x.2.2, u.2 ++ [(x.1, u.1)]))
        (lineBits old c.off (atomBytes c.ty), [])).2 ∧
      ∀ a, mapGet 0 t.dev.mem a =
        (let b := pteFrame r.pte * 2 ^ 20 + 128 * lineIdx r.line + c.off
         if b ≤ a ∧ a < b + atomBytes c.ty then
           BitVec.ofNat 8 ((c.lanes.foldl (fun u x => atomVal c.op c.ty u x.2.1 x.2.2)
             (lineBits old c.off (atomBytes c.ty))) / 2 ^ (8 * (a - b)))
         else mapGet 0 s.dev.mem a))

/-- A request that misses takes a miss table slot of its class or is a held retry, sent again when a slot frees;
it counts once (R313). -/
def Obligations.MissesTakeSlotsOrRetry : Prop :=
  (∀ (id : Nat) (s : State) (r : Req) (c : Instr), getReq s.dev id = some r →
    (c = .homeRead id ∧ r.op = .read ∨ (c = .homeWrite id ∧ ∃ data m, r.op = .write data m ∧ m ≠ fullMask) ∨
      (c = .homeAtomic id ∧ ∃ a, r.op = .atomic a)) → mayArrive s.dev r = true →
    reaches s.dev r.core (reqHome r) = true → halfReady s.dev (halfOf (reqHome r)) = true →
    (∀ m ∈ s.dev.miss, ¬ (m.line = r.line ∧ m.home = reqHome r)) → pteCacheable r.pte = true →
    baseReaches s.dev (reqHome r) = true → findLine s.dev (reqHome r) r.line = none → bit (regGet s.dev (aCdcStatus (halfOf (reqHome r)))) 62 = false →
    (mayMiss s.dev (halfOf (reqHome r)) r.cls = true → ∃ t r' m, exec c s = .next t ∧
      getReq t.dev id = some r' ∧ r'.st = .missed ∧ t.dev.miss = s.dev.miss ++ [m] ∧ m.line = r.line ∧
      m.home = reqHome r ∧ m.cls = r.cls ∧ m.reqs = [id] ∧
      (budgetOf t.dev r.core).used = (budgetOf s.dev r.core).used + (if r.spent then 0 else 128)) ∧
    (mayMiss s.dev (halfOf (reqHome r)) r.cls = false → ∃ t r', exec c s = .next t ∧
      getReq t.dev id = some r' ∧ r'.st = .retried ∧ t.dev.miss = s.dev.miss ∧ t.dev.regs = s.dev.regs ∧
      (budgetOf t.dev r.core).used = (budgetOf s.dev r.core).used + (if r.spent then 0 else 128) ∧ r'.spent = true)) ∧
  (∀ (id : Nat) (s : State) (r h : Req), getReq s.dev id = some r → h ∈ s.dev.reqs → h.st = .retried →
    h.core = r.core → h.cls = r.cls → reqHalf h = reqHalf r → h.id < r.id → r.st = .waiting →
    ∀ c t, c = .homeRead id ∨ c = .homeWrite id ∨ c = .homeAtomic id → exec c s ≠ .next t) ∧
  (∀ (h : BitVec 1) (k : BitVec 3) (s : State), mayMiss s.dev h.toNat k.toNat = true →
    (∃ r ∈ s.dev.reqs, r.st = .retried ∧ r.cls = k.toNat ∧ reqHalf r = h.toNat) →
    exec (.missSlotFreed h k) s = .next (s.withDev { s.dev with
      reqs := s.dev.reqs.map fun r =>
        if r.st = .retried ∧ r.cls = k.toNat ∧ reqHalf r = h.toNat then { r with st := .waiting } else r }))

/-- A read that hits returns the line, a write that hits merges its bytes and leaves the line dirty, and a fill
performs every request that waited for it (R101, R232, R236, R238, R252). -/
def Obligations.HitsReadAndMergeAtTheHome : Prop :=
  (∀ (id : Nat) (s : State) (r : Req) (c : CLine), getReq s.dev id = some r → mayArrive s.dev r = true →
    BankFree s.dev r → reaches s.dev r.core (reqHome r) = true → halfReady s.dev (halfOf (reqHome r)) = true →
    (∀ m ∈ s.dev.miss, ¬ (m.line = r.line ∧ m.home = reqHome r)) → pteCacheable r.pte = true → r.mark = false →
    findLine s.dev (reqHome r) r.line = some c → c.poison = false →
    markOf s.dev 0x0B (reqHome r) r.line = none → markOf s.dev 0x0A (reqHome r) r.line = none →
    (r.op = .read → r.ret = true → ∃ t r', exec (.homeRead id) s = .next t ∧ getReq t.dev id = some r' ∧
      r'.st = .performed ∧ r'.status = .ok ∧
      (∀ b, b < 128 → lineByte r'.result b = if r.cls = 0 ∧ bit (overlay s.dev r).2 b = true then
        lineByte (overlay s.dev r).1 b else lineByte c.data b) ∧ findLine t.dev (reqHome r) r.line = some { c with age := 0 } ∧
      ∀ f o, memByte t.dev f o = memByte s.dev f o) ∧
    (∀ data m, r.op = .write data m →
      (storeEnc s.dev (reqHome r) r.pte (merge c.data data m)).2 ≤ sectCount c.sect →
      ∃ t r' c', exec (.homeWrite id) s = .next t ∧ getReq t.dev id = some r' ∧ r'.st = .performed ∧
        r'.status = .ok ∧ findLine t.dev (reqHome r) r.line = some c' ∧ c'.dirty = true ∧ c'.age = 0 ∧
        c'.pinned = c.pinned ∧
        (∀ b, b < 128 → lineByte c'.data b = if bit m b = true then lineByte data b else lineByte c.data b) ∧
        ∀ f o, memByte t.dev f o = memByte s.dev f o)) ∧
  (∀ (id : Nat) (s : State) (m : Miss), m ∈ s.dev.miss → m.id = id → (∀ n ∈ s.dev.miss, n.id = id → n = m) →
    bit (regGet s.dev (aCdcStatus m.half)) 62 = false →
    m.cmd = true ∨ mayCommand s.dev (controllerOf m.pte m.line) m.cls = true →
    (∀ r ∈ s.dev.reqs, r.id ∈ m.reqs → r.st = .missed ∨ r.st = .performed) →
    ∃ t, exec (.lineFill id) s = .next t ∧ t.dev.miss = s.dev.miss.filter (fun n => n.id != id) ∧
      ∀ r ∈ t.dev.reqs, r.id ∈ m.reqs → r.st = .performed)

/-- CACHE takes its range from the lowest lane and runs it line by line; UNPIN leaves a line with age 3 and DEAD
drops it with a tombstone (R92, R240, R243, R245, R246). -/
def Obligations.CacheRangesRunLineByLine : Prop :=
  (∀ (x : At) (f : FmtM) (s : State) (l : Lead) (c : Instr) (kind : Nat),
    (c = .cachePref x f ∧ kind = 0 ∨ c = .cacheDead x f ∧ kind = 1 ∨ c = .cachePin x f ∧ kind = 2 ∨
     c = .cacheUnpin x f ∧ kind = 3) → Issues s x ((cacheForm kind f).op 0x84 .mem) l →
    ((∀ i, i < 32 → onLane l.run i = false) → ∃ g, SetsGroup c s l g ∧ OnlyAdvanced l g) ∧
    (∀ i a len, i < 32 → onLane l.run i = true → (∀ j, j < i → onLane l.run j = false) → loadsOut s.dev l = false →
      a = eaM l.g f i → len = (readX l.g f.d.toNat i).toNat → a + len ≤ 2 ^ 39 → 0 < len →
      (rangeLines kind a len).1 < (rangeLines kind a len).2 →
      (memFault s.dev l.core ((List.range ((a + len - 1) / 2 ^ 20 + 1 - a / 2 ^ 20)).map fun p =>
        (i, (a / 2 ^ 20 + p) * 2 ^ 20)) 1 (decide (kind = 1) || decide (kind = 2))).1 = none →
      ∃ t g r, exec c s = .next t ∧ IssuedTo s t l g ∧ OnlyAdvanced l g ∧
        (getCore t.dev l.core).ranges = (getCore s.dev l.core).ranges ++ [r] ∧ r.kind = kind ∧ r.uid = l.g.uid ∧
        r.dreg = f.d.toNat ∧ r.next = (rangeLines kind a len).1 ∧ r.stop = (rangeLines kind a len).2) ∧
    (∀ i a len, i < 32 → onLane l.run i = true → (∀ j, j < i → onLane l.run j = false) → loadsOut s.dev l = false →
      a = eaM l.g f i → len = (readX l.g f.d.toNat i).toNat → a < 2 ^ 39 → a + len ≤ 2 ^ 39 →
      len = 0 ∨ ((rangeLines kind a len).2 ≤ (rangeLines kind a len).1 ∧
        (memFault s.dev l.core ((List.range ((a + len - 1) / 2 ^ 20 + 1 - a / 2 ^ 20)).map fun p =>
          (i, (a / 2 ^ 20 + p) * 2 ^ 20)) 1 (decide (kind = 1) || decide (kind = 2))).1 = none) →
      ∃ t g, exec c s = .next t ∧ IssuedTo s t l g ∧ Advanced l g 1 ∧
        ∀ q j, j < 32 → q ≠ 255 → readX g q j = if q = f.d.toNat ∧ onLane l.act j = true then 0 else readX l.g q j)) ∧
  (∀ (id n kind : Nat) (c : Instr) (s : State) (r : RangeOp),
    (c = .prefLine id ∧ kind = 0 ∨ c = .deadMark id ∧ kind = 1 ∨ c = .pinLine id ∧ kind = 2 ∨
     c = .unpinLine id ∧ kind = 3) →
    findRange s.dev id = some (n, r) → r ∈ (getCore s.dev n).ranges → r.kind = kind →
    (∀ m ∈ s.dev.miss, m.line ≠ r.next) → budgetOk s.dev n = true → rangeHeld s.dev n r kind = false →
    ∃ t, exec c s = .next t ∧ (r.next + 1 < r.stop →
      ∃ r' ∈ (getCore t.dev n).ranges, r'.id = id ∧ r'.kind = kind ∧ r'.next = r.next + 1 ∧ r'.stop = r.stop)) ∧
  (∀ (id n : Nat) (s : State) (r : RangeOp) (e : D64) (k : CLine), findRange s.dev id = some (n, r) →
    (∀ m ∈ s.dev.miss, m.line ≠ r.next) → budgetOk s.dev n = true → e = tlbEntry s.dev n (pageOfLine r.next) →
    (∃ x ∈ (getCore s.dev n).tlb, x.1 = pageOfLine r.next) → pteCacheable e = true →
    halfReady s.dev (halfOf (homeOf e r.next)) = true → findLine s.dev (homeOf e r.next) r.next = some k →
    (r.kind = 3 → k.pinned = true → ∃ t, exec (.unpinLine id) s = .next t ∧
      findLine t.dev (homeOf e r.next) r.next = some { k with pinned := false, age := 3 }) ∧
    (r.kind = 1 → k.pinned = false → ∃ t, exec (.deadMark id) s = .next t ∧
      findLine t.dev (homeOf e r.next) r.next = none ∧
      tombOf t.dev (homeOf e r.next) r.next = some k.dirty ∧ ∀ f o, memByte t.dev f o = memByte s.dev f o))

/-- INSTRUCTION_CACHE_FILL brings the missing line, TLB_MISS_FILL the page's entry, kept only where it translates
(R48, R84, R85, R88, R266, R269). -/
def Obligations.FillsBringLinesAndEntries : Prop :=
  (∀ (x : At) (s : State) (l : Lead) (e : D64) (d : Dev), leadOf x 0 s.dev = some l → pcBad l.pc = false →
    (∀ y ∈ (getCore s.dev l.core).ic, y.1 ≠ fetchAddr (getCore s.dev l.core) l.pc / 128) →
    fetchAddr (getCore s.dev l.core) l.pc < 2 ^ 39 →
    coreTx s.dev l.core (fetchAddr (getCore s.dev l.core) l.pc / 2 ^ 20) = (.entry e, d) →
    serveStop d (some l.core) e (fetchAddr (getCore s.dev l.core) l.pc / 128) .read = 0 →
    budgetOk d l.core = true →
    (needsMemory d e (fetchAddr (getCore s.dev l.core) l.pc / 128) .read = true →
      bit (regGet d (aCdcStatus (halfOf (homeOf e (fetchAddr (getCore s.dev l.core) l.pc / 128))))) 62 = false) →
    (accessHome (spend d l.core) 5 e (fetchAddr (getCore s.dev l.core) l.pc / 128) .read).1.status = .ok →
    ∃ t, exec (.instructionCacheFill x) s = .next t ∧
      (fetchAddr (getCore s.dev l.core) l.pc / 128,
        (accessHome (spend d l.core) 5 e (fetchAddr (getCore s.dev l.core) l.pc / 128) .read).1.line) ∈
        (getCore t.dev l.core).ic) ∧
  (∀ (n : BitVec 11) (p : BitVec 19) (s : State), coreUp s.dev n.toNat = true →
    (∀ e ∈ (getCore s.dev n.toNat).tlb, e.1 ≠ p.toNat) → markOf s.dev 0x0C 0 p.toNat = none →
    ∃ t, exec (.tlbMissFill (.core n) p) s = .next t ∧ t.dev.pmap = s.dev.pmap ∧
      (∀ f o, memByte t.dev f o = memByte s.dev f o) ∧
      (getCore t.dev n.toNat).tlb =
        if pteMaps s.dev (pmapEntry s.dev p.toNat) ∧ pteRetired (pmapEntry s.dev p.toNat) = false then
          (((p.toNat, pmapEntry s.dev p.toNat) :: (getCore s.dev n.toNat).tlb).take 256)
        else (getCore s.dev n.toNat).tlb) ∧
  (∀ (p : BitVec 19) (s : State), (∀ e ∈ s.dev.btc, e.1 ≠ p.toNat) → markOf s.dev 0x0C 0 p.toNat = none →
    ∃ t, exec (.tlbMissFill .base p) s = .next t ∧ t.dev.pmap = s.dev.pmap ∧
      (∀ f o, memByte t.dev f o = memByte s.dev f o) ∧
      t.dev.btc =
        if pteMaps s.dev (pmapEntry s.dev p.toNat) ∧ pteRetired (pmapEntry s.dev p.toNat) = false then
          (((p.toNat, pmapEntry s.dev p.toNat) :: s.dev.btc).take 4096)
        else s.dev.btc)

/-- SPX.LD writes the bytes at each lane's offset into its registers; SPX.ST stores each lane's bytes at its
offset and nowhere else (R89, R93, R202, R205, R221). -/
def Obligations.LanesReachTheScratchpad : Prop :=
  (∀ (x : At) (f : FmtM) (s : State) (l : Lead), Issues s x ((spxLdForm f).op 0x85 .mem) l →
    spxLaneFault (getCore s.dev l.core) l.g.pos (sizeBytes f.size) (laneAddrs l (spxOff l.g f)) = none →
    committed (getCore s.dev l.core).spx portLanes s.dev.nextId ((laneAddrs l (spxOff l.g f)).map fun a => a.2 / 32768) = true →
    (∀ i o, i < 32 → Covers l f (sizeBytes f.size) i o → markOf s.dev 0x05 l.core o = none) →
    SetsX (.spxLd x f) s l 1 f.d.toNat (sizeRegs f.size) fun i =>
      ((List.range (sizeBytes f.size)).map fun b =>
        (spadByte s.dev l.core (spxOff l.g f i + b)).toNat * 2 ^ (8 * b)).sum) ∧
  (∀ (x : At) (f : FmtM) (s : State) (l : Lead), Issues s x ((spxForm f).op 0x86 .mem) l →
    spxLaneFault (getCore s.dev l.core) l.g.pos (sizeBytes f.size) (laneAddrs l (spxOff l.g f)) = none →
    committed (getCore s.dev l.core).spx portLanes s.dev.nextId ((laneAddrs l (spxOff l.g f)).map fun a => a.2 / 32768) = true →
    loadsOut s.dev l = false →
    ∃ t g, exec (.spxSt x f) s = .next t ∧ IssuedTo s t l g ∧ OnlyAdvanced l g ∧
      (∀ o, (∀ i, i < 32 → ¬ Covers l f (sizeBytes f.size) i o) → spadByte t.dev l.core o = spadByte s.dev l.core o) ∧
      (∀ i o, i < 32 → Covers l f (sizeBytes f.size) i o →
        (∀ j, j < 32 → j ≠ i → ¬ Covers l f (sizeBytes f.size) j o) →
        spadByte t.dev l.core o = BitVec.ofNat 8
          (storeLane l.g f.d.toNat (sizeRegs f.size) (sizeBytes f.size) i / 256 ^ (o - spxOff l.g f i))) ∧
      ∀ n o, n ≠ l.core → spadByte t.dev n o = spadByte s.dev n o)

/-- SPX.FILL and SPX.COPY queue, SPX.WAIT holds, SPX.HANDOVER queues new owners and holds the group until each
BANK_OWNER_CHANGE has committed (R92, R205, R215, R216, R217, R206, R207). -/
def Obligations.ScratchpadOperationsAndHandovers : Prop :=
  (∀ (x : At) (f : FmtR) (s : State) (l : Lead) (c : Instr) (copy : Bool),
    (c = .spxFill x f ∧ copy = false ∨ c = .spxCopy x f ∧ copy = true) →
    Issues s x ((spxQueueForm f).op (if copy then 0x88 else 0x87) .mem) l →
    ((∀ i, i < 32 → onLane l.run i = false) → ∃ g, SetsGroup c s l g ∧ OnlyAdvanced l g) ∧
    (∀ i, i < 32 → onLane l.run i = true → (∀ j, j < i → onLane l.run j = false) →
      (((spxRanges copy (readX l.g f.a.toNat i).toNat (bVal l.g f 1 i) (readX l.g f.c.toNat i).toNat).map
          fun r => r.2).headD 0 = 0 → ∃ g, SetsGroup c s l g ∧ OnlyAdvanced l g) ∧
      (((spxRanges copy (readX l.g f.a.toNat i).toNat (bVal l.g f 1 i) (readX l.g f.c.toNat i).toNat).map
          fun r => r.2).headD 0 ≠ 0 →
        rangesFault (getCore s.dev l.core) l.g.pos portMover
          (spxRanges copy (readX l.g f.a.toNat i).toNat (bVal l.g f 1 i) (readX l.g f.c.toNat i).toNat) = none →
        loadsOut s.dev l = false →
        ∃ t g o, exec c s = .next t ∧ IssuedTo s t l g ∧ OnlyAdvanced l g ∧
          (getCore t.dev l.core).spx = { (getCore s.dev l.core).spx with q := (getCore s.dev l.core).spx.q ++ [o] } ∧
          o.copy = copy ∧ o.uid = l.g.uid ∧ o.a = readX l.g f.a.toNat i ∧ o.b.toNat = bVal l.g f 1 i ∧
          o.c = readX l.g f.c.toNat i))) ∧
  (∀ (x : At) (f : FmtR) (s : State) (l : Lead), Issues s x ({ bareForm f with holds := true }.op 0x8A .mem) l →
    ((∃ o ∈ (getCore s.dev l.core).spx.q, o.uid = l.g.uid ∧ o.id < s.dev.nextId) →
      ∃ t g, exec (.spxWait x f) s = .next t ∧ IssuedTo s t l g ∧ Advanced l g 1 ∧
        g = { l.g with lanes := g.lanes, hold := g.hold } ∧ ∃ id pc m, g.hold = some (.spxWait id pc m)) ∧
    ((∀ o ∈ (getCore s.dev l.core).spx.q, o.uid ≠ l.g.uid) →
      (∀ e ∈ (getCore s.dev l.core).mx.deferred, ¬ (e.uid = l.g.uid ∧ e.spx = true)) →
      ∃ t g, exec (.spxWait x f) s = .next t ∧ IssuedTo s t l g ∧ OnlyAdvanced l g)) ∧
  (∀ (x : At) (f : FmtR) (s : State) (l : Lead), Issues s x ((handoverForm f).op 0x89 .mem) l →
    ((∀ i, i < 32 → onLane l.run i = false) → ∃ g, SetsGroup (.spxHandover x f) s l g ∧ OnlyAdvanced l g) ∧
    (∀ i a, i < 32 → onLane l.run i = true → (∀ j, j < i → onLane l.run j = false) →
      a = (readX l.g f.a.toNat i).toNat → a < 2 ^ 16 →
      banksFault (getCore s.dev l.core) l.g.pos false (getCore s.dev l.core).spx.queued (f.func.toNat % 4)
        (maskBanks a) = none → loadsOut s.dev l = false →
      ((∀ b, b < 16 → a.testBit b = true → bankField (getCore s.dev l.core).spx.queued b = f.func.toNat % 4) →
        ∃ g, SetsGroup (.spxHandover x f) s l g ∧ OnlyAdvanced l g) ∧
      ((∃ b, b < 16 ∧ a.testBit b = true ∧ bankField (getCore s.dev l.core).spx.queued b ≠ f.func.toNat % 4) →
        ∃ t g h, exec (.spxHandover x f) s = .next t ∧ IssuedTo s t l g ∧ Advanced l g 1 ∧
          g = { l.g with lanes := g.lanes, hold := g.hold } ∧ g.hold = some (.handover h.id) ∧
          (getCore t.dev l.core).spx.hands = (getCore s.dev l.core).spx.hands ++ [h] ∧
          (getCore t.dev l.core).spx.owner = (getCore s.dev l.core).spx.owner ∧
          (getCore t.dev l.core).spx.bstate = (getCore s.dev l.core).spx.bstate ∧
          h.target = f.func.toNat % 4 ∧ h.uid = l.g.uid ∧
          (∀ b, b < 16 → bankField (getCore t.dev l.core).spx.queued b =
            if a.testBit b then f.func.toNat % 4 else bankField (getCore s.dev l.core).spx.queued b) ∧
          ∀ b o, (b, o) ∈ h.banks ↔ b < 16 ∧ a.testBit b = true ∧
            o = bankField (getCore s.dev l.core).spx.queued b ∧ o ≠ f.func.toNat % 4))) ∧
  (∀ (core : BitVec 11) (hand : Nat) (bank : BitVec 4) (s : State) (h : Hand) (o : Nat),
    h ∈ (getCore s.dev core.toNat).spx.hands → h.id = hand →
    (∀ k ∈ (getCore s.dev core.toNat).spx.hands, k.id = hand → k = h) →
    (∀ k ∈ (getCore s.dev core.toNat).spx.hands, k.id < hand → ∀ p ∈ k.banks, p.1 ≠ bank.toNat) →
    (bank.toNat, o) ∈ h.banks → (∀ p ∈ h.banks, p.1 = bank.toNat → p.2 = o) → h.target < 4 →
    coreUp s.dev core.toNat = true → drained (getCore s.dev core.toNat) hand bank.toNat o = true →
    ∃ t, exec (.bankOwnerChange core hand bank) s = .next t ∧ OneCore s t core.toNat ∧
      (∀ b, b < 16 → bankField (getCore t.dev core.toNat).spx.owner b =
        if b = bank.toNat then h.target else bankField (getCore s.dev core.toNat).spx.owner b) ∧
      ((∃ p ∈ h.banks, p.1 ≠ bank.toNat) → ∃ k ∈ (getCore t.dev core.toNat).spx.hands, k.id = hand ∧
        k.banks = h.banks.filter fun p => p.1 != bank.toNat) ∧
      ((∀ p ∈ h.banks, p.1 = bank.toNat) → (∀ k ∈ (getCore t.dev core.toNat).spx.hands, k.id ≠ hand) ∧
        ∀ g, getGroup (getCore s.dev core.toNat) h.slot = some g → g.uid = h.uid → g.hold = some (.handover hand) →
          getGroup (getCore t.dev core.toNat) h.slot = some { g with hold := none }))

/-- A waking bank reaches ON with its contents or zeros; only a RETAIN bank outside every bank set turns OFF by a
write; a corrected byte is written back (R214). -/
def Obligations.BanksWakeAndTurnOff : Prop :=
  (∀ (core : BitVec 11) (bank : BitVec 4) (s : State), coreUp s.dev core.toNat = true →
    bankState (getCore s.dev core.toNat).spx bank.toNat = bankWaking →
    ∃ t, exec (.bankWakeComplete core bank) s = .next t ∧
      bankState (getCore t.dev core.toNat).spx bank.toNat = bankOn ∧
      (∀ o, o / 32768 = bank.toNat → spadByte t.dev core.toNat o =
        if bit (getCore s.dev core.toNat).spx.initing bank.toNat then 0 else spadByte s.dev core.toNat o) ∧
      (∀ o, o / 32768 ≠ bank.toNat → spadByte t.dev core.toNat o = spadByte s.dev core.toNat o) ∧
      ∀ n, n ≠ core.toNat → getCore t.dev n = getCore s.dev n) ∧
  (∀ (core : BitVec 11) (v : BitVec 64) (s : State), ∃ t, exec (.spxBankStateWrite core v) s = .next t ∧
    t.dev = { s.dev with cores := t.dev.cores, errs := t.dev.errs } ∧
    (coreFenced s.dev core.toNat = true → t = s) ∧
    (coreFenced s.dev core.toNat = false → ∀ b, b < 16 →
      (bits v (2 * b) 2 = 0 ∧ bankState (getCore s.dev core.toNat).spx b = bankRetain ∧
        inAnySet (getCore s.dev core.toNat) b = false →
        bankState (getCore t.dev core.toNat).spx b = bankOff ∧ mapGet 0 (getCore t.dev core.toNat).spx.tags b = 0 ∧
        ∀ o, o / 32768 = b → spadByte t.dev core.toNat o = 0) ∧
      (¬ (bits v (2 * b) 2 = 0 ∧ bankState (getCore s.dev core.toNat).spx b = bankRetain ∧
        inAnySet (getCore s.dev core.toNat) b = false) →
        bankState (getCore t.dev core.toNat).spx b = bankState (getCore s.dev core.toNat).spx b ∧
        ∀ o, o / 32768 = b → spadByte t.dev core.toNat o = spadByte s.dev core.toNat o)) ∧
    ∀ n, n ≠ core.toNat → getCore t.dev n = getCore s.dev n) ∧
  (∀ (core : BitVec 11) (off : BitVec 19) (s : State) (m : ErrMark),
    markOf s.dev 0x05 core.toNat off.toNat = some m → m.seen = true → m.dbl = false →
    ∃ t, exec (.spxCorrectionWriteback core off) s = .next t ∧ t.dev = { s.dev with errs := t.dev.errs } ∧
      markOf t.dev 0x05 core.toNat off.toNat = none)

/-- A window read returns data only when every bank passes, a window write reaches exactly the banks that pass,
each with the status of R219 (R207, R219, R223). -/
def Obligations.WindowReachesMoverBanks : Prop :=
  (∀ (core : BitVec 11) (acc : WinAccess) (s : State), acc.write = false → acc.off.toNat + acc.len ≤ 0x80000 →
    ((∀ o, acc.off.toNat ≤ o → o < acc.off.toNat + acc.len → markOf s.dev 0x05 core.toNat o = none) →
      exec (.spxWindowAccess core acc) s = .next (s.withDev { s.dev with
        win := (windowStatus s.dev core.toNat acc.off.toNat acc.len,
          if windowStatus s.dev core.toNat acc.off.toNat acc.len = 0 then
            (List.range acc.len).map fun i => spadByte s.dev core.toNat (acc.off.toNat + i) else []) })) ∧
    (∀ o m, acc.off.toNat ≤ o → o < acc.off.toNat + acc.len → markOf s.dev 0x05 core.toNat o = some m →
      m.dbl = true → windowStatus s.dev core.toNat acc.off.toNat
        (min (32768 * (o / 32768 + 1)) (acc.off.toNat + acc.len) - acc.off.toNat) = 0 →
      ∃ t, exec (.spxWindowAccess core acc) s = .next t ∧ t.dev.win = (5, []))) ∧
  (∀ (core : BitVec 11) (acc : WinAccess) (s : State), acc.write = true →
    acc.off.toNat + acc.data.length ≤ 0x80000 →
    ∃ t, exec (.spxWindowAccess core acc) s = .next t ∧
      t.dev.win = (windowStatus s.dev core.toNat acc.off.toNat acc.data.length, []) ∧
      ∀ o, spadByte t.dev core.toNat o =
        if acc.off.toNat ≤ o ∧ o < acc.off.toNat + acc.data.length ∧ windowBank s.dev core.toNat (o / 32768) = 0 then
          acc.data.getD (o - acc.off.toNat) 0
        else spadByte s.dev core.toNat o)

/-- MX and row unit instructions enter the MX queue with their descriptor, or take the first fault that the tables
of issue faults give (R113, R124, R126, R127, R134, R143, R147, R150, R151, R169). -/
def Obligations.MatrixInstructionsQueueOperations : Prop :=
  ∀ (x : At) (f : FmtR) (s : State) (l : Lead) (c : Instr) (k : MxKind),
    (c = .mxWld x f ∧ k = .wld ∨ c = .mxSld x f ∧ k = .sld ∨ c = .mxMma x f ∧ k = .mma ∨ c = .mxDrain x f ∧ k = .drain ∨
     c = .ruMap x f ∧ k = .ruMap ∨ c = .ruSmax1 x f ∧ k = .ruSmax1 ∨ c = .ruSmax2 x f ∧ k = .ruSmax2 ∨
     c = .ruStat x f ∧ k = .ruStat ∨ c = .ruNorm x f ∧ k = .ruNorm ∨ c = .ruRowout x f ∧ k = .ruRowout) →
    (leadFor x (queueForm k (descForm f)) s.dev = some l → pcBad l.pc = false →
      spells (getCore s.dev l.core) l.pc (queueForm k (descForm f)) = true → (getMx s.dev l.core).q.length < 16 →
      taskMx (getCore s.dev l.core) l.g.pos = false →
      ∃ t, exec c s = .next t ∧ TookFault s t l 0x03 l.pc.toNat (laneMask l.act)) ∧
    (Issues s x (queueForm k (descForm f)) l → ∀ e,
      mxCheck k (getCore s.dev l.core) l.g.pos l.pc.toNat (readUQuad l.g f.a.toNat) = some e →
      ∃ t, exec c s = .next t ∧ TookFault s t l e.1 e.2 (laneMask l.act)) ∧
    (Issues s x (queueForm k (descForm f)) l →
      mxCheck k (getCore s.dev l.core) l.g.pos l.pc.toNat (readUQuad l.g f.a.toNat) = none →
      loadsOut s.dev l = false → ∀ desc, desc = readUQuad l.g f.a.toNat →
      ∃ t g o, exec c s = .next t ∧ IssuedTo s t l g ∧ OnlyAdvanced l g ∧ t.dev.regs = s.dev.regs ∧
        getMx t.dev l.core = { getMx s.dev l.core with q := (getMx s.dev l.core).q ++ [o] } ∧
        o.kind = k ∧ o.desc = desc ∧ o.started = false ∧ o.uid = l.g.uid ∧ o.slot = l.slot ∧ o.pc = l.pc ∧
        (isRu k = true → o.factor = (arraysOf (ruArrays desc)).map fun a =>
          toF32 (fvMul (ofF32 (getTile (queuedCore (getCore s.dev l.core)).mx (4 * a + ruSrc desc)).scale)
            (ofF32 (ruScale desc)))))

/-- MX.TZERO empties its tiles, MX.WAIT holds the group while its operations run, and a completion removes its
operation and releases the groups it held (R113, R126, R127, R134, R136, R144, R153, R217). -/
def Obligations.MatrixWaitsEndWithTheirOperations : Prop :=
  (∀ (x : At) (f : FmtR) (s : State) (l : Lead), Issues s x (queueForm .tzero (tzeroForm f)) l →
    loadsOut s.dev l = false → (getMx s.dev l.core).q = [] →
    ∃ t g, exec (.mxTzero x f) s = .next t ∧ IssuedTo s t l g ∧ g = { l.g with lanes := g.lanes, hold := g.hold } ∧
      Advanced l g 1 ∧ g.hold = none ∧ (getMx t.dev l.core).q = [] ∧
      ∀ a i, a < 4 → i < 4 → getTile (getMx t.dev l.core) (4 * a + i) =
        if f.a.toNat.testBit i then emptyTile else getTile (getMx s.dev l.core) (4 * a + i)) ∧
  (∀ (x : At) (f : FmtR) (s : State) (l : Lead), Issues s x ((mxWaitForm f).op 0xA5 .mx) l →
    ((∃ o ∈ (getMx s.dev l.core).q, o.uid = l.g.uid ∧ o.id < s.dev.nextId) →
      ∃ t g, exec (.mxWait x f) s = .next t ∧ IssuedTo s t l g ∧ Advanced l g 1 ∧
        g = { l.g with lanes := g.lanes, hold := g.hold } ∧ ∃ id pc m, g.hold = some (.mxWait id pc m)) ∧
    ((∀ o ∈ (getMx s.dev l.core).q, o.uid ≠ l.g.uid) →
      (∀ e ∈ (getMx s.dev l.core).deferred, ¬ (e.uid = l.g.uid ∧ e.spx = false)) →
      ∃ t g, exec (.mxWait x f) s = .next t ∧ IssuedTo s t l g ∧ OnlyAdvanced l g)) ∧
  (∀ (core : BitVec 11) (s : State) (c : Instr) (id : Nat), coreUp s.dev core.toNat = true →
     (getMx s.dev core.toNat).deferred = [] → (∀ o ∈ (getMx s.dev core.toNat).q, o.kind ≠ .tzero) →
     (c = .mxMmaComplete core ∧ (∃ o, o.id = id ∧
         ((getMx s.dev core.toNat).q.find? fun p => decide (p.kind = .mma) && p.started) = some o) ∨
       c = .ruOpComplete core ∧ (∃ o, o.id = id ∧
         ((getMx s.dev core.toNat).q.find? fun p => isRu p.kind && p.started) = some o) ∨
       c = .tileMoverOpComplete core ∧ (getCore s.dev core.toNat).spx.mover = some id) →
     ∃ t, exec c s = .next t ∧ OneCore s t core.toNat ∧
       getMx t.dev core.toNat = { getMx s.dev core.toNat with
         q := (getMx s.dev core.toNat).q.filter fun o => o.id != id } ∧
       (getCore t.dev core.toNat).spx = (if c = .tileMoverOpComplete core then
           { (getCore s.dev core.toNat).spx with
             mover := none, q := (getCore s.dev core.toNat).spx.q.filter fun o => o.id != id }
         else (getCore s.dev core.toNat).spx) ∧
       ∀ i g, i < 32 → getGroup (getCore s.dev core.toNat) i = some g →
         getGroup (getCore t.dev core.toNat) i = some
           (match g.hold with
            | some (.mxWait w _ _) =>
              if ∃ o ∈ (getMx s.dev core.toNat).q, o.id ≠ id ∧ o.uid = g.uid ∧ o.id < w then g
              else { g with hold := none }
            | some (.spxWait w _ _) =>
              if ∃ o ∈ (getCore t.dev core.toNat).spx.q, o.uid = g.uid ∧ o.id < w then g
              else { g with hold := none }
            | _ => g))

/-- A stream adds to each enabled element of its tiles the products of its K elements, integers exactly and FP
once per slice, and changes no other element (R118, R119, R120, R121, R123, R124, R129, R137, R138, R144). -/
def Obligations.StreamsAccumulateIntoTiles : Prop :=
  ∀ (core : BitVec 11) (s : State) (o : MxOp),
    ((getMx s.dev core.toNat).q.find? fun p => decide (p.kind = .mma) && !p.started) = some o →
    coreUp s.dev core.toNat = true → mayStart (getCore s.dev core.toNat) o = true →
    noticeHeld s.dev core.toNat o.pos = false →
    committed (getCore s.dev core.toNat).spx portFeed o.id (mxBanks o) = true →
    (getCluster s.dev (core.toNat / 32)).droop = none →
    (CleanCore s.dev core.toNat → ∃ t, exec (.mxMmaStreamStart core) s = .next t ∧ OneCore s t core.toNat ∧
      Started s t core.toNat o ∧
      getCore t.dev core.toNat = { getCore s.dev core.toNat with mx := { getMx s.dev core.toNat with
        tiles := (getMx t.dev core.toNat).tiles, q := (getMx t.dev core.toNat).q } } ∧
      (∀ i, (∀ p ∈ streamArrays o, i ≠ 4 * p.1 + mmaTile o.desc) →
        getTile (getMx t.dev core.toNat) i = getTile (getMx s.dev core.toNat) i) ∧
      ∀ p ∈ streamArrays o, ∀ T0 T, T = getTile (getMx t.dev core.toNat) (4 * p.1 + mmaTile o.desc) →
        T0 = openTile o.desc o.wfmt p.2 (getTile (getMx s.dev core.toNat) (4 * p.1 + mmaTile o.desc)) →
        T = { T0 with el := T.el } ∧ ∀ r j, r < 16 → j < 16 →
          let on := (mmaRows o.desc).testBit r && (colsOf (mmaArrays o.desc) (mmaCols o.desc) p.1).testBit j
          (on = false → tileEl T r j = tileEl T0 r j) ∧
          (on = true → streamInt o.desc o.wfmt = true → mmaSat o.desc = false →
            tileEl T r j = BitVec.ofInt 32 (signed 32 (tileEl T0 r j).toNat +
              ((List.range (mmaKlen o.desc)).map
                (intProduct s.dev core.toNat o.desc o.wfmt p.1 r j)).sum)) ∧
          (on = true → streamInt o.desc o.wfmt = true → mmaSat o.desc = true →
            tileEl T r j = BitVec.ofInt 32
              (satStream s.dev core.toNat o.desc o.wfmt p.1 r j (signed 32 (tileEl T0 r j).toNat))) ∧
          (on = true → streamInt o.desc o.wfmt = false →
            mmaRow o.desc + mmaKlen o.desc ≤ classRows (fmtClass o.wfmt) →
            (fmtBlock o.wfmt ≠ 0 → mmaRow o.desc % fmtBlock o.wfmt = 0) →
            tileEl T r j = fpStream s.dev core.toNat o.desc o.wfmt p.1 r j (tileEl T0 r j))) ∧
    (mmaAfb o.desc = false →
      (∃ i m, 64 * mmaLine o.desc ≤ i ∧ i < 64 * (mmaLine o.desc + mmaLines o.desc) ∧
        markOf s.dev 0x05 core.toNat i = some m ∧ m.dbl = true) →
      ∃ t, exec (.mxMmaStreamStart core) s = .next t ∧ Started s t core.toNat o ∧ ∀ p ∈ streamArrays o,
        (getTile (getMx t.dev core.toNat) (4 * p.1 + mmaTile o.desc)).poison = true)

/-- The tile mover runs its next operation: loads fill stages and FSB, drains write converted elements, fills and
copies write the scratchpad (R119, R130, R131, R132, R133, R142, R144, R215, R216, R218). -/
def Obligations.MoverRunsLoadsDrainsAndFills : Prop :=
  ∀ (core : BitVec 11) (s : State) (m : MoverOp), coreUp s.dev core.toNat = true →
    (getCore s.dev core.toNat).spx.mover = none → nextMover (getCore s.dev core.toNat) = some m →
    (∀ o, m = .mx o → mayStart (getCore s.dev core.toNat) o = true ∧
      committed (getCore s.dev core.toNat).spx portMover o.id (mxBanks o) = true ∧ budgetOk s.dev core.toNat = true) →
    (∀ o, m = .spx o → committed (getCore s.dev core.toNat).spx portMover o.id (spxBanks o) = true) →
    ∃ t, exec (.tileMoverOpStart core) s = .next t ∧ (getCore t.dev core.toNat).spx.mover = some (moverId m) ∧
      (CleanCore s.dev core.toNat →
        (∀ o, m = .mx o → o.kind = .wld → ldSpad o.desc = true →
          wldRow o.desc + wldRows o.desc ≤ classRows (fmtClass (wldFmt o.desc)) →
          OneCoreW s t core.toNat ∧ ∀ a ∈ arraysOf (wldArrays o.desc),
            (∀ i, i < wldRows o.desc * rowBytes (wldFmt o.desc) →
              stageByte t.dev core.toNat 0 (32768 * a + wldRow o.desc * rowBytes (wldFmt o.desc) + i) =
                spadByte s.dev core.toNat (ldSrc o.desc + a * wldPitch o.desc + i)) ∧
            (fmtBlock (wldFmt o.desc) ≠ 0 → ∀ j c, j < ceilDiv (wldRows o.desc) (fmtBlock (wldFmt o.desc)) → c < 16 →
              stageByte t.dev core.toNat 1
                  (4096 * a + scalePos (wldFmt o.desc) (wldRow o.desc + j * fmtBlock (wldFmt o.desc)) c) =
                spadByte s.dev core.toNat (ldSrc o.desc + a * wldPitch o.desc +
                  wldRows o.desc * rowBytes (wldFmt o.desc) + 16 * j + c)) ∧
            ∀ b, b < 2 → wldRow o.desc < (b + 1) * halfRows (wldFmt o.desc) →
              b * halfRows (wldFmt o.desc) < wldRow o.desc + wldRows o.desc →
              getBank (getMx t.dev core.toNat) a b =
                { valid := true, fmt := wldFmt o.desc, wscale := wldScale o.desc }) ∧
        (∀ o, m = .mx o → o.kind = .sld → ldSpad o.desc = true → OneCoreW s t core.toNat ∧
          ∀ i, stageByte t.dev core.toNat 2 i =
            if sldOff o.desc ≤ i ∧ i < sldOff o.desc + sldLen o.desc then
              spadByte s.dev core.toNat (ldSrc o.desc + (i - sldOff o.desc))
            else stageByte s.dev core.toNat 2 i) ∧
        (∀ o, m = .mx o → o.kind = .drain → drSpad o.desc = true →
          (∀ i ∈ readsTiles o, (getTile (getMx s.dev core.toNat) i).poison = false) →
          OneCoreW s t core.toNat ∧ ∀ i, spadByte t.dev core.toNat i =
            match (drainBytes (getMx s.dev core.toNat) o.desc).reverse.find? fun b => decide (b.1 = i) with
            | some b => b.2
            | none => spadByte s.dev core.toNat i) ∧
        (∀ o, m = .spx o → OneCoreW s t core.toNat ∧ ∀ i, spadByte t.dev core.toNat i =
          if o.copy = false then
            if o.a.toNat ≤ i ∧ i < o.a.toNat + o.b.toNat then BitVec.ofNat 8 (o.c.toNat / 2 ^ (8 * (i % 4)))
            else spadByte s.dev core.toNat i
          else if o.a.toNat ≤ i ∧ i < o.a.toNat + o.c.toNat then
            spadByte s.dev core.toNat (o.b.toNat + (i - o.a.toNat))
          else spadByte s.dev core.toNat i)) ∧
      (∀ o, m = .mx o → o.kind = .drain → CleanCore s.dev core.toNat →
        (∃ i ∈ readsTiles o, (getTile (getMx s.dev core.toNat) i).poison = true) → OneCore s t core.toNat ∧ (∀ i, spadByte t.dev core.toNat i = spadByte s.dev core.toNat i) ∧
        ∃ e, (getMx t.dev core.toNat).deferred = (getMx s.dev core.toNat).deferred ++ [e] ∧ e.code = 0x11 ∧
          e.uid = o.uid ∧ e.spx = false)

/-- A row unit operation writes its function of each included element, updates its set row by row, and leaves
every other element unchanged (R146, R147, R148, R152, R159, R160, R161, R164, R165, R166, R167, R170). -/
def Obligations.RowUnitOperationsWriteTheirResults : Prop :=
  ∀ (core : BitVec 11) (s : State) (o : MxOp),
    ((getMx s.dev core.toNat).q.find? fun p => isRu p.kind && !p.started) = some o →
    coreUp s.dev core.toNat = true → mayStart (getCore s.dev core.toNat) o = true →
    ∃ t, exec (.ruOpStart core) s = .next t ∧ Started s t core.toNat o ∧
      (∀ n, n ≠ core.toNat → getCore t.dev n = getCore s.dev n) ∧ t.dev.mem = s.dev.mem ∧
      (CleanCore s.dev core.toNat →
      (o.kind = .ruMap ∨ o.kind = .ruSmax2 ∨ o.kind = .ruNorm → ruAfb o.desc = false →
        (∀ i ∈ readsTiles o, (getTile (getMx s.dev core.toNat) i).poison = false) →
        (o.kind ≠ .ruMap → (getRs (getCore s.dev core.toNat) (ruSet o.desc)).poison = false) →
        (∀ i, i ∉ writesTiles o → getTile (getMx t.dev core.toNat) i = getTile (getMx s.dev core.toNat) i) ∧
        ∀ a q, (arraysOf (ruArrays o.desc))[q]? = some a →
          ∀ T0 T, T0 = getTile (getMx s.dev core.toNat) (4 * a + ruDst o.desc) →
            T = getTile (getMx t.dev core.toNat) (4 * a + ruDst o.desc) →
            T.int = false ∧ T.scale = oneF ∧ T.empty = false ∧ ∀ r j, r < 16 → j < 16 →
              let v := ruValue (getTile (getMx s.dev core.toNat) (4 * a + ruSrc o.desc)) (o.factor.getD q 0) r j
              (included o.kind o.desc q r j = false → tileEl T r j = if T0.empty then 0 else tileEl T0 r j) ∧
              (included o.kind o.desc q r j = true → tileEl T r j = ruResult o.kind o.desc (ruThreshold s.dev core.toNat)
                (sealSet (getRs (getCore s.dev core.toNat) (ruSet o.desc))) r v) ∧
              (included o.kind o.desc q r j = true → o.kind = .ruMap → ruFunc o.desc = 10 → tileEl T r j = v)) ∧
      (o.kind = .ruSmax1 ∨ o.kind = .ruStat →
        (∀ i ∈ readsTiles o, (getTile (getMx s.dev core.toNat) i).poison = false) →
        ∀ S0 S, S0 = getRs (getCore s.dev core.toNat) (ruSet o.desc) → S = getRs (getCore t.dev core.toNat) (ruSet o.desc) →
        (ruInit o.desc = false → S0.mode ≠ .empty → S0.poison = false →
          S = ruUpdate (getCore s.dev core.toNat) o (ruThreshold s.dev core.toNat) S0
            ((arraysOf (ruArrays o.desc)).zip (List.range 4))) ∧
        (ruInit o.desc = true ∨ S0.mode = .empty → S.sealed = false ∧ S.poison = false ∧
          S.mode = if o.kind = .ruSmax1 then .smax else .stat) ∧
        (ruInit o.desc = true ∨ S0.mode = .empty ∨ S0.poison = false ∧ (∀ r, S0.n.getD r 0 < 2 ^ 32) →
          ∀ r, r < 16 → S.n.getD r 0 =
          (List.range (arraysOf (ruArrays o.desc)).length).foldl
            (fun v q => min (v + ((List.range 16).filter fun j => included o.kind o.desc q r j).length) (2 ^ 32 - 1))
            (if ruInit o.desc = true ∨ S0.mode = .empty then 0 else S0.n.getD r 0)) ∧
        (getMx t.dev core.toNat).tiles = (getMx s.dev core.toNat).tiles) ∧
      (o.kind = .ruRowout → (getRs (getCore s.dev core.toNat) (ruSet o.desc)).poison = false →
        ∀ i ∈ writesTiles o, ∀ r j, r < 16 → j < 16 → tileEl (getTile (getMx t.dev core.toNat) i) r j =
          if (ruRows o.desc).testBit r = true ∧ j < 4 then
            (rowOut o.desc (if ruFunc o.desc = 1 then sealSet (getRs (getCore s.dev core.toNat) (ruSet o.desc))
              else getRs (getCore s.dev core.toNat) (ruSet o.desc)) r).getD j 0
          else if (getTile (getMx s.dev core.toNat) i).empty then 0
          else tileEl (getTile (getMx s.dev core.toNat) i) r j) ∧
      (o.kind ≠ .ruMap → (getRs (getCore s.dev core.toNat) (ruSet o.desc)).poison = true →
        ¬ ((o.kind = .ruSmax1 ∨ o.kind = .ruStat) ∧
          (ruInit o.desc = true ∨ (getRs (getCore s.dev core.toNat) (ruSet o.desc)).mode = .empty)) →
        (getMx t.dev core.toNat).tiles = (getMx s.dev core.toNat).tiles ∧
        (getCore t.dev core.toNat).ru = (getCore s.dev core.toNat).ru ∧
        ∃ e, (getMx t.dev core.toNat).deferred = (getMx s.dev core.toNat).deferred ++ [e] ∧ e.code = 0x11 ∧
          e.uid = o.uid ∧ e.spx = false))

/-- EXP2 and LOG2 give the special values of R155 and R156, powers of two exactly, and otherwise lie between the
neighbouring powers (R155, R156, R157, R154). -/
def Obligations.Exp2AndLog2SpecialValues : Prop :=
  (∀ (t : Int) (x : Word), -126 ≤ t → t ≤ -1 →
    (isNaN (ofF32 x) = true → exp2L t x = 0x7FC00000) ∧ exp2L t 0x7F800000 = 0x7F800000 ∧
    exp2L t 0xFF800000 = 0 ∧
    (isNaN (ofF32 x) = false → fvLt (ofF32 x) (fvOfInt t) = true → exp2L t x = 0) ∧
    (isNaN (ofF32 x) = false → fvLt (ofF32 x) (fvOfInt 128) = false → exp2L t x = 0x7F800000) ∧
    (isNaN (ofF32 x) = false → fvLt (ofF32 x) (fvOfInt t) = false → fvLt (ofF32 x) (fvOfInt 128) = true →
      ∃ n : Int, t ≤ n ∧ n ≤ 127 ∧ fvLt (ofF32 x) (fvOfInt n) = false ∧ fvLt (ofF32 x) (fvOfInt (n + 1)) = true ∧
        (fvEq (ofF32 x) (fvOfInt n) = true → exp2L t x = BitVec.ofNat 32 ((n + 127).toNat * 2 ^ 23)) ∧
        (n + 127).toNat * 2 ^ 23 ≤ (exp2L t x).toNat ∧ (exp2L t x).toNat ≤ (n + 128).toNat * 2 ^ 23)) ∧
  (∀ x : Word, (isNaN (ofF32 x) = true → log2L x = 0x7FC00000) ∧
    (bits x 23 8 = 0 → log2L x = 0xFF800000) ∧
    (isNaN (ofF32 x) = false → bits x 23 8 ≠ 0 → bit x 31 = true → log2L x = 0x7FC00000) ∧
    log2L 0x7F800000 = 0x7F800000 ∧
    (∀ n, n < 254 → log2L (BitVec.ofNat 32 ((n + 1) * 2 ^ 23)) = toF32 (fvOfInt ((n : Int) - 126))))

/-- FFX and FFX.LDS enter the fabric queue or take the faults of Table 6.7; loads, switches and completions act on
the slots and write one result run per lane (R185, R186, R187, R188, R189, R191, R192, R182, R183, R184, R190,
R193). -/
def Obligations.FabricQueuesLoadsAndResults : Prop :=
  (∀ (x : At) (f : FmtR) (s : State) (l : Lead) (c : Instr) (form : Form),
    (c = .ffx x f ∧ form = (ffxForm f).op 0xB0 .mx ∨ c = .ffxLds x f ∧ form = (ffxLdsForm f).op 0xB1 .mx) →
    leadFor x form s.dev = some l → pcBad l.pc = false → spells (getCore s.dev l.core) l.pc form = true →
    hasRoom (roomOf s.dev l.core) form = true → taskFfx (getCore s.dev l.core) l.g.pos = false →
    ∃ t, exec c s = .next t ∧ TookFault s t l 0x03 l.pc.toNat (laneMask l.act)) ∧
  (∀ (x : At) (f : FmtR) (s : State) (l : Lead), Issues s x ((ffxForm f).op 0xB0 .mx) l →
    ((∀ i, i < 32 → onLane l.run i = false) → ∃ g, SetsGroup (.ffx x f) s l g ∧ OnlyAdvanced l g) ∧
    ((∃ i, i < 32 ∧ onLane l.run i = true) →
      (∀ e, failOf (getCore s.dev l.core).ffx l.g.uid (f.func.toNat % 4) s.dev.nextId = some e →
        ∃ t, exec (.ffx x f) s = .next t ∧
          TookFault s t l e.code (if e.code = 0x0E then l.pc.toNat else e.addr.toNat) (laneMask l.run)) ∧
      (failOf (getCore s.dev l.core).ffx l.g.uid (f.func.toNat % 4) s.dev.nextId = none →
        ∀ v, v = getSlot (queuedFfx s.dev (getCore s.dev l.core).ffx) (f.func.toNat % 4) →
        (v.valid = false → (∀ o ∈ (getCore s.dev l.core).ffx.q, o.lds = true → o.target ≠ f.func.toNat % 4) →
          ∃ t, exec (.ffx x f) s = .next t ∧ TookFault s t l 0x0E l.pc.toNat (laneMask l.run)) ∧
        (v.valid = true → v.nIn < ffxNo f ∨ v.nOut < ffxNr f →
          ∃ t, exec (.ffx x f) s = .next t ∧ TookFault s t l 0x0F l.pc.toNat (laneMask l.run)) ∧
        ((v.valid = true ∧ ffxNo f ≤ v.nIn ∧ ffxNr f ≤ v.nOut ∨
          v.valid = false ∧ ∃ o ∈ (getCore s.dev l.core).ffx.q, o.lds = true ∧ o.target = f.func.toNat % 4) →
          ∃ t g o, exec (.ffx x f) s = .next t ∧ IssuedTo s t l g ∧ OnlyAdvanced l g ∧
            (getCore t.dev l.core).ffx =
              { (getCore s.dev l.core).ffx with q := (getCore s.dev l.core).ffx.q ++ [o] } ∧
            o.lds = false ∧ o.target = f.func.toNat % 4 ∧ o.uid = l.g.uid ∧ o.dreg = f.d.toNat ∧ o.nres = ffxNr f ∧
            o.pc = l.pc ∧ o.args = (lanesOf l.run).map fun t => (t, (List.range (ffxNo f)).map fun i =>
              if f.a = 255 then 0 else readX l.g (f.a.toNat + i) t))))) ∧
  (∀ (x : At) (f : FmtR) (s : State) (l : Lead), Issues s x ((ffxLdsForm f).op 0xB1 .mx) l →
    ∀ desc, desc = readUQuad l.g f.a.toNat →
    (bits desc 42 22 ≠ 0 →
      ∃ t, exec (.ffxLds x f) s = .next t ∧ TookFault s t l 0x03 l.pc.toNat (laneMask l.act)) ∧
    (bits desc 42 22 = 0 → ldsSrc desc % 64 ≠ 0 →
      ∃ t, exec (.ffxLds x f) s = .next t ∧ TookFault s t l 0x06 (ldsSrc desc) (laneMask l.act)) ∧
    (bits desc 42 22 = 0 → ldsSrc desc % 64 = 0 →
      ∃ t g o, exec (.ffxLds x f) s = .next t ∧ IssuedTo s t l g ∧ OnlyAdvanced l g ∧
        (getCore t.dev l.core).ffx =
          { (getCore s.dev l.core).ffx with q := (getCore s.dev l.core).ffx.q ++ [o] } ∧
        o.lds = true ∧ o.desc = desc ∧ o.target = bits desc 40 2 ∧ o.started = false ∧ o.uid = l.g.uid)) ∧
  (∀ (core : BitVec 11) (s : State) (o : FfxOp), coreUp s.dev core.toNat = true →
     let F := (getCore s.dev core.toNat).ffx
     ((F.q.find? fun p => p.lds) = some o → o.started = false → budgetOk s.dev core.toNat = true →
       (∀ p ∈ F.q, p.lds = false → p.id < o.id → p.target ≠ o.target) →
       ∃ t, exec (.ffxLoadStart core) s = .next t ∧
         (∀ k, getGroup (getCore t.dev core.toNat) k = getGroup (getCore s.dev core.toNat) k) ∧
         ((getSlot F o.target).valid = true ∧ (getSlot F o.target).config = ldsConfig o.desc ∧ ldsForce o.desc = false →
           (getCore t.dev core.toNat).ffx = { F with q := F.q.filter fun p => p.id != o.id }) ∧
         (¬ ((getSlot F o.target).valid = true ∧ (getSlot F o.target).config = ldsConfig o.desc ∧
             ldsForce o.desc = false) →
           getSlot (getCore t.dev core.toNat).ffx o.target = { emptySlot with loading := true } ∧
           ∀ h d, fetchHead s.dev core.toNat o.desc = (h, d) →
             (getCore t.dev core.toNat).ffx.q = (F.q.map fun p => if p.id = o.id then
               (match h with
                | .inl e => { o with started := true, bad := some e }
                | .inr h => { o with started := true, head := h }) else p) ∧
             ∀ i, i < 4 → i ≠ o.target → getSlot (getCore t.dev core.toNat).ffx i =
               match h with
               | .inl _ => getSlot F i
               | .inr h =>
                 if ((getSlot F i).valid = true ∨ (getSlot F i).ends ≠ none) ∧
                    (getSlot F i).lutMask &&& BitVec.ofNat 16 (fieldAt h 0x14 2) ≠ 0 then
                   { getSlot F i with valid := false, ends := some ((getSlot F i).ends.getD o.id) }
                 else getSlot F i)) ∧
     ((F.q.find? fun p => p.lds && p.started) = some o → budgetOk s.dev core.toNat = true →
       (∀ e d, o.bad = some e ∨ o.bad = none ∧ fetchBody s.dev core.toNat o.desc o.head = (.inl e, d) ∧
           ffxAhead F o.id (claimants F o.target (slotOf o.head []).lutMask) = false →
         ∃ t f, exec (.ffxLoadComplete core) s = .next t ∧ getSlot (getCore t.dev core.toNat).ffx o.target = emptySlot ∧
           (getCore t.dev core.toNat).ffx.q = F.q.filter (fun p => p.id != o.id) ∧
           (getCore t.dev core.toNat).ffx.fails = F.fails ++ [f] ∧ f.uid = o.uid ∧ f.slot = o.target ∧ f.code = e.1 ∧
           f.addr = BitVec.ofNat 64 e.2) ∧
       (∀ v d, o.bad = none → fetchBody s.dev core.toNat o.desc o.head = (.inr v, d) →
         ffxAhead F o.id (claimants F o.target (slotOf o.head []).lutMask) = false →
         ∃ t, exec (.ffxLoadComplete core) s = .next t ∧ getSlot (getCore t.dev core.toNat).ffx o.target = v ∧
           v.valid = true ∧ (getCore t.dev core.toNat).ffx.q = F.q.filter (fun p => p.id != o.id) ∧
           ∀ i, i < 4 → i ≠ o.target → getSlot (getCore t.dev core.toNat).ffx i =
             if ((getSlot F i).valid = true ∨ (getSlot F i).ends ≠ none) ∧ (getSlot F i).lutMask &&& v.lutMask ≠ 0 then
               emptySlot
             else getSlot F i)) ∧
     (nextFfx F = some o → o.target ≠ F.active → ffxLoading F o = false →
       exec (.ffxSlotSwitch core) s = .next (s.withDev (putCore s.dev core.toNat
         { getCore s.dev core.toNat with ffx := { F with active := o.target } }))) ∧
     (nextFfx F = some o → o.target = F.active → ffxLoading F o = false →
       (∀ h ∈ (getCore s.dev core.toNat).spx.hands, o.id ≤ h.id) → failOf F o.uid o.target o.id = none →
       runsOn (getSlot F o.target) o.id = true → (∀ a ∈ o.args, a.2.length ≤ (getSlot F o.target).nIn) →
       o.nres ≤ (getSlot F o.target).nOut → (∀ e ∈ s.dev.errs, e.unit = core.toNat → e.mem ≠ 0x09) →
       (invoke s.dev core.toNat o (getSlot F o.target)).1 = [] →
       ∀ g, getGroup (getCore s.dev core.toNat) o.slot = some g → g.uid = o.uid →
       ∃ t h, exec (.ffxComplete core) s = .next t ∧ t.pending = s.pending ∧
         (getCore t.dev core.toNat).ffx = { F with q := F.q.filter fun p => p.id != o.id } ∧
         getGroup (getCore t.dev core.toNat) o.slot = some h ∧ h = { g with x := h.x } ∧
         (∀ k, k ≠ o.slot → getGroup (getCore t.dev core.toNat) k = getGroup (getCore s.dev core.toNat) k) ∧
         (∀ n, n ≠ core.toNat → getCore t.dev n = getCore s.dev n) ∧
         ∀ r i, i < 32 → r ≠ 255 → readX h r i =
           match (invoke s.dev core.toNat o (getSlot F o.target)).2.1.find? fun p => decide (p.1 = i) with
           | some p => if o.dreg ≠ 255 ∧ o.dreg ≤ r ∧ r < o.dreg + o.nres then p.2.getD (r - o.dreg) 0 else readX g r i
           | none => readX g r i))

/-- CNT_CLEAR zeroes counters, a thrash window updates its class, and WRITEBACK_ALL leaves every line of the half
clean with its dirty bytes in memory (R254, R255, R259, R256, R253). -/
def Obligations.CacheMaintenanceCountersAndSweeps : Prop :=
  (∀ (half : BitVec 1) (v : D64) (s : State), ∃ t, exec (.cntClear half v) s = .next t ∧ t.pending = s.pending ∧
    t.dev = { s.dev with regs := t.dev.regs, thrash := t.dev.thrash } ∧
    ∀ h k e, h < 2 → k < 8 → e < 6 → cnt t.dev h k e = if h = half.toNat ∧ bit v k = true then 0 else cnt s.dev h k e) ∧
  (∀ (half : BitVec 1) (cls : BitVec 3) (s : State),
    ∃ t, exec (.thrashWindowEnd half cls) s = .next t ∧ t.pending = s.pending ∧
      t.dev = { s.dev with regs := t.dev.regs, thrash := t.dev.thrash, funnel := t.dev.funnel } ∧
      ∀ h k T cfg hits misses, h = half.toNat → k = cls.toNat → T = getThrash s.dev h k →
        cfg = regGet s.dev (aThrashCfg h k) → hits < 2 ^ 48 → misses < 2 ^ 48 →
        (T.hits0 + hits) % 2 ^ 48 = cnt s.dev h k 0 → (T.miss0 + misses) % 2 ^ 48 = cnt s.dev h k 1 →
        let high := 2 ^ bits cfg 24 4 ≤ hits + misses ∧ bits cfg 0 8 * (hits + misses) < misses * 256
        let run := if high then min (T.run + 1) 15 else 0
        let above := max (bits cfg 20 4) 1 ≤ run
        let ev := above ∧ (high → T.armed = true) ∧ bit cfg 31 = true
        (getThrash t.dev h k).run = run ∧ (bit (regGet t.dev (aThrashStatus h)) k = true ↔ above) ∧
        (bit (regGet t.dev (aThrashStatus h)) (8 + k) = true ↔
          ev ∨ bit (regGet s.dev (aThrashStatus h)) (8 + k) = true) ∧
        ((getThrash t.dev h k).armed = true ↔ (high → T.armed = true) ∧ ¬ ev) ∧
        (getThrash t.dev h k).hits0 = cnt s.dev h k 0 ∧ (getThrash t.dev h k).miss0 = cnt s.dev h k 1 ∧
        (ev → Logged s.dev t.dev (src 1 (1024 * h)) 0 0x0302 h k hits) ∧ (¬ ev → t.dev.funnel = s.dev.funnel) ∧
        ∀ g j e, g < 2 → j < 8 → e < 6 → cnt t.dev g j e = cnt s.dev g j e) ∧
  (∀ (half : BitVec 1) (v : D64) (s : State), ∃ t, exec (.writebackAll half v) s = .next t ∧ RegsOnly s t ∧
    t.dev.funnel = s.dev.funnel ∧
    bit (regGet t.dev (aWbCtrl half.toNat)) 1 = bit v 1 ∧
    (bit v 0 = true ∧ bit (regGet s.dev (aWbStatus half.toNat)) 63 = false →
      bit (regGet t.dev (aWbStatus half.toNat)) 63 = true ∧ bits (regGet t.dev (aWbStatus half.toNat)) 0 44 = 0) ∧
    (¬ (bit v 0 = true ∧ bit (regGet s.dev (aWbStatus half.toNat)) 63 = false) →
      regGet t.dev (aWbStatus half.toNat) = regGet s.dev (aWbStatus half.toNat)) ∧
    ∀ a, a ≠ aWbCtrl half.toNat → a ≠ aWbStatus half.toNat → regGet t.dev a = regGet s.dev a) ∧
  (∀ (half : BitVec 1) (s : State), bit (regGet s.dev (aWbStatus half.toNat)) 63 = true →
    (∀ e ∈ s.dev.errs, e.mem ≠ 0x0A ∧ e.mem ≠ 0x0B) → ∀ done, done = regField s.dev (aWbStatus half.toNat) 32 12 →
    ∃ t, exec (.writebackAllDone half) s = .next t ∧ t.pending = s.pending ∧
      t.dev = { s.dev with regs := t.dev.regs, slices := t.dev.slices, mem := t.dev.mem, errs := t.dev.errs,
                           chk := t.dev.chk } ∧
      bit (regGet t.dev (aWbStatus half.toNat)) 63 = false ∧ bit (regGet t.dev (aWbStatus half.toNat)) 62 = true ∧
      (∀ sl i, getSet t.dev sl i =
        if halfOf sl = half.toNat ∧ done ≤ i ∧ i < 3072 then
          (((getSet s.dev sl i).map fun c => if c.poison then c else { c with dirty := false }).filter fun c =>
            !bit (regGet s.dev (aWbCtrl half.toNat)) 1 || c.pinned || c.poison)
        else getSet s.dev sl i) ∧
      (∀ f o c, o < 2 ^ 20 → DirtyAt s.dev half.toNat done f o c → (∀ k, DirtyAt s.dev half.toNat done f o k → k = c) →
        memByte t.dev f o = lineByte c.data (o % 128)) ∧
      ∀ f o, o < 2 ^ 20 → (∀ c, ¬ DirtyAt s.dev half.toNat done f o c) → memByte t.dev f o = memByte s.dev f o)

/-- BANK_RETIRE gives the bank's way to the spare, or takes it out of service, with its lines evicted; one without
effect changes nothing but the log (R226, R244, R260). -/
def Obligations.BanksRetireIntoTheSpare : Prop :=
  ∀ (slice : BitVec 11) (v : D64) (s : State), ∃ t, exec (.bankRetire slice v) s = .next t ∧ t.pending = s.pending ∧
    (bit v 5 = false → t = s) ∧
    (∀ k, k ≠ slice.toNat → getSlice t.dev k = getSlice s.dev k) ∧
    (bit v 5 = true → ∀ b V W, b = bits v 0 5 → V = getSlice s.dev slice.toNat → W = getSlice t.dev slice.toNat →
      (16 < b ∨ bit V.retired b = true → W = V ∧ Logged s.dev t.dev (src 8 1) 5 0x02
        (cdcw (slice.toNat / 1024) + 0x80000 + 8 * (slice.toNat % 1024)) v.toNat 0) ∧
      (b ≤ 16 → bit V.retired b = false →
        (b < 16 → V.spareFor = 31 → bit V.retired 16 = false →
          W.retired = setBits V.retired b 1 1 ∧ W.spareFor = b ∧ W.out = V.out ∧
          ∀ i c, c ∈ mapGet [] W.sets i → c.way ≠ b) ∧
        (b = 16 → V.spareFor = 31 → W = { V with retired := setBits V.retired 16 1 1 }) ∧
        (∀ w, (b = 16 ∧ V.spareFor ≠ 31 ∧ w = V.spareFor ∨
            b < 16 ∧ (V.spareFor ≠ 31 ∨ bit V.retired 16 = true) ∧ w = b) →
          (waysOf V ≤ 8 → W = V ∧ Logged s.dev t.dev (src 8 1) 5 0x02
            (cdcw (slice.toNat / 1024) + 0x80000 + 8 * (slice.toNat % 1024)) v.toNat 0) ∧
          (8 < waysOf V → W.retired = setBits V.retired b 1 1 ∧ W.out = setBits V.out w 1 1 ∧
            W.spareFor = V.spareFor ∧ ∀ i c, c ∈ mapGet [] W.sets i → c.way ≠ w))))

/-- A 64-bit page map write replaces the entry; a shootdown drops its page's translations at once and its lines
and every core's caches at the end (R265, R270, R272). -/
def Obligations.PageMapWritesAndShootdowns : Prop :=
  (∀ (page : BitVec 19) (bytes : BitVec 4) (v : D64) (s : State),
    ∃ t, exec (.pageMapWrite page bytes v) s = .next t ∧ t.pending = s.pending ∧
      (∀ p, pmapEntry t.dev p = if bytes = 8 ∧ p = page.toNat then v else pmapEntry s.dev p) ∧
      t.dev = { s.dev with pmap := t.dev.pmap, regs := t.dev.regs, errs := t.dev.errs, funnel := t.dev.funnel } ∧
      (bytes ≠ 8 → Logged s.dev t.dev (src 8 1) 5 0x02 (0x7B0000000000 + 8 * page.toNat) v.toNat 0)) ∧
  (∀ (v : D64) (s : State), ∃ t, exec (.shootdownStart v) s = .next t ∧ t.pending = s.pending ∧
    t.dev = { s.dev with regs := t.dev.regs, cores := t.dev.cores, btc := t.dev.btc, shoot := t.dev.shoot } ∧
    (bit v 34 = true ∧ bit (regGet s.dev aShoot) 63 = false →
      bit (regGet t.dev aShoot) 63 = true ∧
      (∃ k, t.dev.shoot = some k ∧ k.page = bits v 0 19 ∧ k.all = bit v 32 ∧ k.flush = bit v 33) ∧
      (∀ e, e ∈ t.dev.btc ↔ e ∈ s.dev.btc ∧ bit v 32 = false ∧ e.1 ≠ bits v 0 19) ∧
      ∀ n e, e ∈ (getCore t.dev n).tlb ↔ e ∈ (getCore s.dev n).tlb ∧ bit v 32 = false ∧ e.1 ≠ bits v 0 19) ∧
    (¬ (bit v 34 = true ∧ bit (regGet s.dev aShoot) 63 = false) → RegsOnly s t)) ∧
  (∀ (s : State) (k : Shoot), s.dev.shoot = some k → s.dev.boot.quiesce = false →
    (∀ id ∈ k.waits, ∀ r, getReq s.dev id = some r → r.st = .performed) →
    ∃ t, exec .shootdownDone s = .next t ∧ t.pending = s.pending ∧ t.dev.shoot = none ∧
      bit (regGet t.dev aShoot) 63 = false ∧ bit (regGet t.dev aShoot) 62 = true ∧ t.dev.pmap = s.dev.pmap ∧
      (k.flush = true → k.all = false →
        (∀ sl i c, c ∈ getSet t.dev sl i → pageOfLine c.line ≠ k.page) ∧
        ∀ n, (getCore t.dev n).l1 = [] ∧ (getCore t.dev n).ic = [] ∧ (getCore t.dev n).constc = [] ∧
          (getCore t.dev n).descc = []) ∧
      (¬ (k.flush = true ∧ k.all = false) → t.dev.slices = s.dev.slices ∧ t.dev.cores = s.dev.cores ∧
        t.dev.mem = s.dev.mem))

/-- Controllers retry, the scrubber reads in order, a bank port performs an access in its last cycle, watchdogs
count and fence, shares stay within the slots (R277, R287, R288, R289, R302, R303, R307, R309, R312, R314,
R315). -/
def Obligations.ControllersScrubberPortsAndShares : Prop :=
  (∀ (ch : BitVec 5) (s : State), bit (regGet s.dev (aChan ch.toNat)) 63 = true →
    exec (.memRetrainInterval ch) s = .next s) ∧
  (∀ (ch : BitVec 5) (req : Nat) (fails : BitVec 3) (s : State), bit (regGet s.dev (aChan ch.toNat)) 63 = true →
    1 ≤ fails.toNat → fails.toNat ≤ 4 →
    ∃ t, exec (.burstCrcFail ch req fails) s = .next t ∧ RegsOnly s t ∧ t.dev.funnel = s.dev.funnel ∧
      (∀ a, a ≠ aChan ch.toNat → regGet t.dev a = regGet s.dev a) ∧
      regField t.dev (aChan ch.toNat) 32 16 = min (regField s.dev (aChan ch.toNat) 32 16 + fails.toNat) (2 ^ 16 - 1) ∧
      regField t.dev (aChan ch.toNat) 48 8 =
        if fails = 4 then min (regField s.dev (aChan ch.toNat) 48 8 + 1) (2 ^ 8 - 1)
        else regField s.dev (aChan ch.toNat) 48 8) ∧
  (∀ s : State, bit (regGet s.dev aSecBoot) 63 = true →
    ∃ t, exec .scrubPassStart s = .next t ∧ t.pending = s.pending ∧
      t.dev = { s.dev with regs := t.dev.regs, scrub := t.dev.scrub } ∧
      (s.dev.scrub.running = true → bit (regGet t.dev aScrubStatus) 0 = true ∧
        t.dev.scrub = { s.dev.scrub with again := true }) ∧
      (s.dev.scrub.running = false → bit (regGet t.dev aScrubStatus) 0 = false ∧
        t.dev.scrub.cacheDone = !bit (regGet s.dev aScrubCtrl) 21 ∧
        t.dev.scrub.memDone = !(bit (regGet s.dev aScrubCtrl) 20 && protectedMode s.dev) ∧
        t.dev.scrub.running = (bit (regGet s.dev aScrubCtrl) 21 || bit (regGet s.dev aScrubCtrl) 20 && protectedMode s.dev) ∧
        t.dev.scrub.cachePos = 0 ∧ t.dev.scrub.memPos = 0)) ∧
  (∀ s : State, bit (regGet s.dev aSecBoot) 63 = true → s.dev.scrub.running = true →
    budgetOk s.dev 2122 = true →
    (s.dev.scrub.cacheDone = false → s.dev.scrub.cachePos + 1 < cacheSteps →
      ∃ t, exec (.scrubRead .cache) s = .next t ∧ t.pending = s.pending ∧
        t.dev.scrub = { s.dev.scrub with cachePos := s.dev.scrub.cachePos + 1 } ∧
        ∀ f o, memByte t.dev f o = memByte s.dev f o) ∧
    (s.dev.scrub.memDone = false → s.dev.scrub.memPos + 1 < 32 * unitsPerChan →
      ∃ t, exec (.scrubRead .memory) s = .next t ∧ t.pending = s.pending ∧
        t.dev.scrub = { s.dev.scrub with memPos := s.dev.scrub.memPos + 1 } ∧ t.dev.slices = s.dev.slices ∧
        (∀ f o, memByte t.dev f o = memByte s.dev f o) ∧
        ∀ c u, c = s.dev.scrub.memPos / unitsPerChan → u = s.dev.scrub.memPos % unitsPerChan →
          protectedMode s.dev = true →
          (∀ m, markOf s.dev (memCode s.dev) c u = some m → m.dbl = false) →
          markOf t.dev (memCode s.dev) c u = none)) ∧
  (∀ (slice : BitVec 11) (bank : BitVec 5) (a : BankReq) (s : State), bank.toNat ≤ 16 → a.who.toNat ≤ 5 →
    a.delay = 0 → a.req = 0 → getPort s.dev slice.toNat bank.toNat =
      { idlePort with rot := (getPort s.dev slice.toNat bank.toNat).rot, ended := (getPort s.dev slice.toNat bank.toNat).ended } →
    ∃ t, exec (.bankAccessPerform slice bank [a]) s = .next t ∧ t.pending = s.pending ∧
      t.dev = { s.dev with banks := t.dev.banks } ∧
      (∀ i b, portIx i b ≠ portIx slice.toNat bank.toNat → getPort t.dev i b = getPort s.dev i b) ∧
      (getPort t.dev slice.toNat bank.toNat).waits = [] ∧ (getPort t.dev slice.toNat bank.toNat).holder = none ∧
      (getPort t.dev slice.toNat bank.toNat).ended = true ∧
      (getPort t.dev slice.toNat bank.toNat).rot = (a.who.toNat + 1) % 6) ∧
  (∀ (res : Word) (s : State), resourceOk res.toNat = true → res.toNat ∉ s.dev.fencedRes →
    noReqHolds s.dev res.toNat = true →
    ∃ t n, exec (.grantWatchdogExpiry res none) s = .next t ∧ t.pending = s.pending ∧
      n = mapGet 0 s.dev.expiry res.toNat + 1 ∧ mapGet 0 t.dev.expiry res.toNat = n ∧
      (∀ r, r ≠ res.toNat → mapGet 0 t.dev.expiry r = mapGet 0 s.dev.expiry r) ∧
      bit (regGet t.dev aWdogLast) 63 = true ∧ bits (regGet t.dev aWdogLast) 0 32 = res.toNat ∧
      (bit (regGet t.dev aWdogLast) 62 = true → regField s.dev aWdogCfg 32 4 ≠ 0 ∧ regField s.dev aWdogCfg 32 4 ≤ n) ∧
      (bit (regGet t.dev aWdogLast) 62 = false → Logged s.dev t.dev (src 9 0) 0 0x0401 res.toNat 0 0) ∧
      (2 ^ 28 ≤ res.toNat → ¬ (res.toNat / 2 ^ 28 = 1 ∧ res.toNat % 2 ^ 16 = 4) →
        regField s.dev aWdogCfg 32 4 ≠ 0 → regField s.dev aWdogCfg 32 4 ≤ n →
        bit (regGet t.dev aWdogLast) 62 = true ∧ t.dev.fencedRes = s.dev.fencedRes ++ [res.toNat])) ∧
  (∀ (m : BitVec 12) (s : State), m.toNat ≤ 2123 →
    (regGet s.dev aUsec).toNat % windowUs (budgetOf s.dev m.toNat) = 0 →
    ∃ t, exec (.budgetWindow m) s = .next t ∧ t.pending = s.pending ∧
      ((2048 ≤ m.toNat → m.toNat < 2112 → (getEngine s.dev (m.toNat - 2048)).descs = []) →
        t.dev = { s.dev with budget := t.dev.budget } ∧
        mapGet freshBudget t.dev.budget m.toNat = { used := 0, cfg := regGet s.dev (aBudget m.toNat) } ∧
        ∀ k, k ≠ m.toNat → mapGet freshBudget t.dev.budget k = mapGet freshBudget s.dev.budget k)) ∧
  (∀ (cls : BitVec 3) (v : D64) (s : State) (c : Instr) (reg : Nat → Nat) (w slots : Nat),
    (c = .missShareWrite cls v ∧ reg = aMissShare ∧ w = 17 ∧ slots = 65536 ∨
     c = .mcqShareWrite cls v ∧ reg = aMcqShare ∧ w = 9 ∧ slots = 256) →
    ∃ t, exec c s = .next t ∧ RegsOnly s t ∧
      (slots < ((List.range 8).map fun k => if k = cls.toNat then bits v 32 w else regField s.dev (reg k) 32 w).sum →
        (∀ k, k < 8 → regGet t.dev (reg k) = regGet s.dev (reg k)) ∧
        Logged s.dev t.dev (src 8 1) 5 0x02 (reg cls.toNat) v.toNat 0) ∧
      (((List.range 8).map fun k => if k = cls.toNat then bits v 32 w else regField s.dev (reg k) 32 w).sum ≤ slots →
        t.dev.funnel = s.dev.funnel ∧ (∀ a, a ≠ reg cls.toNat → regGet t.dev a = regGet s.dev a) ∧
        regField t.dev (reg cls.toNat) 32 w = bits v 32 w ∧ regField t.dev (reg cls.toNat) 0 w = bits v 0 w))

/-- A regulator adds up UP notices and acknowledges those it can serve; an acknowledgement or the end of the lead
time ends a notice, and bad ones are counted (R411, R412, R414, R415). -/
def Obligations.NoticesAddAcknowledgeAndExpire : Prop :=
  (∀ (cluster : BitVec 6) (frame : D64) (ready : Bool) (s : State) (k : Cluster), k = getCluster s.dev cluster.toNat →
    exec (.regulatorNotice cluster frame ready) s = .next (s.withDev (putCluster s.dev cluster.toNat
      (if bits frame 0 16 = crc16 frame ∧ bits frame 60 4 = 1 then
        { k with line := k.line.erase frame, phases := k.phases ++ [(bits frame 29 8, bits frame 44 10)],
                 acks := k.acks ++ (if ready then [ackFrame cluster.toNat (bits frame 29 8)] else []) }
      else if bits frame 0 16 = crc16 frame ∧ bits frame 60 4 = 2 then
        { k with line := k.line.erase frame, phases := [] }
      else { k with line := k.line.erase frame })))) ∧
  (∀ (cluster : BitVec 6) (frame : Word) (s : State) (k : Cluster), k = getCluster s.dev cluster.toNat →
    ∃ t, exec (.noticeAck cluster frame) s = .next t ∧ t.pending = s.pending ∧
      t.dev = { s.dev with regs := t.dev.regs, clusters := t.dev.clusters } ∧
      (∀ c, c ≠ cluster.toNat → getCluster t.dev c = getCluster s.dev c) ∧
      (∀ a, a ≠ aNoticeStatus → regGet t.dev a = regGet s.dev a) ∧
      (bits frame 0 8 = crc8 frame ∧ bits frame 28 4 = 3 ∧ (∃ u ∈ k.ups, u.seq = bits frame 14 8) →
        getCluster t.dev cluster.toNat = { k with
          acks := k.acks.erase frame, noAck := 0,
          ups := (k.ups.eraseP fun u => decide (u.seq = bits frame 14 8)) } ∧
        regField t.dev aNoticeStatus 32 16 = min (regField s.dev aNoticeStatus 32 16 + 1) (2 ^ 16 - 1) ∧
        regField t.dev aNoticeStatus 0 16 = regField s.dev aNoticeStatus 0 16) ∧
      (¬ (bits frame 0 8 = crc8 frame ∧ bits frame 28 4 = 3 ∧ ∃ u ∈ k.ups, u.seq = bits frame 14 8) →
        getCluster t.dev cluster.toNat = { k with acks := k.acks.erase frame } ∧
        regField t.dev aNoticeStatus 0 16 = min (regField s.dev aNoticeStatus 0 16 + 1) (2 ^ 16 - 1) ∧
        regField t.dev aNoticeStatus 32 16 = regField s.dev aNoticeStatus 32 16)) ∧
  (∀ (cluster : BitVec 6) (seq : Byte) (s : State) (k : Cluster), k = getCluster s.dev cluster.toNat →
    (∃ u ∈ k.ups, u.seq = seq.toNat) →
    ∃ t, exec (.noticeLeadExpiry cluster seq) s = .next t ∧ t.pending = s.pending ∧
      t.dev = { s.dev with regs := t.dev.regs, clusters := t.dev.clusters, funnel := t.dev.funnel } ∧
      getCluster t.dev cluster.toNat = { k with
        ups := k.ups.eraseP (fun u => decide (u.seq = seq.toNat)), noAck := if k.noAck = 15 then 0 else k.noAck + 1 } ∧
      (∀ c, c ≠ cluster.toNat → getCluster t.dev c = getCluster s.dev c) ∧
      regField t.dev aNoticeStatus 16 16 = min (regField s.dev aNoticeStatus 16 16 + 1) (2 ^ 16 - 1) ∧
      (k.noAck = 15 → Logged s.dev t.dev (src 7 0) 0 0x0205 cluster.toNat 0 0) ∧
      (k.noAck ≠ 15 → t.dev.funnel = s.dev.funnel)) ∧
  (∀ (cluster : BitVec 6) (s : State), (getCluster s.dev cluster.toNat).phases ≠ [] →
    exec (.regulatorPhaseShed cluster) s = .next (s.withDev (putCluster s.dev cluster.toNat
      { getCluster s.dev cluster.toNat with phases := [] })))

/-- Sleep and wake requests move a cluster only along the transitions of R420 to R423; sleep keeps only RETAIN
banks and their tags of a core (R420, R421, R422, R423, R407). -/
def Obligations.ClustersSleepAndWake : Prop :=
  (∀ (cluster : BitVec 6) (s : State) (k : Cluster), k = getCluster s.dev cluster.toNat →
    (k.st = .awake → clusterIdle s.dev cluster.toNat = true → exec (.clusterSleepRequest cluster) s =
      .next (s.withDev (putCluster s.dev cluster.toNat { k with st := .entering, sleepReq := false }))) ∧
    (k.st = .awake ∧ clusterIdle s.dev cluster.toNat = false ∨ k.st = .waking →
      exec (.clusterSleepRequest cluster) s =
        .next (s.withDev (putCluster s.dev cluster.toNat { k with sleepReq := true }))) ∧
    (k.st = .off ∨ k.st = .sleep ∨ k.st = .entering → exec (.clusterSleepRequest cluster) s = .next s) ∧
    (k.st = .sleep → ∃ t, exec (.clusterWakeRequest cluster) s = .next t ∧ t.pending = s.pending ∧
      t.dev = { s.dev with regs := t.dev.regs, clusters := t.dev.clusters } ∧
      getCluster t.dev cluster.toNat = { k with st := .waking, sleepReq := false } ∧
      ∀ c, c ≠ cluster.toNat → getCluster t.dev c = getCluster s.dev c) ∧
    (k.st = .entering → exec (.clusterWakeRequest cluster) s =
      .next (s.withDev (putCluster s.dev cluster.toNat { k with wakeReq := true }))) ∧
    (k.st = .awake ∨ k.st = .waking → exec (.clusterWakeRequest cluster) s =
      .next (s.withDev (putCluster s.dev cluster.toNat { k with sleepReq := false }))) ∧
    (k.st = .off → exec (.clusterWakeRequest cluster) s = .next s) ∧
    (k.st = .awake → clusterIdle s.dev cluster.toNat = true → bit (regGet s.dev (aCluster cluster.toNat)) 61 = true →
      exec (.clusterIdleTimeout cluster) s =
        .next (s.withDev (putCluster s.dev cluster.toNat { k with st := .entering, sleepReq := false }))) ∧
    (k.st = .entering → k.wakeReq = false → ∃ t, exec (.sleepEntryDone cluster) s = .next t ∧ t.pending = s.pending ∧
      (getCluster t.dev cluster.toNat).st = .sleep ∧ regField t.dev (aRail cluster.toNat) 32 16 = 550 ∧
      (∀ f o, memByte t.dev f o = memByte s.dev f o) ∧
      (∀ c, c ≠ cluster.toNat → getCluster t.dev c = getCluster s.dev c) ∧
      (∀ n, n / 32 ≠ cluster.toNat → getCore t.dev n = getCore s.dev n) ∧
      ∀ n, n / 32 = cluster.toNat → getCore t.dev n = { freshCore with
          cycleBase := (getCore s.dev n).cycleBase, rr := (getCore s.dev n).rr, spx := (getCore t.dev n).spx } ∧
        ∀ b, b < 16 →
          (bankState (getCore s.dev n).spx b = bankRetain → bankState (getCore t.dev n).spx b = bankRetain ∧
            mapGet 0 (getCore t.dev n).spx.tags b = mapGet 0 (getCore s.dev n).spx.tags b ∧
            ∀ o, o / 32768 = b → spadByte t.dev n o = spadByte s.dev n o) ∧
          (bankState (getCore s.dev n).spx b ≠ bankRetain → bankState (getCore t.dev n).spx b = bankOff ∧
            mapGet 0 (getCore t.dev n).spx.tags b = 0 ∧ ∀ o, o / 32768 = b → spadByte t.dev n o = 0)) ∧
    (k.st = .waking → k.sleepReq = false → ∃ t, exec (.clusterWakeDone cluster) s = .next t ∧ t.pending = s.pending ∧
      getCluster t.dev cluster.toNat = { k with st := .awake, sleepReq := false } ∧
      (∀ f o, memByte t.dev f o = memByte s.dev f o) ∧
      (∀ c, c ≠ cluster.toNat → getCluster t.dev c = getCluster s.dev c) ∧
      ∀ n, getCore t.dev n = if n / 32 = cluster.toNat then
        { getCore s.dev n with l1 := [], ic := [], constc := [], descc := [], tlb := [] } else getCore s.dev n))

/-- A started item's task takes the lower free position of its core with an acquire, its banks begin to wake, and
its arrays begin empty (R63, R64, R65, R113, R158, R211, R212, R387). -/
def Obligations.TasksStartOnFreePositions : Prop :=
  ∀ (core : BitVec 11) (queue : BitVec 12) (item : Nat) (s : State) (w : WorkItem) (p : Part) (m : Module) (T : Task)
    (pos : Bool),
    getItem s.dev queue.toNat item = some w → waitingPart w core.toNat = some p → w.begun = true →
    mapGet none s.dev.disp.modules w.launch.module.toNat = some m → coreUp s.dev core.toNat = true →
    bit (regGet s.dev aSecBoot) 63 = true →
    T = newTask w.launch queue.toNat item (m.addr + w.launch.entry.toNat) p.redisp →
    pos = (getCore s.dev core.toNat).task0.isSome → getTask (getCore s.dev core.toNat) pos = none →
    (∀ o, getTask (getCore s.dev core.toNat) (!pos) = some o → letsStart o T = true) →
    (bit w.launch.lflags 2 = true → T.ngroups ≤ roomFor (8 * ceilDiv T.nregs 8) T.ngroups (getCore s.dev core.toNat)) →
    ∃ t, exec (.taskStart core queue item) s = .next t ∧ t.pending = s.pending ∧
      getTask (getCore t.dev core.toNat) pos = some { T with started := decide (T.banks = 0) } ∧
      getTask (getCore t.dev core.toNat) (!pos) = getTask (getCore s.dev core.toNat) (!pos) ∧
      (∀ i, getGroup (getCore t.dev core.toNat) i = getGroup (getCore s.dev core.toNat) i) ∧
      (getCore t.dev core.toNat).l1 = [] ∧ (getCore t.dev core.toNat).constc = [] ∧ (getCore t.dev core.toNat).descc = [] ∧
      (∀ b, b < 16 → if bit T.banks b then
          bankState (getCore t.dev core.toNat).spx b = bankWaking ∧ mapGet 0 (getCore t.dev core.toNat).spx.tags b = 0 ∧
          bit (getCore t.dev core.toNat).spx.initing b =
            !decide (bit T.resident b = true ∧ bankState (getCore s.dev core.toNat).spx b = bankRetain ∧
              mapGet 0 (getCore s.dev core.toNat).spx.tags b = T.handle ∧ T.handle ≠ 0)
        else bankState (getCore t.dev core.toNat).spx b = bankState (getCore s.dev core.toNat).spx b ∧
          mapGet 0 (getCore t.dev core.toNat).spx.tags b = mapGet 0 (getCore s.dev core.toNat).spx.tags b) ∧
      (∀ o, spadByte t.dev core.toNat o = spadByte s.dev core.toNat o) ∧
      (T.usesMx = true → (∀ i, getTile (getMx t.dev core.toNat) i = emptyTile) ∧ (getCore t.dev core.toNat).ru = [] ∧
        (getMx t.dev core.toNat).fsb = [] ∧ (getMx t.dev core.toNat).afb = [] ∧
        (¬ (T.wstage = true ∧ (getCore s.dev core.toNat).mxModule = T.handle) →
          ∀ a b, getBank (getMx t.dev core.toNat) a b = emptyBank) ∧
        regGet t.dev (aRuCtrl core.toNat) = BitVec.ofNat 64 w.launch.ftzExp.toNat) ∧
      (T.usesMx = false → getMx t.dev core.toNat = getMx s.dev core.toNat ∧ t.dev.regs = s.dev.regs) ∧
      (∀ n, n ≠ core.toNat → getCore t.dev n = getCore s.dev n) ∧ t.dev.mem = s.dev.mem

/-- GROUP_ADMIT gives the task's next group the lowest free slot and register range, with the initial state of
Table 2.3 (R43, R52, R53, R54, R63, R64). -/
def Obligations.GroupsAreAdmittedInOrder : Prop :=
  ∀ (core : BitVec 11) (pos : Bool) (s : State) (T : Task) (i b : Nat),
    getTask (getCore s.dev core.toNat) pos = some T → coreUp s.dev core.toNat = true →
    bit (regGet s.dev aSecBoot) 63 = true → T.started = true → T.aborted = false → T.admitted < T.ngroups →
    i < 32 → getGroup (getCore s.dev core.toNat) i = none →
    (∀ j, j < i → getGroup (getCore s.dev core.toNat) j ≠ none) → b < 256 →
    rangeFree (getCore s.dev core.toNat) (8 * b) (8 * ceilDiv T.nregs 8) = true →
    (∀ c, c < b → rangeFree (getCore s.dev core.toNat) (8 * c) (8 * ceilDiv T.nregs 8) = false) →
    ∃ t g, exec (.groupAdmit core pos) s = .next t ∧ OneCore s { t with dev := { t.dev with nextId := s.dev.nextId } } core.toNat ∧
      getGroup (getCore t.dev core.toNat) i = some g ∧
      (∀ j, j ≠ i → getGroup (getCore t.dev core.toNat) j = getGroup (getCore s.dev core.toNat) j) ∧
      getTask (getCore t.dev core.toNat) pos = some { T with admitted := T.admitted + 1 } ∧
      getTask (getCore t.dev core.toNat) (!pos) = getTask (getCore s.dev core.toNat) (!pos) ∧
      g.pos = pos ∧ g.index = T.admitted ∧ g.base = 8 * b ∧ g.alloc = 8 * ceilDiv T.nregs 8 ∧ g.nregs = T.nregs ∧
      g.hold = none ∧ (∀ l, l < 32 →
        (32 * T.admitted + l < T.threads → laneOf g l = { pc := T.entry, st := .active, yld := false, preds := 0 } ∧
          readX g 0 l = BitVec.ofNat 32 (32 * T.admitted + l)) ∧
        (T.threads ≤ 32 * T.admitted + l → (laneOf g l).st = .exited ∧ readX g 0 l = 0) ∧
        ∀ r, r ≠ 0 → readX g r l = 0) ∧
      (∀ r, r < 16 → readU g r = T.args.getD r 0) ∧ readU g 16 = BitVec.ofNat 32 T.admitted ∧
      readU g 17 = BitVec.ofNat 32 core.toNat ∧ ∀ r, 18 ≤ r → readU g r = 0

/-- A task with no group, write or queued operation left is released: KEEP banks are retained with its handle, the
others turn off, and its part of the item ends (R66, R108, R213, R144, R393). -/
def Obligations.TasksReleaseTheirCore : Prop :=
  (∀ (core : BitVec 11) (pos : Bool) (s : State) (T : Task), coreUp s.dev core.toNat = true →
    releaseBusy s.dev core.toNat pos = false → leftFaults (getCore s.dev core.toNat) pos = [] →
    getTask (getCore s.dev core.toNat) pos = some T →
    ∃ t, exec (.taskRelease core pos) s = .next t ∧ t.pending = s.pending ∧
      getTask (getCore t.dev core.toNat) pos = none ∧
      getTask (getCore t.dev core.toNat) (!pos) = getTask (getCore s.dev core.toNat) (!pos) ∧
      (∀ i, getGroup (getCore t.dev core.toNat) i = getGroup (getCore s.dev core.toNat) i) ∧
      (∀ b, b < 16 →
        (bit T.banks b = true → bit T.keep b = true → bankState (getCore t.dev core.toNat).spx b = bankRetain ∧
          mapGet 0 (getCore t.dev core.toNat).spx.tags b = T.handle ∧
          (bankState (getCore s.dev core.toNat).spx b = bankOn →
            ∀ o, o / 32768 = b → spadByte t.dev core.toNat o = spadByte s.dev core.toNat o)) ∧
        (bit T.banks b = true → bit T.keep b = false → bankState (getCore t.dev core.toNat).spx b = bankOff ∧
          mapGet 0 (getCore t.dev core.toNat).spx.tags b = 0 ∧
          ∀ o, o / 32768 = b → spadByte t.dev core.toNat o = 0) ∧
        (bit T.banks b = false → bankState (getCore t.dev core.toNat).spx b = bankState (getCore s.dev core.toNat).spx b ∧
          mapGet 0 (getCore t.dev core.toNat).spx.tags b = mapGet 0 (getCore s.dev core.toNat).spx.tags b ∧
          ∀ o, o / 32768 = b → spadByte t.dev core.toNat o = spadByte s.dev core.toNat o)) ∧
      (∀ w, getItem s.dev T.queue T.item = some w →
        ∃ w', getItem t.dev T.queue T.item = some w' ∧ w'.parts = (setPart w core.toNat .resident .ended).parts ∧
          (T.fault = none → w'.fault = w.fault ∧ w'.faulted = w.faulted) ∧
          (∀ f, T.fault = some f → w'.faulted = w.faulted + 1 ∧
            w'.fault = if w.fault = none then some (f, core.toNat) else w.fault)) ∧
      (∀ n, n ≠ core.toNat → getCore t.dev n = getCore s.dev n) ∧ t.dev.mem = s.dev.mem ∧ t.dev.regs = s.dev.regs) ∧
  (∀ (core : BitVec 11) (v : D64) (s : State),
    exec (.coreBarLimitWrite core v) s = .next (s.withDev (if coreFenced s.dev core.toNat then s.dev
      else regPut s.dev (aBarLimit core.toNat) (BitVec.ofNat 64 (v.toNat % 2 ^ 32)))))

/-- Fabric ports train, key, run, degrade and go DOWN as R320 to R325 say; only a verified flit with the expected
SEQ delivers messages; transit lowers TTL (R320, R321, R323, R324, R325, R326, R328, R330, R331, R332). -/
def Obligations.FabricPortsFollowTheirStates : Prop :=
  (∀ (port : BitVec 3) (s : State) (v : FabPort), v = getLink s.dev port.toNat →
    (v.st = lsTraining →
      exec (.linkTrained port) s = .next (s.withDev (putLink s.dev port.toNat { v with st := lsKeying }))) ∧
    (v.st = lsKeying → ∀ (peer : BitVec 17) (auth : Bool), ∃ t, exec (.linkKeyed port peer auth) s = .next t ∧
      t.pending = s.pending ∧
      (auth = true → debugOn s.dev = false → t.dev = { s.dev with fab := t.dev.fab, free := t.dev.free } ∧
        (getLink t.dev port.toNat).st = lsUp ∧ (getLink t.dev port.toNat).peer = peer.toNat ∧
        (getLink t.dev port.toNat).rxq = v.rxq ∧
        (∀ p, p ≠ port.toNat → getLink t.dev p = getLink s.dev p) ∧
        (v.txq = [] → (getLink t.dev port.toNat).credits = List.replicate 8 4096 ∧
          (getLink t.dev port.toNat).replay = [])) ∧
      (auth = false ∨ debugOn s.dev = true → (getLink t.dev port.toNat).st = lsDown)) ∧
    (v.st = lsDown → 4 ≤ bootStep s.dev →
      exec (.linkRetryTimer port) s = .next (s.withDev (putLink s.dev port.toNat { v with st := lsTraining }))) ∧
    (∀ lane : BitVec 3, v.st = lsUp → bit v.failed lane.toNat = false →
      ∃ t, exec (.laneFail port lane) s = .next t ∧ t.pending = s.pending ∧
        (bits (setBits v.failed lane.toNat 1 1) 0 4 = 0 ∨ bits (setBits v.failed lane.toNat 1 1) 4 4 = 0 →
          getLink t.dev port.toNat = { v with failed := setBits v.failed lane.toNat 1 1, degraded := true } ∧
          ∀ p, p ≠ port.toNat → getLink t.dev p = getLink s.dev p) ∧
        (bits (setBits v.failed lane.toNat 1 1) 0 4 ≠ 0 → bits (setBits v.failed lane.toNat 1 1) 4 4 ≠ 0 →
          (getLink t.dev port.toNat).st = lsDown)) ∧
    (v.st ≠ lsDown → ∃ t, exec (.linkDown port) s = .next t ∧ t.pending = s.pending ∧
      (getLink t.dev port.toNat).st = lsDown ∧ (getLink t.dev port.toNat).rxq = v.rxq) ∧
    (∀ flit : Flit, v.st = lsUp → s.dev.boot.quiesce = false →
      (badFlit v flit = true → ∃ t, exec (.flitReceive port flit) s = .next t ∧ t.pending = s.pending ∧
        t.dev = { s.dev with fab := t.dev.fab, regs := t.dev.regs } ∧
        (v.nonce + 1 < 2 ^ 40 → getLink t.dev port.toNat = { v with gap := true, nonce := v.nonce + 1 })) ∧
      (badFlit v flit = false → flit.ftype = 0 → ∃ t, exec (.flitReceive port flit) s = .next t ∧
        t.pending = s.pending ∧ (getLink t.dev port.toNat).rxNonce = some flit.nonce.toNat ∧
        (flit.seq.toNat = v.rxSeq →
          (getLink t.dev port.toNat).rxq = v.rxq ++
            (flit.msgs.takeWhile fun m => m.typ != 15).filter (fun m => (vcOf m.typ.toNat).isSome) ∧
          (getLink t.dev port.toNat).rxSeq = (v.rxSeq + 1) % 2 ^ 16 ∧ (getLink t.dev port.toNat).gap = false) ∧
        (flit.seq.toNat ≠ v.rxSeq → (getLink t.dev port.toNat).rxq = v.rxq ∧
          (getLink t.dev port.toNat).rxSeq = v.rxSeq))) ∧
    (∀ (seq : BitVec 16) (w : FabPort), w = ackUpTo v ((seq.toNat + 2 ^ 16 - 1) % 2 ^ 16) → v.st = lsUp →
      ∃ t, exec (.retryReq port seq) s = .next t ∧ t.pending = s.pending ∧
      (w.reqSeq = seq.toNat → 7 ≤ w.reqRun → (getLink t.dev port.toNat).st = lsTraining) ∧
      (w.reqSeq ≠ seq.toNat ∨ w.reqRun < 7 → (getLink t.dev port.toNat).st = lsUp ∧
        (getLink t.dev port.toNat).rxq = v.rxq ∧ (getLink t.dev port.toNat).reqSeq = seq.toNat ∧
        (getLink t.dev port.toNat).reqRun =
          if w.reqRun ≠ 0 ∧ w.reqSeq = seq.toNat then w.reqRun + 1 else 1)) ∧
    (v.st = lsUp → ∃ t, exec (.linkKeyEpoch port) s = .next t ∧ t.pending = s.pending ∧
      t.dev = { s.dev with fab := t.dev.fab } ∧ (getLink t.dev port.toNat).txEpoch = v.txEpoch + 1 ∧
      (getLink t.dev port.toNat).txKey = epochKey v.txKey (v.txEpoch + 1) ∧
      (v.txq = [] → (getLink t.dev port.toNat).nonce = 0))) ∧
  (∀ (v : D64) (s : State), ∃ t, exec (.routeEntryWrite v) s = .next t ∧ t.pending = s.pending ∧
    t.dev = { s.dev with fab := t.dev.fab } ∧ t.dev.fab.ports = s.dev.fab.ports ∧
    mapGet false t.dev.fab.sticky (regField s.dev aRtIndex 0 17) = false ∧
    ∀ i, routeEntry t.dev i = if i = regField s.dev aRtIndex 0 17 then
      BitVec.ofNat 32 (bits v 23 9 * 2 ^ 23 + bits v 0 17) else routeEntry s.dev i) ∧
  (∀ (port : BitVec 3) (m : Msg) (s : State) (p : Nat), hasId s.dev = true → m.dst.toNat ≠ devId s.dev →
    inTurn s.dev port.toNat m = true → 1 < m.ttl.toNat → routePort s.dev m.dst.toNat = some p →
    exec (.messageForward port m) s = .next (s.withDev (linkSend (takeRx s.dev port.toNat m) p true
      { m with ttl := m.ttl - 1, lane := m.lane || rtDateline (routeEntry s.dev m.dst.toNat) })))

/-- Inbound PUT, GET and ATOMIC act once per SEQ and are answered with their status; MSG reaches its mailbox; a
response completes the request with its TAG (R328, R334, R335, R336, R339, R340, R341, R345, R348). -/
def Obligations.FabricRequestsArePerformedOnce : Prop :=
  (∀ (port : BitVec 3) (m : Msg) (s : State),
    (mayPerform 0 s.dev port.toNat m = true →
      (dupOf s.dev m ≠ .fresh → ∃ t, exec (.putMessage port m) s = .next t ∧ t.pending = s.pending ∧
        t.dev = { s.dev with fab := t.dev.fab, funnel := t.dev.funnel, regs := t.dev.regs }) ∧
      (dupOf s.dev m = .fresh → m.data ≠ [] → m.data.length ≤ 512 →
        oneRegion m.addr.toNat m.data.length = true → ∀ st d,
        localWrite (takeRx s.dev port.toNat m) (2112 + port.toNat) 3 m.addr.toNat m.data = (st, d) →
        ∃ t, exec (.putMessage port m) s = .next t ∧ t.pending = s.pending ∧ t.dev.mem = d.mem ∧
          t.dev.slices = d.slices ∧ t.dev.cores = d.cores ∧
          (st = 0 → dupOf t.dev m = .duplicate) ∧ (st ≠ 0 → t.dev.fab.filters = s.dev.fab.filters))) ∧
    (mayPerform 1 s.dev port.toNat m = true → dupOf s.dev m ≠ .old → m.len ≠ 0 → m.len.toNat ≤ 512 →
      oneRegion m.addr.toNat m.len.toNat = true → ∀ st bs d,
      localRead (takeRx s.dev port.toNat m) (2112 + port.toNat) 3 m.addr.toNat m.len.toNat = ((st, bs), d) →
      exec (.getMessage port m) s = .next (s.withDev (answerReq d port.toNat m st (if st = 0 then bs else [])))) ∧
    (mayPerform 2 s.dev port.toNat m = true →
      (dupOf s.dev m ≠ .fresh → ∃ t, exec (.atomicMessage port m) s = .next t ∧ t.pending = s.pending ∧
        t.dev = { s.dev with fab := t.dev.fab, funnel := t.dev.funnel, regs := t.dev.regs }) ∧
      (dupOf s.dev m = .fresh → ∀ op ty, atomOpOf m.op.toNat = some op → ty = fieldAt m.data 0 1 →
        (atomTypes op).contains ty = true → m.data.length = 32 → m.addr.toNat % atomBytes ty = 0 →
        oneRegion m.addr.toNat (atomBytes ty) = true → ∀ r d,
        localAtomic (takeRx s.dev port.toNat m) (2112 + port.toNat) m.addr.toNat op ty (fieldAt m.data 8 8)
          (fieldAt m.data 16 8) = (r, d) →
        ∃ t, exec (.atomicMessage port m) s = .next t ∧ t.pending = s.pending ∧ t.dev.mem = d.mem ∧
          t.dev.slices = d.slices ∧ (r.1 = 0 → dupOf t.dev m = .duplicate))) ∧
    (m.typ = 3 → forMe s.dev m = true → inTurn s.dev port.toNat m = true → dupOf s.dev m = .fresh → m.data ≠ [] → m.data.length ≤ 512 →
      m.addr.toNat % 64 = 0 → ∃ t, exec (.msg port m) s = .next t ∧ t.pending = s.pending ∧ t.dev.mem = s.dev.mem ∧
        (mgrValid s.dev = true → managerId s.dev = m.src.toNat →
          getBox t.dev 0 = if (getBox s.dev 0).length < 16 then getBox s.dev 0 ++ [m] else getBox s.dev 0) ∧
        (¬ (mgrValid s.dev = true ∧ managerId s.dev = m.src.toNat) → getBox t.dev 0 = getBox s.dev 0)) ∧
    (∀ c k, (c = .completion port m ∧ k = 8 ∨ c = .getData port m ∧ k = 9 ∨ c = .atomicData port m ∧ k = 10) →
      forMe s.dev m = true → inTurn s.dev port.toNat m = true → m.typ = k → ∃ t, exec c s = .next t ∧ t.pending = s.pending ∧
        (findOut s.dev m.tag.toNat = none → t.dev.fab.discards = s.dev.fab.discards + 1 ∧ t.dev.mem = s.dev.mem ∧
          t.dev.slices = s.dev.slices)) ∧
    (∀ c k, (c = .reduce port m ∧ k = 4 ∨ c = .barrier port m ∧ k = 5) → forMe s.dev m = true →
      inTurn s.dev port.toNat m = true → m.typ = k →
      exec c s = .next (s.withDev (lovArrive (takeRx s.dev port.toNat m) port.toNat m)))) ∧
  (∀ (tag : BitVec 16) (s : State) (o : Out), findOut s.dev tag.toNat = some o →
    ∃ t, exec (.fabRequestTimeout tag) s = .next t ∧ t.pending = s.pending ∧
      (o.use = .notice → t.dev.fab.outs = s.dev.fab.outs.filter (fun x => x.tag != o.tag) ∧ t.dev.mem = s.dev.mem))

/-- Lovage contexts move FREE, OPEN, RUNNING, DONE and ERROR as R344 to R347 say; copy channels end their head
descriptor; the manager counts its members (R343, R344, R345, R346, R347, R351, R352, R380, R391, R457). -/
def Obligations.LovageEnginesAndMembersAct : Prop :=
  (∀ (ctx : BitVec 10) (s : State) (x : LovCtx), x = getCtx s.dev ctx.toNat →
    (∀ (w : BitVec 3) (v : D64), ∃ t, exec (.lovageContextWrite ctx w v) s = .next t ∧ t.pending = s.pending ∧
      (lcState x = 0 → t.dev = putCtx s.dev ctx.toNat { x with
        image := (x.image &&& ~~~lcRwMask) ||| (setBits x.image (64 * w.toNat) 64 v.toNat &&& lcRwMask) }) ∧
      (lcState x ≠ 0 → t.dev.lov = s.dev.lov ∧
        Logged s.dev t.dev (src 8 1) 5 0x02 (aLovCtx ctx.toNat + 8 * w.toNat) v.toNat 0)) ∧
    (∃ t, exec (.lovageOpen ctx) s = .next t ∧ t.pending = s.pending ∧
      (lcState x ≠ 0 → t.dev.lov = s.dev.lov ∧ regField t.dev aLovCmd 60 3 = 2) ∧
      (lcState x = 0 → lcType x = 3 ∨ lcOp x = 3 ∨ lcWindow x = 0 ∨ 4096 < lcWindow x ∨ lcSrc x % 128 ≠ 0 ∨
          lcDst x % 128 ≠ 0 → t.dev.lov = s.dev.lov ∧ regField t.dev aLovCmd 60 3 = 3) ∧
      (lcState x = 0 → lcType x < 3 → lcOp x < 3 → 1 ≤ lcWindow x → lcWindow x ≤ 4096 → lcSrc x % 128 = 0 →
        lcDst x % 128 = 0 → storeUsed s.dev + lcWindow x * ((lcChildren x).length + 1) * 512 ≤ 2 ^ 24 →
        regField t.dev aLovCmd 60 3 = 0 ∧
        lcState (getCtx t.dev ctx.toNat) = if (lcChildren x).all (edgeUp s.dev) then lcOpen else lcError)) ∧
    (∃ t, exec (.lovageStart ctx) s = .next t ∧ t.pending = s.pending ∧
      (lcState x = lcOpen ∨ lcState x = lcDone → regField t.dev aLovCmd 60 3 = 0 ∧
        (isBarrier x = false → getCtx t.dev ctx.toNat = setImg (setImg x 509 3 lcRunning) 432 32 0)) ∧
      (lcState x ≠ lcOpen → lcState x ≠ lcDone → regField t.dev aLovCmd 60 3 = 2 ∧ t.dev.lov = s.dev.lov)) ∧
    (∃ t, exec (.lovageClose ctx) s = .next t ∧ t.pending = s.pending ∧
      (lcState x = lcOpen ∨ lcState x = lcDone ∨ lcState x = lcError → regField t.dev aLovCmd 60 3 = 0 ∧
        lcState (getCtx t.dev ctx.toNat) = lcFree ∧ lcProgress (getCtx t.dev ctx.toNat) = 0 ∧
        lcGen (getCtx t.dev ctx.toNat) = 0 ∧ ∀ c, c ≠ ctx.toNat → getCtx t.dev c = getCtx s.dev c) ∧
      (lcState x = lcFree ∨ lcState x = lcRunning → regField t.dev aLovCmd 60 3 = 2 ∧ t.dev.lov = s.dev.lov)) ∧
    (∃ t, exec (.lovageAbort ctx) s = .next t ∧ t.pending = s.pending ∧
      (lcState x = lcOpen ∨ lcState x = lcRunning → regField t.dev aLovCmd 60 3 = 0 ∧
        lcState (getCtx t.dev ctx.toNat) = lcError ∧ bits (getCtx t.dev ctx.toNat).image 505 4 = 8 ∧
        ∀ c, c ≠ ctx.toNat → getCtx t.dev c = getCtx s.dev c) ∧
      (lcState x ≠ lcOpen → lcState x ≠ lcRunning → regField t.dev aLovCmd 60 3 = 2 ∧ t.dev.lov = s.dev.lov)) ∧
    (lcState x = lcRunning → lcTimeout x ≠ 0 → ∃ t, exec (.lovageTimeout ctx) s = .next t ∧ t.pending = s.pending ∧
      lcState (getCtx t.dev ctx.toNat) = lcError ∧ bits (getCtx t.dev ctx.toNat).image 505 4 = 8 ∧
      t.dev.mem = s.dev.mem) ∧
    (∀ chunk : Word, chunkReady x chunk.toNat = true → lcLocal x = false → lcHasParent x = false →
      ∀ ws, lovFold x ((lcChildren x).map fun p =>
          match (mapGet emptyChunk x.chunks chunk.toNat).kids.find? fun e => decide (e.1 = p) with
          | some e => e.2
          | none => []) = some ws →
      exec (.lovageChunkComplete ctx chunk) s =
        .next (s.withDev (deliverResult s.dev ctx.toNat chunk.toNat (lovBytes x ws)))) ∧
    (x.armed = true → x.auto = false → lcState x = lcOpen ∨ lcState x = lcDone →
      signalReached s.dev x.startSig x.startVal = true → isBarrier x = false →
      ∃ t, exec (.treeGenerationStart ctx) s = .next t ∧ t.pending = s.pending ∧
        lcState (getCtx t.dev ctx.toNat) = lcRunning ∧ (getCtx t.dev ctx.toNat).armed = false)) ∧
  (∀ (e : BitVec 6) (s : State) (v : Engine), v = getEngine s.dev e.toNat →
    (∀ c, v.descs = [c] → v.halted = false → c.status ≠ 0 ∨ c.len ≤ c.off →
      ∃ t, exec (.copyDescriptorComplete e) s = .next t ∧ t.pending = s.pending ∧
        (getEngine t.dev e.toNat).descs = [] ∧ t.dev.mem = s.dev.mem ∧
        (getEngine t.dev e.toNat).halted = decide (c.status = 5 ∨ c.status = 8 ∨ c.status = 9 ∨ c.status = 10)) ∧
    (v.halted = true → ∃ t, exec (.copyChannelRestart e) s = .next t ∧ t.pending = s.pending ∧
      (getEngine t.dev e.toNat).halted = false ∧ (v.descs = [] → (getEngine t.dev e.toNat).descs = []))) ∧
  (∀ s : State, mgrValid s.dev = true → isWorker s.dev = true ∨ isManager s.dev = true →
    ∃ t, exec .heartbeatSend s = .next t ∧ t.pending = s.pending ∧ t.dev.fab.beats = s.dev.fab.beats + 1 ∧
      t.dev.mem = s.dev.mem) ∧
  (∀ (member : BitVec 17) (s : State) (x : Member), isManager s.dev = true → x ∈ s.dev.fab.members →
    x.id = member.toNat → x.lost = false →
    ∃ t, exec (.memberHeartbeatTimeout member) s = .next t ∧ t.pending = s.pending ∧
      t.dev.fab.members = s.dev.fab.members.map fun k => if k.id = member.toNat then { k with lost := true } else k) ∧
  (∀ (id : Nat) (s : State) (f : Fan), getFan s.dev id = some f →
    ∃ t, exec (.fanoutTimeout id) s = .next t ∧ t.pending = s.pending ∧ getFan t.dev id = none ∧ t.dev.mem = s.dev.mem)

/-- An SCI command is admitted, checked, answered or fanned out, and a response reaches its session's port (R362,
R365, R371, R372, R376, R379, 12_host_ports_and_command_interface.md Table 12.10). -/
def Obligations.CommandsAreAdmittedAndAnswered : Prop :=
  (∀ (d e : Dev) (q : SciReq) (op : Nat) (o : Bool) (r : Resp), admitReq d q op o = some (r, e) →
    e = { d with hpt := e.hpt, fab := e.fab, regs := e.regs } ∧ e.fab = { d.fab with boxes := e.fab.boxes } ∧
    (∀ a, (∀ p, a ≠ aHptStatus p) → regGet e a = regGet d a) ∧
    r.origin = q.origin ∧ r.opcode = op ∧ r.seq = q.seq ∧ r.tag = q.tag ∧ r.order = o) ∧
  (∀ (op : Nat) (o : Bool) (q : SciReq) (f : Resp → Dev → Dev) (d : Dev),
    (mayBegin d q op o = false → sci op o q f d = none) ∧
    ∀ r e, mayBegin d q op o = true → admitReq d q op o = some (r, e) →
      (∀ st, headerStatus e q op r = some st → sci op o q f d = some (respond e r st [])) ∧
      (headerStatus e q op r = none → q.target = 0 → sci op o q f d = some (f r e)) ∧
      (headerStatus e q op r = none → q.target ≠ 0 → ¬ (op = 3 ∧ q.target = 2) →
        sci op o q f d = some (startFan e q op r))) ∧
  (∀ (d : Dev) (q : SciReq) (op : Nat), (∃ r ∈ outstanding d, r.order = true) → mayBegin d q op true = false) ∧
  (∀ (d : Dev) (q : SciReq) (op : Nat) (sn : BitVec 16) (m : BitVec 6) (k : Nat × Nat) (ks : List (Nat × Nat)),
    q.origin = .host sn m → d.hpt.heads = k :: ks → k ≠ (sn.toNat, m.toNat) → (sn.toNat, m.toNat) ∈ ks →
    serialHead d k = true → mayBegin d q op true = false) ∧
  (∀ (d : Dev) (r : Resp) (sn : BitVec 16) (m : BitVec 6) (v : Session) (status : Nat) (data : List Byte),
    r.origin = .host sn m → getSession d sn.toNat = some v →
    v.txCnt + (responseFrames d r m.toNat status (selfHeader d status ++ data)).length ≤ lastCount →
    ∃ fs : List TxFrame, ∃ w : Session, fs ≠ [] ∧
      respond d r status data = { d with hpt := (respond d r status data).hpt } ∧
      (getHost (respond d r status data) r.port).txq = (getHost d r.port).txq ++
        (fs.zip (List.range fs.length)).map (fun e => packet d r.port (some (frameNonce (v.txCnt + e.2))) e.1) ∧
      (∀ p, p ≠ r.port → getHost (respond d r status data) p = getHost d p) ∧
      (∀ n, n ≠ sn.toNat → getSession (respond d r status data) n = getSession d n) ∧
      getSession (respond d r status data) sn.toNat = some w ∧ w.txCnt = v.txCnt + fs.length ∧
      (fs.map (·.payload)).flatten = resultHeader (b2n (status == 0))
        (if status = 0 then none else some (devId d, status)) 0 ++ data ∧
      (∀ i f, fs[i]? = some f → f.session = sn.toNat ∧ f.source = r.source ∧ f.clear = false ∧ f.event = false ∧
        f.more = decide (i + 1 < fs.length) ∧ f.opcode = r.opcode ∧ f.status = status ∧ f.mailbox = m.toNat ∧
        f.seq = r.seq ∧ f.tag = r.tag ∧ f.alive = BitVec.ofNat 16 (v.txCnt + i) ∧
        f.payload.length ≤ maxPay d r.port) ∧
      (∃ x, (hostStream w m.toNat).resps.getLast? = some (r.seq.toNat, x) ∧ x.map (·.payload) = fs.map (·.payload)) ∧
      (hostStream w m.toNat).resps.length ≤ 64 ∧
      (hostStream w m.toNat).next = (hostStream v m.toNat).next)

/-- Frames are examined in order, handshakes open sessions and every end of a session ends what it owns (R358,
R360, R361, R365, R366, R367, R368, R369, R370, R371, R498). -/
def Obligations.HostPortsAndSessionsAct : Prop :=
  (∀ (p : BitVec 1) (f : Frame) (s : State), s.dev.boot.quiesce = false →
    listening s.dev p.toNat = true ∨ (getHost s.dev p.toNat).link = true →
    ∃ t, exec (.frameReceive p f) s = .next t ∧ PortsOnly s t ∧
      (∀ a, a ≠ aHptStatus p.toNat → regGet t.dev a = regGet s.dev a) ∧
      (listening s.dev p.toNat = true → t = s) ∧
      (listening s.dev p.toNat = false → (getHost s.dev p.toNat).rxbuf = [] →
        (getHost s.dev p.toNat).xfers.length < 64 → f.bytes ≤ 2 * 2 ^ 20 →
        (getHost t.dev p.toNat).rxbuf = [] ∧
        (askedAddr s.dev p.toNat f = none → wireOk s.dev p.toNat f = false ∨ (f.version = 1 ∧ f.reserved = true ∧ f.clear = false ∧
            (getSession s.dev f.session.toNat = none ∨ 8192 < f.payload ∨ f.length.toNat ≠ f.payload ∨
              ∃ x, getSession s.dev f.session.toNat = some x ∧ f.tagOk = true ∧ 0 ≤ rebuild x.high f.alive.toNat ∧
                (rebuild x.high f.alive.toNat).toNat ≤ lastCount ∧
                repeated x (rebuild x.high f.alive.toNat).toNat = true)) →
          regField t.dev (aHptStatus p.toNat) 0 16 = min (regField s.dev (aHptStatus p.toNat) 0 16 + 1) 65535 ∧
          t.dev.hpt.boxes = s.dev.hpt.boxes ∧ t.dev.hpt.sessions = s.dev.hpt.sessions) ∧
        (∀ x, wireOk s.dev p.toNat f = true → f.version = 1 → f.reserved = true → f.clear = false →
          getSession s.dev f.session.toNat = some x → f.length.toNat = f.payload → f.payload ≤ 8192 →
          (f.tagOk = false →
            regField t.dev (aHptStatus p.toNat) 16 16 = min (regField s.dev (aHptStatus p.toNat) 16 16 + 1) 65535 ∧
            t.dev.hpt.boxes = s.dev.hpt.boxes ∧ t.dev.hpt.sessions = s.dev.hpt.sessions) ∧
          (f.tagOk = true → 0 ≤ rebuild x.high f.alive.toNat → (rebuild x.high f.alive.toNat).toNat ≤ lastCount →
            repeated x (rebuild x.high f.alive.toNat).toNat = false →
            f.seq.toNat = (hostStream x f.mailbox.toNat).next → f.opcode.toNat ∈ opcodes →
            f.opcode ≠ 0x10 → f.opcode ≠ 0x11 → (getHmb s.dev f.mailbox.toNat).length < 16 →
            getHmb t.dev f.mailbox.toNat = getHmb s.dev f.mailbox.toNat ++ [(p.toNat, f)] ∧
            regGet t.dev (aHptStatus p.toNat) = regGet s.dev (aHptStatus p.toNat) ∧
            ∃ y, getSession t.dev f.session.toNat = some y ∧ y.port = p.toNat ∧ y.source = f.source ∧
              repeated y (rebuild x.high f.alive.toNat).toNat = true ∧
              (hostStream y f.mailbox.toNat).next = f.seq.toNat + 1 ∧
              (hostStream y f.mailbox.toNat).resps = (hostStream x f.mailbox.toNat).resps)))) ∧
  (∀ (p : BitVec 1) (s : State), ∃ t, exec (.wakeFrame p) s = .next t ∧ PortsOnly s t ∧
    ∀ n, getHost t.dev n = if n = p.toNat ∧ listening s.dev n = true ∧ hpWakeEn s.dev n = true then
      { getHost s.dev n with wakes := (getHost s.dev n).wakes + 1 } else getHost s.dev n) ∧
  (∀ (p : BitVec 1) (k : BitVec 3) (x : Bool) (s : State), ∃ t, exec (.pfcPause p k x) s = .next t ∧ PortsOnly s t ∧
    ∀ n, getHost t.dev n = if n = p.toNat ∧ hpPfcEn s.dev n = true ∧ k.toNat = hpPrio s.dev n then
      { getHost s.dev n with paused := x } else getHost s.dev n) ∧
  (∀ (p : BitVec 1) (h : Hello) (s : State), listening s.dev p.toNat = false → (getHost s.dev p.toNat).link = true →
    ∃ t fs, exec (.sessionHello p h) s = .next t ∧ t.pending = s.pending ∧ t.dev.mem = s.dev.mem ∧
      t.dev.hpt.sessions = s.dev.hpt.sessions ∧ t.dev.regs = s.dev.regs ∧ fs ≠ [] ∧
      (getHost t.dev p.toNat).txq = (getHost s.dev p.toNat).txq ++ fs ∧
      (∀ f ∈ fs, f = packet s.dev p.toNat none f.frame ∧ f.frame.clear = true ∧ f.frame.session = 0 ∧
        f.frame.opcode = 1 ∧ f.frame.source = h.source) ∧
      (∀ st, (st = 0x01 ∧ h.version ≠ 1) ∨ (h.version = 1 ∧ ((st = 0x04 ∧ debugOn s.dev = true) ∨
          (debugOn s.dev = false ∧ ((st = 0x03 ∧ (h.idleS = 0 ∨ 3600 < h.idleS.toNat)) ∨
            (st = 0x08 ∧ h.idleS ≠ 0 ∧ h.idleS.toNat ≤ 3600 ∧ 4 ≤ s.dev.hpt.shakes.length))))) →
        fs.map (·.frame.status) = [st] ∧ t.dev.hpt.shakes = s.dev.hpt.shakes) ∧
      (h.version = 1 → debugOn s.dev = false → h.idleS ≠ 0 → h.idleS.toNat ≤ 3600 → s.dev.hpt.shakes.length < 4 →
        ∃ (k : Handshake) (first : List Byte), t.dev.hpt.shakes = s.dev.hpt.shakes ++ [k] ∧
          k.id = s.dev.hpt.nextShake ∧ k.port = p.toNat ∧ k.source = h.source ∧ k.keyId = h.keyId ∧
          k.idleS = h.idleS.toNat ∧ k.t1 = sha3 (helloBytes h ++ first) ∧ k.sign = signT1 s.dev k.t1 ∧
          (fs.map (·.frame.payload)).flatten = first ++ k.sign ∧
          ∀ i f, fs[i]? = some f → f.frame.status = 0 ∧ f.frame.seq = BitVec.ofNat 64 i ∧
            f.frame.more = decide (i + 1 < fs.length))) ∧
  (∀ (p : BitVec 1) (h : Finish) (s : State) (k : Handshake), listening s.dev p.toNat = false →
    (getHost s.dev p.toNat).link = true →
    (s.dev.hpt.shakes.find? fun x => decide (x.id = h.handshake)) = some k →
    ∃ t, exec (.sessionFinish p h) s = .next t ∧ t.pending = s.pending ∧ t.dev.mem = s.dev.mem ∧
      t.dev.regs = s.dev.regs ∧ t.dev.hpt.shakes = s.dev.hpt.shakes.filter (fun x => decide (x.id ≠ h.handshake)) ∧
      (h.sigOk = false ∨ debugOn s.dev = true ∨ h.digest ≠ k.keyId ∨ s.dev.flash.owners = none →
        t.dev.hpt.sessions = s.dev.hpt.sessions ∧ ((getHost t.dev p.toNat).txq.map (·.frame.status)) =
          (getHost s.dev p.toNat).txq.map (·.frame.status) ++ [0x04]) ∧
      (∀ l, h.sigOk = true → debugOn s.dev = false → h.digest = k.keyId → s.dev.flash.owners = some l →
        h.digest ∈ l → s.dev.hpt.sessions.length < 16 →
        ∃ sn y, sn ≠ 0 ∧ sn < 2 ^ 16 ∧ getSession s.dev sn = none ∧ getSession t.dev sn = some y ∧
          y.idleS = k.idleS ∧ y.port = p.toNat ∧ y.source = h.source ∧ y.high = none ∧ y.streams = [] ∧ y.txCnt = 1 ∧
          y.h2d.toNat = bytesNat ((natBytes 64 (handK k h.pubKey).toNat).take 32) ∧
          y.d2h.toNat = bytesNat ((natBytes 64 (handK k h.pubKey).toNat).drop 32) ∧
          (∀ n, n ≠ sn → getSession t.dev n = getSession s.dev n) ∧
          (getHost t.dev p.toNat).txq.map (fun f => (f.frame.session, f.frame.status)) =
            (getHost s.dev p.toNat).txq.map (fun f => (f.frame.session, f.frame.status)) ++ [(sn, 0)])) ∧
  (∀ (id : Nat) (s : State) (k : Handshake), k ∈ s.dev.hpt.shakes → k.id = id →
    ∃ t, exec (.handshakeTimeout id) s = .next t ∧ t.pending = s.pending ∧
      t.dev = { s.dev with hpt := { s.dev.hpt with shakes := s.dev.hpt.shakes.filter fun x => decide (x.id ≠ id) } }) ∧
  (∀ (n : BitVec 16) (s : State) (x : Session), getSession s.dev n.toNat = some x →
    ∀ c, c = .sessionIdleTimeout n ∨
      (c = .frameCounterLimit n ∧ (x.txCnt = lastCount ∨ x.high = some lastCount)) →
    ∃ t, exec c s = .next t ∧ t.pending = s.pending ∧ SessionEnded s.dev t.dev n.toNat) ∧
  (∀ (q : SciReq) (s : State) (r : Resp) (d : Dev) (sn : BitVec 16) (m : BitVec 6), Accepted s q 0x01 true r d →
    q.origin = .host sn m →
    ∃ t, exec (.sessionClose q) s = .next t ∧ t.pending = s.pending ∧ SessionEnded (respond d r 0 []) t.dev sn.toNat) ∧
  (∀ (p : BitVec 1) (s : State),
    ((getHost s.dev p.toNat).link = true → ∃ t, exec (.hostPortLinkDown p) s = .next t ∧ PortsOnly s t ∧
      ∀ n, getHost t.dev n = if n = p.toNat then { getHost s.dev n with link := false } else getHost s.dev n) ∧
    ((getHost s.dev p.toNat).link = false → listening s.dev p.toNat = false →
      ∃ t, exec (.hostPortLinkUp p) s = .next t ∧ PortsOnly s t ∧
        ∀ n, getHost t.dev n = if n = p.toNat then { getHost s.dev n with link := true } else getHost s.dev n))

/-- Queues open and close, LAUNCH appends items, items start in turn and complete, and WAITs follow signals (R379,
R380, R386, R387, R388, R389, R390, R393, 12_host_ports_and_command_interface.md Table 12.13,
12_host_ports_and_command_interface.md Table 12.15). -/
def Obligations.WorkQueuesLaunchAndComplete : Prop :=
  (∀ (q : SciReq) (n : BitVec 16) (k : Word) (a b : D64) (s : State) (r : Resp) (d : Dev),
    Accepted s q 0x1A true r d →
    (4096 ≤ n.toNat ∨ (∀ j, j ≤ 16 → k.toNat ≠ 2 ^ j) ∨ k.toNat < 16 ∨ a.toNat % 128 ≠ 0 ∨ b.toNat % 32 ≠ 0 ∨
        overlap a.toNat (k.toNat * 128) b.toNat (k.toNat * 32) = true →
      Answers (.wqOpen q n k a b) s d r 0x03 []) ∧
    (∀ j, n.toNat < 4096 → k.toNat = 2 ^ j → 4 ≤ j → j ≤ 16 → a.toNat % 128 = 0 → b.toNat % 32 = 0 →
      overlap a.toNat (k.toNat * 128) b.toNat (k.toNat * 32) = false →
      (∀ e ∈ d.disp.queues, ∀ v, e.1 ≠ n.toNat → e.2 = some v → ∀ x ∈ ringsOf v,
        overlap a.toNat (k.toNat * 128) x.1 x.2 = false ∧ overlap b.toNat (k.toNat * 32) x.1 x.2 = false) →
      ((getQueue d n.toNat).isSome → Answers (.wqOpen q n k a b) s d r 0x08 []) ∧
      (getQueue d n.toNat = none →
        (inDevice a.toNat (k.toNat * 128) = false ∨ inDevice b.toNat (k.toNat * 32) = false →
          Answers (.wqOpen q n k a b) s d r 0x0B []) ∧
        (inDevice a.toNat (k.toNat * 128) = true → inDevice b.toNat (k.toNat * 32) = true →
          ∀ e, checkPages d (pagesOf a.toNat (k.toNat * 128) ++ pagesOf b.toNat (k.toNat * 32)) = (0, e) →
          Answers (.wqOpen q n k a b) s (putQueue e n.toNat (some {
            entries := k.toNat, itemRing := a.toNat, compRing := b.toNat, nextItem := 0, comps := 0, items := [] }))
            r 0 [])))) ∧
  (∀ (q : SciReq) (n : BitVec 16) (s : State) (r : Resp) (d : Dev), Accepted s q 0x1A true r d →
    (getQueue d n.toNat = none → Answers (.wqClose q n) s d r 0x15 []) ∧
    ∀ v, getQueue d n.toNat = some v → (v.items ≠ [] → Answers (.wqClose q n) s d r 0x08 []) ∧
      (v.items = [] → Answers (.wqClose q n) s (putQueue d n.toNat none) r 0 [])) ∧
  (∀ (q : SciReq) (l : Launch) (s : State) (r : Resp) (d : Dev), Accepted s q 0x20 false r d →
    (mapGet none d.disp.modules l.module.toNat = none → Answers (.launch q l) s d r 0x13 []) ∧
    (∀ m v, mapGet none d.disp.modules l.module.toNat = some m → getQueue d l.queue.toNat = some v →
      GoodLaunch d l m → v.items.length < v.entries →
      ∀ e, writeDev d 7 (v.itemRing + 128 * (v.nextItem % v.entries)) (launchBytes l) = (0, e) →
      Answers (.launch q l) s (putQueue e l.queue.toNat (some { v with
        nextItem := v.nextItem + 1,
        items := v.items ++ [{
          item := v.nextItem, launch := l, begun := false, parts := [], session := sessionOf q.origin, fault := none,
          faulted := 0, redisp := 0, abort := none }] })) r 0
        (natBytes 2 l.queue.toNat ++ natBytes 6 0 ++ natBytes 8 v.nextItem)) ∧
    (∀ m, mapGet none d.disp.modules l.module.toNat = some m → GoodLaunch d l m →
      getQueue d l.queue.toNat = none ∨ (∃ v, getQueue d l.queue.toNat = some v ∧ v.entries ≤ v.items.length) →
      Answers (.launch q l) s d r 0x15 [])) ∧
  (∀ (q : SciReq) (i : BitVec 16) (add : Bool) (v : D64) (s : State) (r : Resp) (d : Dev),
    Accepted s q 0x21 false r d →
    (i.toNat = 0xFFFF → Answers (.signal q i add v) s d r 0x03 []) ∧
    ∀ w, i.toNat ≠ 0xFFFF → w = (if add then getSignal d i.toNat + v else v) →
      ∃ e, Answers (.signal q i add v) s e r 0 (natBytes 8 w.toNat) ∧
        (∀ k, getSignal e k = if k = i.toNat then w else getSignal d k) ∧
        e.disp.waits = d.disp.waits.filter (fun x => decide (x.index ≠ i.toNat ∨ w.toNat < x.value.toNat)) ∧
        e.mem = d.mem ∧ e.disp.queues = d.disp.queues) ∧
  (∀ (q : SciReq) (i : BitVec 16) (us : Word) (v : D64) (s : State) (r : Resp) (d : Dev),
    Accepted s q 0x22 false r d →
    (i.toNat = 0xFFFF → Answers (.wait q i us v) s d r 0x03 []) ∧
    (i.toNat ≠ 0xFFFF →
      (v.toNat ≤ (getSignal d i.toNat).toNat →
        Answers (.wait q i us v) s d r 0 (natBytes 8 (getSignal d i.toNat).toNat)) ∧
      ((getSignal d i.toNat).toNat < v.toNat → us = 0 →
        Answers (.wait q i us v) s d r 0x1A (natBytes 8 (getSignal d i.toNat).toNat)) ∧
      ((getSignal d i.toNat).toNat < v.toNat → us ≠ 0 → 4096 ≤ d.disp.waits.length →
        Answers (.wait q i us v) s d r 0x08 []) ∧
      ((getSignal d i.toNat).toNat < v.toNat → us ≠ 0 → d.disp.waits.length < 4096 →
        exec (.wait q i us v) s = .next (s.withDev { d with disp := { d.disp with
          nextWait := d.disp.nextWait + 1,
          waits := d.disp.waits ++ [{ id := d.disp.nextWait, resp := r, index := i.toNat, value := v }] } })))) ∧
  (∀ (id : Nat) (s : State) (w : PendWait), (s.dev.disp.waits.find? fun x => decide (x.id = id)) = some w →
    Answers (.waitTimeout id) s { s.dev with disp := { s.dev.disp with
        waits := s.dev.disp.waits.filter fun x => x.id != id } } w.resp 0x1A
      (natBytes 8 (getSignal s.dev w.index).toNat)) ∧
  (∀ (n : BitVec 12) (s : State) (v : Queue) (w : WorkItem) (pre post : List WorkItem) (cs : List Nat),
    isReady s.dev = true → nextQueue s.dev = some n.toNat → getQueue s.dev n.toNat = some v →
    v.items = pre ++ w :: post → (∀ u ∈ pre, u.begun = true) → w.begun = false →
    (∀ u, pre.getLast? = some u → lfSerial w.launch = false ∧ ∀ x ∈ u.parts, x.st ≠ .waiting) →
    w.launch.gate.toNat = 0xFFFF ∨ w.launch.gateVal.toNat ≤ (getSignal s.dev w.launch.gate.toNat).toNat →
    cs = (if lfAllCores w.launch then enabledCores s.dev
      else ((enabledCores s.dev).drop w.launch.coreFirst.toNat).take w.launch.coreCount.toNat) →
    ∃ t ps, exec (.workItemStart n) s = .next t ∧ t.pending = s.pending ∧ t.dev.mem = s.dev.mem ∧
      t.dev.disp.rot = (n.toNat + 1) % 4096 ∧ ps.map (·.core) = cs ∧ ps.map (·.index) = List.range cs.length ∧
      (∀ p ∈ ps, p.st = .waiting ∧ p.redisp = 0) ∧
      (lfAllCores w.launch = true ∨ cs.length = w.launch.coreCount.toNat →
        getItem t.dev n.toNat w.item = some { w with begun := true, parts := ps, abort := none }) ∧
      (∀ c ∈ cs, (getCluster s.dev (c / 32)).st = .sleep → (getCluster t.dev (c / 32)).st = .waking) ∧
      ∀ k, k ≠ n.toNat → getQueue t.dev k = getQueue s.dev k) ∧
  (∀ (n : BitVec 12) (i : Nat) (s : State) (v : Queue) (w : WorkItem), isReady s.dev = true →
    getQueue s.dev n.toNat = some v → getItem s.dev n.toNat i = some w → w.begun = true →
    (∀ p ∈ w.parts, p.st = .ended) →
    ∃ t x, exec (.workItemComplete n i) s = .next t ∧ t.pending = s.pending ∧
      x = putQueue s.dev n.toNat (some { v with comps := v.comps + 1, items := v.items.filter fun y => y.item != i }) ∧
      getQueue t.dev n.toNat = getQueue x n.toNat ∧
      t.dev.mem = (writeDev x 7 (v.compRing + 32 * (v.comps % v.entries))
        (natBytes 8 w.launch.tag.toNat ++ natBytes 8 i ++ natBytes 2 n.toNat ++
          (match w.abort, w.fault with
            | some c, _ => natBytes 1 0x19 ++ natBytes 1 0 ++ natBytes 2 c
            | none, some f => natBytes 1 0x20 ++ natBytes 1 f.1 ++ natBytes 2 f.2
            | none, none => natBytes 4 0) ++
          natBytes 2 w.faulted ++ natBytes 2 w.redisp ++ natBytes 5 0 ++
          natBytes 1 ((v.comps / v.entries + 1) % 2))).2.mem ∧
      ∀ k, getSignal t.dev k = if k = w.launch.done.toNat ∧ k ≠ 0xFFFF then getSignal s.dev k + 1 else getSignal s.dev k)

/-- The funnel takes the next record of the lowest source, the flash log keeps it, and injection is armed (R451,
R453, R459, R448, R384). -/
def Obligations.RecordsReachTheFunnelAndFlash : Prop :=
  (∀ (s : State) (k : Nat) (r : ErrRec) (rs : List ErrRec) (rest : List (Nat × List ErrRec)),
    s.dev.funnel.srcq = (k, r :: rs) :: rest →
    ∃ t x, exec .funnelAccept s = .next t ∧ t.pending = s.pending ∧
      x = { r with flags := r.flags &&& 0x3F, seq := BitVec.ofNat 64 s.dev.funnel.seq, usec := regGet s.dev aUsec } ∧
      mapGet [] t.dev.funnel.srcq k = rs ∧
      (∀ j, j ≠ k → mapGet [] t.dev.funnel.srcq j = mapGet [] s.dev.funnel.srcq j) ∧
      t.dev.funnel.seq = s.dev.funnel.seq + 1 ∧ (s.dev.funnel.seq % 1024, x) ∈ t.dev.funnel.ring ∧
      t.dev.funnel.flashq = s.dev.funnel.flashq ++
        (if regField s.dev aErrCfg 52 2 ≤ recSeverity r ∨ s.dev.boot.quiesce = true ∨ (r.cls = 0 ∧ r.code = 0x0605)
         then [x] else []) ∧
      t.dev.funnel.escq = s.dev.funnel.escq ++
        (if mgrValid s.dev = true ∧ escMin s.dev ≤ recSeverity r then [x] else []) ∧
      (∀ a, a ≠ aAlertCfg → regGet t.dev a = regGet s.dev a) ∧ t.dev.mem = s.dev.mem ∧ t.dev.flash = s.dev.flash ∧
      (r.cls ≠ 1 → t.dev.cores = s.dev.cores) ∧
      (∀ g, r.cls = 1 → r.source.toNat = k → k < 2048 → (∀ y ∈ rs, y.cls ≠ 1) →
        getGroup (getCore s.dev k) (bits r.loc2 27 5) = some g → g.hold = some .record →
        (∀ i, i < 32 → (laneOf g i).st = .exited) →
        getGroup (getCore t.dev k) (bits r.loc2 27 5) = none) ∧
      (recSeverity r < regField s.dev aErrCfg 56 2 → t.dev.hpt = s.dev.hpt)) ∧
  (∀ (s : State) (r : ErrRec) (rs : List ErrRec), s.dev.funnel.flashq = r :: rs → s.dev.flash.log.length ≤ 512 →
    ∃ t, exec .flashLogCopy s = .next t ∧ t.pending = s.pending ∧
      t.dev = { s.dev with funnel := { s.dev.funnel with flashq := rs }, flash := t.dev.flash } ∧
      t.dev.flash = { s.dev.flash with log := t.dev.flash.log } ∧ t.dev.flash.log.length ≤ 512 ∧
      ∃ old, s.dev.flash.log ++ [{ r with flags := r.flags ||| 0x20 }] = old ++ t.dev.flash.log ∧ old.length ≤ 1) ∧
  (∀ (v : D64) (s : State),
    (bit (regGet s.dev aErrInject) 62 = true → exec (.errInjectArm v) s = .next s) ∧
    (bit (regGet s.dev aErrInject) 62 = false → ∃ t, exec (.errInjectArm v) s = .next t ∧ RegsOnly s t ∧
      (∀ a, a ≠ aErrInject → regGet t.dev a = regGet s.dev a) ∧
      regField t.dev aErrInject 56 4 = bits v 56 4 ∧ regField t.dev aErrInject 32 11 = bits v 32 11 ∧
      bit (regGet t.dev aErrInject) 55 = bit v 55 ∧
      (bit v 63 = false → bit (regGet t.dev aErrInject) 62 = false ∧ t.dev.funnel = s.dev.funnel) ∧
      (bit v 63 = true → bits v 56 4 < 7 →
        bits v 56 4 ≠ 4 ∨ (bits v 32 11 ≤ 31 ∧ protectedMode s.dev = true) →
        bit (regGet t.dev aErrInject) 62 = true ∧ t.dev.funnel = s.dev.funnel) ∧
      (bit v 63 = true →
        7 ≤ bits v 56 4 ∨ (bits v 56 4 = 4 ∧ (31 < bits v 32 11 ∨ protectedMode s.dev = false)) →
        bit (regGet t.dev aErrInject) 62 = false ∧ Logged s.dev t.dev (src 8 1) 5 0x02 aErrInject v.toNat 0)))

/-- A fenced core leaves the core map with its tasks redispatched or ended, and check-value units follow their
stream (R460, R461, R462, R463, R464, R466, R467, R468, R469). -/
def Obligations.CoresAreFencedAndCheckUnitsCount : Prop :=
  (∀ (n : BitVec 11) (hw : Bool) (s : State),
    (coreFenced s.dev n.toNat = true → exec (.coreFenceStart n hw) s = .next s) ∧
    (coreFenced s.dev n.toNat = false → ∃ t, exec (.coreFenceStart n hw) s = .next t ∧ t.pending = s.pending ∧
      t.dev = { s.dev with cores := t.dev.cores, reqs := t.dev.reqs, flash := t.dev.flash } ∧
      (getCore t.dev n.toNat) = { getCore s.dev n.toNat with fencing := true } ∧
      (∀ k, k ≠ n.toNat → getCore t.dev k = getCore s.dev k) ∧
      ((getCore s.dev n.toNat).fencing = false → ∀ q, q ∈ t.dev.reqs ↔
        q ∈ s.dev.reqs ∧ (q.core = n.toNat → q.st ≠ .waiting ∧ q.st ≠ .retried)) ∧
      t.dev.flash = { s.dev.flash with fences :=
        if hw = true ∧ s.dev.flash.fences.length < 64 ∧ n.toNat ∉ s.dev.flash.fences then
          s.dev.flash.fences ++ [n.toNat] else s.dev.flash.fences })) ∧
  (∀ (n : BitVec 11) (s : State), (getCore s.dev n.toNat).fencing = true →
    (∀ q ∈ s.dev.reqs, q.core = n.toNat → q.st ∉ [.crossing, .moving, .missed]) →
    ∃ t, exec (.coreFenceComplete n) s = .next t ∧ t.pending = s.pending ∧ t.dev.mem = s.dev.mem ∧
      coreFenced t.dev n.toNat = true ∧
      (∀ k, k ≠ n.toNat → k < 2048 → coreFenced t.dev k = coreFenced s.dev k ∧ getCore t.dev k = getCore s.dev k) ∧
      getCore t.dev n.toNat = { freshCore with cycleBase := (getCore t.dev n.toNat).cycleBase } ∧
      (∀ q ∈ t.dev.reqs, q.core ≠ n.toNat) ∧
      (∃ r ∈ mapGet [] t.dev.funnel.srcq n.toNat, r.cls = 0 ∧ r.code = 0x0601) ∧
      (∀ j v w p k c, s.dev.disp.queues = [(j, some v)] → v.items = [w] →
        w.parts = [p] → p.core = n.toNat → p.st = .resident →
        getTask (getCore s.dev n.toNat) false = some k → getTask (getCore s.dev n.toNat) true = none →
        k.queue = j → k.item = w.item →
        (k.idem = true → k.fault = none → k.redisp < 3 → c ≠ n.toNat → c < 2048 → coreFenced s.dev c = false →
          (∀ b, b < 2048 → b ≠ n.toNat → (b + 2048 - n.toNat) % 2048 < (c + 2048 - n.toNat) % 2048 →
            coreFenced s.dev b = true) →
          ∃ w', getItem t.dev j w.item = some w' ∧ w'.redisp = w.redisp + 1 ∧
            w'.parts = [{ p with core := c, st := .waiting, redisp := p.redisp + 1 }]) ∧
        (k.idem = false ∨ k.fault ≠ none ∨ 3 ≤ k.redisp →
          ∃ w', getItem t.dev j w.item = some w' ∧ w'.parts = [{ p with st := .ended }] ∧
            (w.fault = none → w.abort = none → w'.abort = some n.toNat)))) ∧
  (∀ (u : BitVec 5) (v : D64) (s : State), ∃ t, exec (.cvuCtrlWrite u v) s = .next t ∧ t.pending = s.pending ∧
    t.dev = { s.dev with regs := t.dev.regs, cvus := t.dev.cvus, funnel := t.dev.funnel } ∧
    ((cvStopped s.dev u.toNat = false ∧ cvFields v ≠ cvFields (regGet s.dev (cvCtrl u.toNat))) ∨
        (bit v 63 = true ∧ cvFilterOk s.dev u.toNat v = false) →
      t.dev.regs = s.dev.regs ∧ t.dev.cvus = s.dev.cvus ∧
      Logged s.dev t.dev (src 8 1) 5 0x02 (cvCtrl u.toNat) v.toNat 0) ∧
    (cvStopped s.dev u.toNat = true ∨ cvFields v = cvFields (regGet s.dev (cvCtrl u.toNat)) →
      bit v 63 = false ∨ cvFilterOk s.dev u.toNat v = true →
      t.dev.funnel = s.dev.funnel ∧ cvFields (regGet t.dev (cvCtrl u.toNat)) = cvFields v ∧
      bit (regGet t.dev (cvCtrl u.toNat)) 63 = bit v 63 ∧
      cvStopped t.dev u.toNat = (!bit v 63 && cvStopped s.dev u.toNat) ∧
      (getCvu t.dev u.toNat).pausing = (!bit v 63 && !cvStopped s.dev u.toNat) ∧
      (bit v 61 = true → regGet t.dev (cvBytes u.toNat) = 0 ∧ (getCvu t.dev u.toNat).last = none) ∧
      (bit v 61 = false → regGet t.dev (cvValue u.toNat) = regGet s.dev (cvValue u.toNat) ∧
        regGet t.dev (cvBytes u.toNat) = regGet s.dev (cvBytes u.toNat)))) ∧
  (∀ (u : BitVec 5) (s : State), ∃ t, exec (.cvuRestart u) s = .next t ∧ t.pending = s.pending ∧
    t.dev = { s.dev with regs := t.dev.regs, cvus := t.dev.cvus } ∧ regGet t.dev (cvBytes u.toNat) = 0 ∧
    (getCvu t.dev u.toNat).last = none ∧
    regGet t.dev (cvValue u.toNat) = (if bits (regGet s.dev (cvCtrl u.toNat)) 48 2 = 0 then 0xFFFFFFFF
      else if bits (regGet s.dev (cvCtrl u.toNat)) 48 2 = 1 then 0 else regGet s.dev (cvValue u.toNat))) ∧
  (∀ (u : BitVec 5) (k : CvuReg) (v : D64) (s : State) (a : Nat) (w : D64),
    (a, w) = (match k with
      | .filter => (cvFilter u.toNat, v &&& 0xFFFFFFFFFFFFFFC0)
      | .poly => (cvPoly u.toNat, v)
      | .xorOut => (cvXor u.toNat, v)
      | .value => (cvValue u.toNat, v)
      | .bytes => (cvBytes u.toNat, v)) →
    ∃ t, exec (.cvuConfigWrite u k v) s = .next t ∧ RegsOnly s t ∧
      (cvStopped s.dev u.toNat = false → t.dev.regs = s.dev.regs ∧ Logged s.dev t.dev (src 8 1) 5 0x02 a w.toNat 0) ∧
      (cvStopped s.dev u.toNat = true → t.dev.funnel = s.dev.funnel ∧ regGet t.dev a = w ∧
        ∀ b, b ≠ a → regGet t.dev b = regGet s.dev b)) ∧
  (∀ (u : BitVec 5) (s : State), (getCvu s.dev u.toNat).pausing = true →
    ∃ t, exec (.cvuPause u) s = .next t ∧ t.pending = s.pending ∧ cvStopped t.dev u.toNat = true ∧
      (getCvu t.dev u.toNat).pausing = false ∧ (getCvu t.dev u.toNat).last = (getCvu s.dev u.toNat).last ∧
      t.dev = { s.dev with regs := t.dev.regs, cvus := t.dev.cvus }) ∧
  (∀ (u : BitVec 5) (b : CvuBlock) (s : State) (c : D64), c = regGet s.dev (cvCtrl u.toNat) →
    cvStopped s.dev u.toNat = false → bits c 56 4 = b.attach.toNat → bits c 50 6 = b.index.toNat →
    1 ≤ b.attach.toNat → b.attach.toNat ≤ 5 → cvPasses s.dev u.toNat b = true →
    ∃ t, exec (.cvuTake u b) s = .next t ∧ t.pending = s.pending ∧
      t.dev = { s.dev with regs := t.dev.regs, cvus := t.dev.cvus, funnel := t.dev.funnel } ∧
      regGet t.dev (cvValue u.toNat) = BitVec.ofNat 64 (b.data.foldl
        (fun r y => (List.range 8).foldl (fun r i => crcBit (cvWidth c) (cvPolyOf s.dev u.toNat c) r
          (bit y (if cvRefIn c then i else 7 - i))) r)
        ((regGet s.dev (cvValue u.toNat)).toNat % 2 ^ cvWidth c)) ∧
      regGet t.dev (cvBytes u.toNat) = regGet s.dev (cvBytes u.toNat) + BitVec.ofNat 64 b.data.length ∧
      regField t.dev (cvStatus u.toNat) 40 24 = min (regField s.dev (cvStatus u.toNat) 40 24 + 1) (2 ^ 24 - 1) ∧
      (cvCounter c b = none → (getCvu t.dev u.toNat).last = (getCvu s.dev u.toNat).last ∧
        regField t.dev (cvStatus u.toNat) 0 40 = regField s.dev (cvStatus u.toNat) 0 40) ∧
      (∀ a w, cvCounter c b = some (a, w) →
        ((getCvu s.dev u.toNat).last = none → (getCvu t.dev u.toNat).last = some a ∧
          regField t.dev (cvStatus u.toNat) 0 40 = regField s.dev (cvStatus u.toNat) 0 40) ∧
        (∀ l k, (getCvu s.dev u.toNat).last = some l → k = (a + 2 ^ w - l) % 2 ^ w →
          (getCvu t.dev u.toNat).last = (if 1 ≤ k ∧ k < 2 ^ (w - 1) then some a else some l) ∧
          regField t.dev (cvStatus u.toNat) 11 11 =
            min (regField s.dev (cvStatus u.toNat) 11 11 + (if k = 0 then 1 else 0)) 2047 ∧
          regField t.dev (cvStatus u.toNat) 0 11 =
            min (regField s.dev (cvStatus u.toNat) 0 11 + (if 1 < k ∧ k < 2 ^ (w - 1) then 1 else 0)) 2047 ∧
          regField t.dev (cvStatus u.toNat) 22 10 =
            min (regField s.dev (cvStatus u.toNat) 22 10 + (if 2 ^ (w - 1) ≤ k then 1 else 0)) 1023)))

/-- Sorrel samples, its rules fire and release, its protections hold and trip, and envelopes switch (R425, R428,
R429, R430, R431, R432, R435, R439, R440, R441, R444, R38). -/
def Obligations.SorrelRulesAndProtectionsAct : Prop :=
  (∀ (p : Sample) (s : State), s.dev.sor.running = true → nothingDue s.dev = true →
    ∃ t, exec (.sorrelSample p) s = .next t ∧ t.pending = s.pending ∧ t.dev.mem = s.dev.mem ∧
      t.dev.cores = s.dev.cores ∧ t.dev.clusters = s.dev.clusters ∧ LevelsHold t.dev ∧
      regGet t.dev aPwrInput = BitVec.ofNat 64 (p.p54Mv * p.p54Ma / 1000 % 2 ^ 32 * 2 ^ 32 + p.p54Mv / 10 % 2 ^ 16 * 2 ^ 16 +
        p.p12Mv % 2 ^ 16) ∧
      regField t.dev (aSrc 236) 0 20 = s.dev.sor.leak % 2 ^ 20 ∧
      regField t.dev (aSrc 235) 0 20 = p.p12Mv % 2 ^ 20 ∧
      (∀ v, v < 72 → regField t.dev (aSrc v) 0 20 = regField s.dev (aRail v) 0 16) ∧
      (∀ j v, j < 2224 → readingFor p (getSensor s.dev j) j = .value v → (getSensor t.dev j).raw = v) ∧
      (∀ j, j < 2224 → isMasked s.dev j = false → (getSensor s.dev j).kind = 0 → (getSensor s.dev j).found = 0 →
        (readingFor p (getSensor s.dev j) j = .openDiode → (getSensor t.dev j).found = 1) ∧
        (readingFor p (getSensor s.dev j) j = .shortDiode → (getSensor t.dev j).found = 2))) ∧
  (∀ (i e : BitVec 6) (s : State) (a g : Nat), a = ruAction (ruleHi s.dev i.toNat) → g = ruArg (ruleHi s.dev i.toNat) →
    (getEl s.dev i.toNat e.toNat).due = true → (getEl s.dev i.toNat e.toNat).fired = false →
    (a = 3 → wakeDue s.dev = false) →
    ∃ t, exec (.ruleFire i e) s = .next t ∧ t.pending = s.pending ∧
      getEl t.dev i.toNat e.toNat = { getEl s.dev i.toNat e.toNat with fired := true, due := false, cnt := 0 } ∧
      (a ≠ 2 → a ≠ 3 → t.dev.mem = s.dev.mem ∧ t.dev.cores = s.dev.cores ∧ t.dev.clusters = s.dev.clusters) ∧
      (a = 1 → LevelsHold t.dev ∧ (e.toNat ≤ ruSpan (ruleLo s.dev i.toNat) → g ≤ 7 →
        (∀ j c, j < 64 → ruleHolds s.dev j c = false) → bits (ruleHi s.dev i.toNat) 42 2 = 0 →
        ∀ c, c < 64 → g ≤ levelOf t.dev c)) ∧
      (a = 2 → g < 64 → (getCluster s.dev g).st = .sleep → (getCluster t.dev g).st = .waking) ∧
      (a = 3 → s.dev.sor.down = false → g = 0 → t.dev.sor.down = true ∧ PoweredOff t.dev) ∧
      (a = 3 → s.dev.sor.down = false → g = 1 → t.dev.sor.orderly = true ∧ t.dev.mem = s.dev.mem)) ∧
  (∀ (i e : BitVec 6) (s : State), (getEl s.dev i.toNat e.toNat).due = true →
    (getEl s.dev i.toNat e.toNat).fired = true →
    ∃ t, exec (.ruleRelease i e) s = .next t ∧ t.pending = s.pending ∧ LevelsHold t.dev ∧
      getEl t.dev i.toNat e.toNat = { getEl s.dev i.toNat e.toNat with fired := false, due := false, cnt := 0 } ∧
      t.dev.mem = s.dev.mem ∧ t.dev.cores = s.dev.cores ∧ t.dev.clusters = s.dev.clusters) ∧
  (∀ s : State, s.dev.sor.orderly = true → ∃ t, exec .orderlyPowerDownExpiry s = .next t ∧ t.pending = s.pending ∧
    t.dev.sor.down = true ∧ t.dev.sor.orderly = false ∧ PoweredOff t.dev ∧
    t.dev.flash = { s.dev.flash with zones := s.dev.sor.zones }) ∧
  (∀ (j : BitVec 12) (s : State) (x : Sensor), x = getSensor s.dev j.toNat →
    (x.limit = true → 100 ≤ x.limCnt → ∃ t, exec (.thermalLimitRelease j) s = .next t ∧ t.pending = s.pending ∧
      LevelsHold t.dev ∧ getSensor t.dev j.toNat = { x with limit := false, limCnt := 0 } ∧ t.dev.mem = s.dev.mem ∧
      ∀ k, k ≠ j.toNat → getSensor t.dev k = getSensor s.dev k) ∧
    (x.rate = true → 100 ≤ x.rateCnt → ∃ t, exec (.rateActRelease j) s = .next t ∧ t.pending = s.pending ∧
      LevelsHold t.dev ∧ getSensor t.dev j.toNat = { x with rate := false, rateCnt := 0 } ∧ t.dev.mem = s.dev.mem ∧
      ∀ k, k ≠ j.toNat → getSensor t.dev k = getSensor s.dev k) ∧
    (3 ≤ x.trip → x.kind = 0 → x.found = 0 → ∃ t, exec (.thermalTrip j) s = .next t ∧ t.pending = s.pending ∧
      (s.dev.sor.down = false → t.dev.sor.down = true ∧ PoweredOff t.dev) ∧
      (s.dev.sor.down = true → Logged s.dev t.dev (src 7 0) 0 0x0103 j.toNat (wrap 64 (sensorValue s.dev j.toNat)) 0 ∧
        t.dev.mem = s.dev.mem)) ∧
    (∀ k : BitVec 3, x.found = k.toNat → k ≠ 0 → ∃ t, exec (.sensorBroken j k) s = .next t ∧ t.pending = s.pending ∧
      getSensor t.dev j.toNat = { x with kind := k.toNat, found := 0 } ∧ t.dev.mem = s.dev.mem ∧ t.dev.regs = s.dev.regs ∧
      (∀ i, i ≠ j.toNat → getSensor t.dev i = getSensor s.dev i) ∧
      Logged s.dev t.dev (src 7 0) 0 (if k.toNat < 5 then 0x0106 else 0x0107) j.toNat k.toNat 0)) ∧
  (∀ (v : D64) (s : State), ∃ t, exec (.sensorClear v) s = .next t ∧ t.pending = s.pending ∧
    t.dev = { s.dev with sor := { s.dev.sor with sensors := t.dev.sor.sensors } } ∧
    ∀ k, getSensor t.dev k = if bit v 12 = true ∨ (k = bits v 0 12 ∧ k < 2224) then clearSensor (getSensor s.dev k)
      else getSensor s.dev k) ∧
  (∀ (i : BitVec 6) (hi : Bool) (v : D64) (s : State), ∃ t, exec (.sorRuleWrite i hi v) s = .next t ∧
    t.pending = s.pending ∧ t.dev.mem = s.dev.mem ∧ t.dev.clusters = s.dev.clusters ∧ LevelsHold t.dev ∧
    regGet t.dev (if hi then aRuleHi i.toNat else aRuleLo i.toNat) =
      v &&& (if hi then 0xFFFFFCFF8000FFFF else 0xFFFFFFB8FFFFFFFF) ∧
    (∀ e, e < 64 → getEl t.dev i.toNat e = freshEl) ∧
    (∀ k e, k ≠ i.toNat → e < 64 → getEl t.dev k e = getEl s.dev k e) ∧
    (∀ c, c < 64 → ruleHolds t.dev i.toNat c = false)) ∧
  (∀ s : State, s.dev.sor.running = true →
    (∃ t, exec .bondWearSample s = .next t ∧ t.pending = s.pending ∧ t.dev.mem = s.dev.mem ∧
      (∀ z, z < 80 → getZone t.dev z = zoneSample (getZone s.dev z) (zoneTemp s.dev z)) ∧
      bit (regGet t.dev aWearUp) 63 = (List.range 64).any (fun z => decide (24000 * 1024 ≤ (getZone t.dev z).count)) ∧
      bit (regGet t.dev aWearLo) 62 = (List.range 16).any (fun z => decide (30000 * 1024 ≤ (getZone t.dev (64 + z)).count))) ∧
    exec .bondWearPersist s = .next (s.withDev { s.dev with flash := { s.dev.flash with zones := s.dev.sor.zones } }) ∧
    (∃ t, exec .compensationUpdate s = .next t ∧ t.pending = s.pending ∧
      t.dev = { s.dev with sor := { s.dev.sor with comp := t.dev.sor.comp } } ∧
      t.dev.sor.comp.length = 48 ∧
      ∀ i, i < 48 → (getSensor s.dev (2176 + i)).kind = 0 → (getSensor s.dev (2176 + i)).found = 0 →
        t.dev.sor.comp[i]? = some (sensorValue s.dev (2176 + i)))) ∧
  (∀ (v : D64) (s : State),
    (bit (regGet s.dev aEnv) 63 = true ∨ bits v 48 2 = 3 → exec (.envelopeSwitch v) s = .next s) ∧
    (bit (regGet s.dev aEnv) 63 = false → bits v 48 2 ≠ 3 → ∃ t, exec (.envelopeSwitch v) s = .next t ∧
      RegsOnly s t ∧ t.dev.funnel = s.dev.funnel ∧ regField t.dev aEnv 48 2 = bits v 48 2 ∧
      bit (regGet t.dev aEnv) 63 = decide (bits v 48 2 ≠ envNow s.dev) ∧
      (∀ a, a ≠ aEnv → regGet t.dev a = regGet s.dev a) ∧ envNow t.dev = envNow s.dev)) ∧
  (∀ s : State, bit (regGet s.dev aEnv) 63 = true → regField s.dev aEnv 48 2 ≠ 3 →
    ∃ t e, exec .envelopeSwitchDone s = .next t ∧ RegsOnly s t ∧ e = regField s.dev aEnv 48 2 ∧
      envNow t.dev = e ∧ bit (regGet t.dev aEnv) 63 = false ∧
      regField t.dev aEnv 16 16 = [3600, 2600, 1600].getD e 0 ∧ regField t.dev aEnv 0 16 = [1900, 1600, 1100].getD e 0 ∧
      (∀ c, c < 64 → regField t.dev (aRail c) 32 16 = if (getCluster s.dev c).st = .awake ∨
        (getCluster s.dev c).st = .waking ∨ (getCluster s.dev c).st = .entering then setpointOf c e
        else regField s.dev (aRail c) 32 16) ∧
      Logged s.dev t.dev (src 7 0) 0 0x010A e 0 0)

/-- Input range, leak, rail reports, sense and clock faults, and droop episodes act as the spec gives them (R402,
R404, R408, R409, R417, R445, R446, R447, R480). -/
def Obligations.PowerClocksAndDroopAct : Prop :=
  (∀ (mv : BitVec 16) (s : State), s.dev.sor.running = true → mv.toNat < 42000 ∨ 60000 < mv.toNat →
    ∃ t, exec (.p54OutOfRange mv) s = .next t ∧ t.pending = s.pending ∧ t.dev.sor.p54Ok = false ∧
      (s.dev.sor.rails = true → PoweredOff t.dev) ∧
      (s.dev.sor.rails = false → t.dev.mem = s.dev.mem ∧ t.dev.regs = s.dev.regs ∧
        Logged s.dev t.dev (src 7 0) 0 0x0203 mv.toNat 0 0)) ∧
  (∀ s : State, s.dev.sor.running = true → s.dev.sor.p54Ok = false →
    ∃ t, exec .p54Restart s = .next t ∧ t.pending = s.pending ∧ t.dev.sor.p54Ok = true ∧ t.dev.sor.stopped = false ∧
      (s.dev.sor.stopped = true → s.dev.sor.down = false → DiesCleared t.dev ∧ isReady t.dev = false ∧
        regField t.dev aResetCause 60 4 = 1 ∧ regField t.dev aResetCause 56 4 = 4) ∧
      (s.dev.sor.stopped = false ∨ s.dev.sor.down = true → t.dev.regs = s.dev.regs ∧ t.dev.mem = s.dev.mem)) ∧
  (∀ (o : Option Nat) (s : State), s.dev.sor.running = true → ∃ t, exec (.leakSenseSample o) s = .next t ∧
    t.pending = s.pending ∧ t.dev = { s.dev with sor := { s.dev.sor with leak := t.dev.sor.leak } } ∧
    (o = none → t.dev.sor.leak = 2) ∧ (∀ r, o = some r → (r < 100000 → t.dev.sor.leak = 1) ∧
      (100000 ≤ r → r ≤ 10000000 → t.dev.sor.leak = 0) ∧ (10000000 < r → t.dev.sor.leak = 2))) ∧
  (∀ (r : BitVec 7) (mv cur : BitVec 16) (s : State), r.toNat < 72 → s.dev.sor.running = true →
    ∃ t, exec (.railReport r mv cur) s = .next t ∧ RegsOnly s t ∧ t.dev.funnel = s.dev.funnel ∧
      regField t.dev (aRail r.toNat) 16 16 = mv.toNat ∧ regField t.dev (aRail r.toNat) 0 16 = cur.toNat ∧
      bit (regGet t.dev (aRail r.toNat)) 61 = decide (95 * railMax r.toNat < 100 * cur.toNat) ∧
      regField t.dev (aRail r.toNat) 32 16 = regField s.dev (aRail r.toNat) 32 16 ∧
      regField t.dev (aRail r.toNat) 62 2 = regField s.dev (aRail r.toNat) 62 2 ∧
      ∀ a, a ≠ aRail r.toNat → regGet t.dev a = regGet s.dev a) ∧
  (∀ (r : BitVec 7) (s : State), r.toNat < 72 → bit (regGet s.dev (aRail r.toNat)) 62 = false →
    ∃ t, exec (.senseFault r) s = .next t ∧ RegsOnly s t ∧ bit (regGet t.dev (aRail r.toNat)) 62 = true ∧
      (∀ a, a ≠ aRail r.toNat → regGet t.dev a = regGet s.dev a) ∧
      Logged s.dev t.dev (src 7 0) 0 0x0204 r.toNat 0 0) ∧
  (∀ s : State, s.dev.sor.running = true → bit (regGet s.dev aClkStatus) 63 = false →
    ∃ t, exec .aonClockFail s = .next t ∧ RegsOnly s t ∧ bit (regGet t.dev aClkStatus) 63 = true ∧
      (∀ a, a ≠ aClkStatus → regGet t.dev a = regGet s.dev a) ∧ Logged s.dev t.dev (src 7 0) 0 0x0206 0 0 0) ∧
  (∀ s : State, s.dev.sor.running = true → bit (regGet s.dev aClkStatus) 62 = true →
    ∃ t, exec .refClockFail s = .next t ∧ t.pending = s.pending ∧ DiesCleared t.dev ∧ isReady t.dev = false ∧
      t.dev.sor.rails = false ∧ regField t.dev aResetCause 60 4 = 1 ∧ regField t.dev aResetCause 56 4 = 9 ∧
      ∃ r ∈ mapGet [] t.dev.funnel.srcq (src 7 0).toNat, r.cls = 0 ∧ r.code = 0x0207) ∧
  (∀ s : State, s.dev.boot.waitRef = true → bootStep s.dev = 1 →
    ∃ t, exec .refClockRetryLog s = .next t ∧ t.pending = s.pending ∧
      t.dev = { s.dev with funnel := t.dev.funnel } ∧ Logged s.dev t.dev (src 7 0) 0 0x0207 0 0 0) ∧
  (∀ (r : BitVec 7) (mv : BitVec 16) (s : State), r.toNat < 72 → comparatorOn s.dev r.toNat = true →
    mv.toNat + warnMv s.dev < droopBase s.dev r.toNat → droopBase s.dev r.toNat ≤ mv.toNat + resetMv s.dev →
    (64 ≤ r.toNat → ∃ t, exec (.droopEpisodeStart r mv) s = .next t ∧ t.pending = s.pending ∧
      t.dev = { s.dev with funnel := t.dev.funnel } ∧ Logged s.dev t.dev (src 7 0) 0 0x0201 r.toNat mv.toNat 0) ∧
    (r.toNat < 64 → (getCluster s.dev r.toNat).droop = none →
      ∃ t, exec (.droopEpisodeStart r mv) s = .next t ∧ t.pending = s.pending ∧
        t.dev = { s.dev with clusters := t.dev.clusters, regs := t.dev.regs } ∧
        getCluster t.dev r.toNat = { getCluster s.dev r.toNat with droop := some mv.toNat } ∧
        (∀ c, c ≠ r.toNat → getCluster t.dev c = getCluster s.dev c) ∧
        bit (regGet t.dev (aSorCluster r.toNat)) 54 = true)) ∧
  (∀ (c : BitVec 6) (mv : BitVec 16) (us : Word) (s : State) (v : Nat), (getCluster s.dev c.toNat).droop = some v →
    regField s.dev aDroopCfg 16 16 ≤ us.toNat →
    ∃ t, exec (.droopEpisodeEnd c mv us) s = .next t ∧ t.pending = s.pending ∧
      getCluster t.dev c.toNat = { getCluster s.dev c.toNat with droop := none } ∧
      bit (regGet t.dev (aSorCluster c.toNat)) 54 = false ∧
      t.dev.sor = { s.dev.sor with warns := s.dev.sor.warns ++ [(c.toNat, min v mv.toNat, us.toNat)] } ∧
      t.dev.mem = s.dev.mem ∧ t.dev.funnel = s.dev.funnel) ∧
  (∀ (r : BitVec 7) (s : State),
    (r.toNat = 69 → ∃ t, exec (.resetLevelCrossing r) s = .next t ∧ t.pending = s.pending ∧ DiesCleared t.dev ∧
      t.dev.sor.running = false ∧ t.dev.flash = s.dev.flash ∧ t.dev.fuses = s.dev.fuses ∧
      regField t.dev aResetCause 60 4 = 0 ∧ regField t.dev aResetCause 56 4 = 3 ∧ regField t.dev aResetCause 0 32 = 0) ∧
    (comparatorOn s.dev r.toNat = true → r.toNat < 64 → runningResets s.dev = [] → s.dev.boot.queued = [] →
      ∃ t, exec (.resetLevelCrossing r) s = .next t ∧ t.pending = s.pending ∧
        t.dev.boot = { s.dev.boot with queued := [(5, r.toNat, 3)] } ∧ t.dev.mem = s.dev.mem ∧
        t.dev.clusters = s.dev.clusters ∧ Logged s.dev t.dev (src 7 0) 0 0x0202 r.toNat 0 0) ∧
    (comparatorOn s.dev r.toNat = true → 64 ≤ r.toNat → r.toNat < 72 → r.toNat ≠ 69 →
      ∃ t, exec (.resetLevelCrossing r) s = .next t ∧ t.pending = s.pending ∧ DiesCleared t.dev ∧
        isReady t.dev = false ∧ regField t.dev aResetCause 60 4 = 2 ∧ regField t.dev aResetCause 56 4 = 3 ∧
        ∃ x ∈ mapGet [] t.dev.funnel.srcq (src 7 0).toNat, x.cls = 0 ∧ x.code = 0x0202)) ∧
  (∀ s : State, ∃ t, exec .standbyPowerLoss s = .next t ∧ t.pending = s.pending ∧ t.dev.flash = s.dev.flash ∧
    t.dev.fuses = s.dev.fuses ∧ t.dev.regs = [] ∧ t.dev.sor = resetSorrel ∧ DiesCleared t.dev)

/-- Each step of bring-up does its work and hands over to the next, and READY is declared or its REASON recorded
(R471, R472, R473, R474, R475, R476, R477, R478, R479, R496, R417, R284). -/
def Obligations.BringUpRunsItsSteps : Prop :=
  (∀ s : State, s.dev.sor.running = false → ∃ t, exec .sorrelStart s = .next t ∧ t.pending = s.pending ∧
    t.dev.sor.running = true ∧ bootStep t.dev = 1 ∧ t.dev.sor.zones = s.dev.flash.zones ∧ t.dev.mem = s.dev.mem ∧
    regField t.dev (aRail 69) 32 16 = 800 ∧ (∀ i, 12 ≤ i → i < 64 → bit (ruleLo t.dev i) 63 = false) ∧
    ∀ i, i < 12 → bit (ruleLo t.dev i) 63 = true ∧ ruleBad (ruleLo t.dev i) (ruleHi t.dev i) = false) ∧
  (∀ (ok : Bool) (s : State), s.dev.sor.running = true → s.dev.sor.p54Ok = true → s.dev.sor.down = false →
    bootStep s.dev = 1 → s.dev.boot.waitRef = false →
    ∃ t, exec (.bringupRails ok) s = .next t ∧ t.pending = s.pending ∧ t.dev.mem = s.dev.mem ∧
      (ok = true → t.dev.sor.rails = true ∧ bootStep t.dev = 2 ∧ (∀ r, 64 ≤ r → r < 72 → r ≠ 69 →
          regField t.dev (aRail r) 32 16 = [750, 800, 800, 900, 800, 800, 1200, 1800].getD (r - 64) 0) ∧
        ∀ r, r < 64 → regGet t.dev (aRail r) = regGet s.dev (aRail r)) ∧
      (ok = false → t.dev = { s.dev with boot := { s.dev.boot with waitRef := true } })) ∧
  (∀ s : State, s.dev.boot.waitRef = true → bootStep s.dev = 1 → s.dev.sor.p54Ok = true →
    ∃ t, exec .refClockRestored s = .next t ∧ t.pending = s.pending ∧ t.dev.sor.rails = true ∧ bootStep t.dev = 2 ∧
      t.dev.boot.waitRef = false ∧ t.dev.mem = s.dev.mem) ∧
  (∀ (v : BootVerify) (s : State) (good : Nat → Prop) (c : Nat), bootStep s.dev = 2 → s.dev.sor.rails = true →
    regField s.dev aSecBoot 40 8 = 0 → c = commitMain s.dev →
    good = (fun k => (fwSlot s.dev 0 k).whole = true ∧ bit v.pass k = true ∧
      s.dev.fuses.rollback ≤ (fwSlot s.dev 0 k).rollback) →
    ∃ t, exec (.bootVerify v) s = .next t ∧ t.pending = s.pending ∧ t.dev.mem = s.dev.mem ∧ t.dev.flash = s.dev.flash ∧
      (good c → t.dev.boot.verified = true ∧ bootStep t.dev = 3 ∧ regField t.dev aSecBoot 61 1 = c ∧
        bit (regGet t.dev aSecBoot) 59 = false ∧ t.dev.boot.fwVersion = (fwSlot s.dev 0 c).version) ∧
      (¬ good c → good (1 - c) → t.dev.boot.verified = true ∧ bootStep t.dev = 3 ∧
        regField t.dev aSecBoot 61 1 = 1 - c ∧ bit (regGet t.dev aSecBoot) 59 = true ∧
        t.dev.boot.fwVersion = (fwSlot s.dev 0 (1 - c)).version) ∧
      (¬ good c → ¬ good (1 - c) → t.dev.boot = s.dev.boot ∧ bootStep t.dev = 2 ∧ regField t.dev aSecBoot 40 8 = 1) ∧
      (¬ good c → (mapGet [] s.dev.funnel.srcq (src 8 0).toNat).length < 4 →
        ∃ r ∈ mapGet [] t.dev.funnel.srcq (src 8 0).toNat, r.cls = 0 ∧ r.code = 0x0604)) ∧
  (∀ (im : ImageInfo) (s : State), bootStep s.dev = 2 → regField s.dev aSecBoot 40 8 = 1 →
    (imageVerified im = true → im.component = 0 → s.dev.fuses.rollback ≤ im.rollback.toNat →
      ∃ t, exec (.recoveryImage im) s = .next t ∧ t.pending = s.pending ∧ t.dev.boot.verified = true ∧
        bootStep t.dev = 3 ∧ regField t.dev aSecBoot 40 8 = 0 ∧ t.dev.boot.fwVersion = im.version ∧
        t.dev.flash = s.dev.flash ∧ t.dev.mem = s.dev.mem) ∧
    (imageVerified im = false ∨ im.component ≠ 0 ∨ im.rollback.toNat < s.dev.fuses.rollback →
      exec (.recoveryImage im) s = .next s)) ∧
  (∀ s : State, bootStep s.dev = 3 → s.dev.flash.envelope < 3 →
    (∀ e ∈ s.dev.flash.ports, aHptCfg 0 ≤ e.1 ∧ e.1 < aHptCfg 2) →
    ∃ t, exec .loadFlashRecords s = .next t ∧ t.pending = s.pending ∧ bootStep t.dev = 4 ∧
      regGet t.dev aFabId = s.dev.flash.ident ∧ regGet t.dev aFabRole = s.dev.flash.role ∧
      t.dev.flash = s.dev.flash ∧ t.dev.fuses = s.dev.fuses ∧
      (s.dev.boot.base = true → t.dev.slices = s.dev.slices ∧ t.dev.mem = s.dev.mem) ∧
      (s.dev.boot.base = false → envNow t.dev = s.dev.flash.envelope ∧
        ∀ n ∈ s.dev.fuses.cores, n < 2048 → coreFenced t.dev n = true)) ∧
  (∀ (x : Training) (s : State), bootStep s.dev = 4 →
    (s.dev.boot.base = true → ∃ t, exec (.training x) s = .next t ∧ t.pending = s.pending ∧ bootStep t.dev = 8 ∧
      t.dev.mem = s.dev.mem ∧ (∀ h, h < 2 → bit (regGet t.dev (aCdcStatus h)) 62 = false) ∧
      ∀ c, c < 32 → bit (regGet t.dev (aChan c)) 62 = bit x.channels c) ∧
    (s.dev.boot.base = false → initDone s.dev = false → (∀ c, c < 32 → bit (regGet s.dev (aChan c)) 63 = false) →
      ∃ t, exec (.training x) s = .next t ∧ t.pending = s.pending ∧ t.dev.mem = s.dev.mem ∧
        (∀ c, c < 32 → bit (regGet t.dev (aChan c)) 63 = !bit x.channels c ∧
          bit (regGet t.dev (aChan c)) 62 = bit x.channels c) ∧
        (∀ n ∈ x.cores, coreFenced t.dev n.toNat = true) ∧
        bootStep t.dev = if x.channels = 0 then 4 else 5)) ∧
  (∀ s : State, bootStep s.dev = 4 → initDone s.dev = false →
    (∀ c, c < 32 → bit (regGet s.dev (aChan c)) 63 = true) →
    ∃ t, exec .memInitDone s = .next t ∧ RegsOnly s t ∧ bootStep t.dev = 5 ∧ initDone t.dev = true ∧
      regField t.dev aPgmMode 8 8 = 100 ∧ (∀ a, a ≠ aPgmMode → a ≠ aSecBoot → regGet t.dev a = regGet s.dev a)) ∧
  (∀ (x : CheckerResults) (s : State),
    (bootStep s.dev = 5 → ∃ t, exec (.cacheInit x) s = .next t ∧ t.pending = s.pending ∧ bootStep t.dev = 6 ∧
      halfReady t.dev 0 = true ∧ halfReady t.dev 1 = true ∧
      (x.banks = [] → (∀ k i, k < 2048 → getSet t.dev k i = []) ∧ t.dev.mem = s.dev.mem) ∧
      (x.pageMap = false ∨ x.buffers = false → t.dev.boot.selfFail = true)) ∧
    (∀ h, bootStep s.dev ≠ 5 → isReady s.dev = true → h < 2 → halfReady s.dev h = false →
      halfReady s.dev (1 - h) = true → ∃ t, exec (.cacheInit x) s = .next t ∧ t.pending = s.pending ∧
        halfReady t.dev h = true ∧ bootStep t.dev = bootStep s.dev)) ∧
  (∀ s : State, bootStep s.dev = 6 → ∃ t, exec .runtimeBroadcast s = .next t ∧ RegsOnly s t ∧ bootStep t.dev = 7 ∧
    t.dev.funnel = s.dev.funnel ∧ ∀ a, a ≠ aSecBoot → regGet t.dev a = regGet s.dev a) ∧
  (∀ (ns : List (BitVec 11)) (s : State), bootStep s.dev = 7 →
    ∃ t, exec (.knownAnswerRuns ns) s = .next t ∧ t.pending = s.pending ∧ bootStep t.dev = 8 ∧ t.dev.mem = s.dev.mem ∧
      (∀ n ∈ s.dev.flash.fences, n < 2048 → coreFenced t.dev n = true) ∧
      (∀ n ∈ ns, coreFenced t.dev n.toNat = true) ∧
      (∀ n, n < 2048 → n ∉ s.dev.flash.fences → (∀ k ∈ ns, k.toNat ≠ n) → coreFenced t.dev n = coreFenced s.dev n) ∧
      (∀ c, c < 64 → (∃ n ∈ coresOf c, coreFenced t.dev n = false) → (getCluster t.dev c).st = .awake)) ∧
  (∀ s : State, bootStep s.dev = 8 → isReady s.dev = false → regField s.dev aSecBoot 40 8 = 0 →
    ∃ t, exec .ready s = .next t ∧ t.pending = s.pending ∧
      (s.dev.boot.verified = true → (∀ c, c < 32 → bit (regGet s.dev (aChan c)) 62 = false) → initDone s.dev = true →
        halfReady s.dev 0 = true → halfReady s.dev 1 = true → s.dev.boot.selfFail = false →
        (∃ n, n < 2048 ∧ coreFenced s.dev n = false) →
        isReady t.dev = true ∧ t.dev.boot.base = false ∧
        t.dev.fuses = { s.dev.fuses with rollback := max s.dev.fuses.rollback s.dev.boot.fwRollback } ∧
        (s.dev.boot.base = true → ∀ q v, getQueue t.dev q = some v → v.items = []) ∧
        (s.dev.boot.base = false → t.dev.disp = s.dev.disp ∧ t.dev.mem = s.dev.mem)) ∧
      (∀ k, k ∈ [1, 2, 3, 4, 5, 6] → readyReason s.dev = k → isReady t.dev = false ∧ regField t.dev aSecBoot 40 8 = k ∧
        RegsOnly s t) ∧
      (s.dev.boot.verified = false → readyReason s.dev = 1))

/-- Each kind of reset clears what lies in its scope, keeps the rest and resumes bring-up where Table 16.3 says
(R480, R481, R482, R483, R484, R485, R486, R487, R488, 16_bringup_reset_and_security.md Table 16.3,
16_bringup_reset_and_security.md Table 16.4, 16_bringup_reset_and_security.md Table 16.12). -/
def Obligations.ResetsClearTheirScope : Prop :=
  (∀ (g : BitVec 4) (s : State),
    (g.toNat = 3 ∨ g.toNat = 8 → ∃ t, exec (.powerOnReset g) s = .next t ∧ t.pending = s.pending ∧
      DiesCleared t.dev ∧ t.dev.sor = resetSorrel ∧ t.dev.flash = s.dev.flash ∧ t.dev.fuses = s.dev.fuses ∧
      regGet t.dev aResetCause = BitVec.ofNat 64 (g.toNat * 2 ^ 56) ∧
      ∀ a, a ≠ aResetCause → regGet t.dev a = regReset a) ∧
    (g.toNat ∈ moduleTriggers s.dev → s.dev.sor.running = true →
      ∃ t, exec (.moduleReset g) s = .next t ∧ t.pending = s.pending ∧ DiesCleared t.dev ∧ isReady t.dev = false ∧
        bootStep t.dev = 1 ∧ t.dev.sor.rails = false ∧ t.dev.sor.down = false ∧ t.dev.fuses = s.dev.fuses ∧
        CauseIs s t 1 0 g.toNat) ∧
    (g.toNat ∈ [0, 3, 6, 7, 10] → s.dev.sor.rails = true →
      ∃ t, exec (.deviceWarmReset g) s = .next t ∧ t.pending = s.pending ∧ DiesCleared t.dev ∧
        isReady t.dev = false ∧ bootStep t.dev = (if isReady s.dev = false ∧ bootStep s.dev = 1 then 1 else 2) ∧
        t.dev.sor.rails = true ∧ t.dev.flash = s.dev.flash ∧ t.dev.fuses = s.dev.fuses ∧
        (∀ r, r < 72 → regGet t.dev (aRail r) = regGet s.dev (aRail r)) ∧ CauseIs s t 2 0 g.toNat)) ∧
  (∀ (g : BitVec 4) (s : State) (rest : List (Nat × Nat × Nat)), s.dev.boot.queued = (3, 0, g.toNat) :: rest →
    runningResets s.dev = [] → ∃ t, exec (.baseReset g) s = .next t ∧ t.pending = s.pending ∧ t.dev.mem = s.dev.mem ∧
      t.dev.pmap = s.dev.pmap ∧ t.dev.slices = s.dev.slices ∧ CauseIs s t 3 0 g.toNat ∧ isReady t.dev = false ∧
      (∀ e ∈ t.dev.boot.queued, e.1 ≠ 6 ∧ (e.1 ≠ 3 ∨ e.2.1 ≠ 0)) ∧
      (isReady s.dev = true → t.dev.boot.quiesce = true ∧
        (∀ h, h < 2 → bit (regGet t.dev (aCdcStatus h)) 62 = true) ∧
        ∀ p, p < 2 → (getHost t.dev p).rxbuf = [] ∧ (getHost t.dev p).xfers = []) ∧
      (isReady s.dev = false → t.dev.hpt = resetHpt ∧ t.dev.boot.quiesce = false ∧
        bootStep t.dev = if bootStep s.dev = 0 then 2 else min (bootStep s.dev) 2)) ∧
  (∀ s : State, s.dev.boot.quiesce = true →
    (∃ t, exec .baseQuiesceComplete s = .next t ∧ t.pending = s.pending ∧ t.dev.boot.quiesce = false ∧
      t.dev.boot.base = true ∧ bootStep t.dev = 2 ∧ isReady t.dev = false ∧ t.dev.hpt = resetHpt ∧ t.dev.lov = [] ∧
      t.dev.fab = { resetFab with routes := s.dev.fab.routes } ∧
      t.dev.disp = { resetDisp with
        modules := s.dev.disp.modules,
        queues := s.dev.disp.queues.map fun e => (e.1, e.2.map (orphanItems fun _ => true)) } ∧
      t.dev.mem = s.dev.mem ∧ t.dev.pmap = s.dev.pmap ∧ t.dev.cores = s.dev.cores ∧ t.dev.slices = s.dev.slices ∧
      t.dev.shoot = s.dev.shoot ∧ regGet t.dev aFabId = regGet s.dev aFabId) ∧
    (∃ t, exec .baseQuiesceFail s = .next t ∧ t.pending = s.pending ∧ DiesCleared t.dev ∧ isReady t.dev = false ∧
      CauseIs s t 2 0 7)) ∧
  (∀ (h : BitVec 1) (g : BitVec 4) (s : State) (rest : List (Nat × Nat × Nat)),
    s.dev.boot.queued = (4, h.toNat, g.toNat) :: rest → runningResets s.dev = [] →
    ∃ t, exec (.halfReset h g) s = .next t ∧ t.pending = s.pending ∧ CauseIs s t 4 h.toNat g.toNat ∧
      halfReady t.dev h.toNat = false ∧ t.dev.mem = s.dev.mem ∧ t.dev.pmap = s.dev.pmap ∧
      (∀ k, k < 2048 → k / 1024 ≠ h.toNat → getSlice t.dev k = getSlice s.dev k) ∧
      (∀ k i, k < 2048 → k / 1024 = h.toNat → getSet t.dev k i = []) ∧
      (isReady s.dev = true → ∀ k, k < 2048 → k / 1024 = h.toNat → getSlice t.dev k = freshSlice) ∧
      (∀ n, n / 1024 ≠ h.toNat → getCore t.dev n = getCore s.dev n) ∧
      (isReady s.dev = true → isReady t.dev = true)) ∧
  (∀ (c : BitVec 6) (g : BitVec 4) (ns : List (BitVec 11)) (s : State) (rest : List (Nat × Nat × Nat)),
    s.dev.boot.queued = (5, c.toNat, g.toNat) :: rest → runningResets s.dev = [] →
    ∃ t, exec (.clusterReset c g ns) s = .next t ∧ t.pending = s.pending ∧ CauseIs s t 5 c.toNat g.toNat ∧
      t.dev.mem = s.dev.mem ∧
      (bootStep s.dev < 7 → t.dev.cores = s.dev.cores ∧ t.dev.clusters = s.dev.clusters) ∧
      (7 ≤ bootStep s.dev → (∀ n ∈ coresOf c.toNat, coreFenced s.dev n = false →
          CoreReset t.dev n ∧ coreFenced t.dev n = decide (∃ k ∈ ns, k.toNat = n)) ∧
        (∀ n, n < 2048 → n / 32 ≠ c.toNat → getCore t.dev n = getCore s.dev n ∧
          coreFenced t.dev n = coreFenced s.dev n) ∧
        ((getCluster s.dev c.toNat).st ≠ .off → (∃ n ∈ coresOf c.toNat, coreFenced t.dev n = false) →
          (getCluster t.dev c.toNat).st = .awake))) ∧
  (∀ (n : BitVec 11) (g : BitVec 4) (k : Bool) (s : State) (rest : List (Nat × Nat × Nat)),
    s.dev.boot.queued = (6, n.toNat, g.toNat) :: rest → runningResets s.dev = [] →
    ∃ t, exec (.coreReset n g k) s = .next t ∧ t.pending = s.pending ∧ CauseIs s t 6 n.toNat g.toNat ∧
      t.dev.mem = s.dev.mem ∧ (bootStep s.dev < 7 → t.dev.cores = s.dev.cores) ∧
      (7 ≤ bootStep s.dev → coreFenced s.dev n.toNat = false → CoreReset t.dev n.toNat ∧
        coreFenced t.dev n.toNat = k ∧ (k = true → n.toNat ∈ t.dev.flash.fences ∨ 64 ≤ t.dev.flash.fences.length)) ∧
      ∀ m, m ≠ n.toNat → getCore t.dev m = getCore s.dev m)

/-- Queries, telemetry, page, pin, retirement and data commands have the effects and answers of the SCI (R378,
R382, R383, R384, R240, R241, R243, R271, R290, R292, R293, R494). -/
def Obligations.QueriesPagesAndDataCommandsAnswer : Prop :=
  (∀ (q : SciReq) (item : Word) (nonce : List Byte) (s : State) (r : Resp) (d : Dev), Accepted s q 0x02 false r d →
    (8 ≤ item.toNat ∨ (item = 4 ∧ nonce.length ≠ 64) → Answers (.query q item nonce) s d r 0x03 []) ∧
    (item = 1 → ∃ bs, Answers (.query q item nonce) s d r 0 bs ∧ bs.length = 256 ∧
      ∀ n, n < 2048 → bit (bs.getD (n / 8) 0) (n % 8) = !coreFenced d n) ∧
    (item = 3 → Answers (.query q item nonce) s d r 0
      (natBytes 8 (regGet d aWearUp).toNat ++ natBytes 8 (regGet d aWearLo).toNat)) ∧
    (item = 4 → nonce.length = 64 → ∃ e bs, Answers (.query q item nonce) s e r 0 bs ∧ e = { d with free := e.free } ∧
      bs.take 4 = natBytes 4 0x54415350 ∧ (bs.drop 32).take 64 = nonce ∧
      (bs.drop 96).take 64 = natBytes 64 (d.boot.measured.getD 0 0).toNat) ∧
    (item = 5 → Answers (.query q item nonce) s d r 0 ((d.hpt.sessions.map (·.1)).flatMap (natBytes 2))) ∧
    (item = 6 → Answers (.query q item nonce) s d r 0 (d.flash.frames.flatMap (natBytes 4))) ∧
    (item = 0 ∨ item = 2 ∨ item = 7 → ∃ bs, Answers (.query q item nonce) s d r 0 bs)) ∧
  (∀ (q : SciReq) (p : Word) (s : State) (r : Resp) (d : Dev), Accepted s q 0x03 false r d →
    (p = 0 → Answers (.telemetry q p) s d r 0 (telemetryRecord d)) ∧
    (∀ sn m x, q.origin = .host sn m → getSession d sn.toNat = some x → p ≠ 0 →
      (p.toNat ≤ 60000 → x.subs.length < 4 →
        Answers (.telemetry q p) s (putSession d sn.toNat (some { x with subs := x.subs ++ [p.toNat] })) r 0
          (telemetryRecord d)) ∧
      (p.toNat ≤ 60000 → 4 ≤ x.subs.length → Answers (.telemetry q p) s d r 0x08 []) ∧
      (60000 < p.toNat → p.toNat ≠ 0xFFFFFFFF → Answers (.telemetry q p) s d r 0x03 []) ∧
      (p.toNat = 0xFFFFFFFF → Answers (.telemetry q p) s (putSession d sn.toNat (some { x with subs := [] })) r 0 [])) ∧
    (∀ m f, q.origin = .fabric m f → p ≠ 0 → Answers (.telemetry q p) s d r 0x03 [])) ∧
  (∀ (n : BitVec 16) (i : Nat) (s : State) (x : Session), getSession s.dev n.toNat = some x → i < x.subs.length →
    x.txCnt < lastCount →
    ∃ t f, exec (.telemetryPeriod n i) s = .next t ∧ PortsOnly s t ∧ t.dev.regs = s.dev.regs ∧
      (getHost t.dev x.port).txq = (getHost s.dev x.port).txq ++ [f] ∧ f.frame.event = true ∧ f.frame.session = n.toNat ∧
      f.frame.payload = natBytes 4 1 ++ telemetryRecord s.dev) ∧
  (∀ (q : SciReq) (page pages frame : Word) (w : D64) (s : State) (r : Resp) (d : Dev), Accepted s q 0x08 true r d →
    (pages = 0 ∨ 524288 < page.toNat + pages.toNat ∨ w &&& ~~~0x1FFFF80000000000 ≠ 0 ∨
        (frame.toNat ≠ 0xFFFFFFFF ∧ frameCount d ≤ frame.toNat + pages.toNat - 1) →
      Answers (.map q page pages frame w) s d r 0x03 []) ∧
    (pages ≠ 0 → page.toNat + pages.toNat ≤ 524288 → w &&& ~~~0x1FFFF80000000000 = 0 →
      (frame.toNat = 0xFFFFFFFF ∨ frame.toNat + pages.toNat ≤ frameCount d) →
      ((∃ i, i < pages.toNat ∧ pteMaps d (pmapEntry d (page.toNat + i)) = true) →
        Answers (.map q page pages frame w) s d r 0x0F []) ∧
      ((∀ i, i < pages.toNat → pteMaps d (pmapEntry d (page.toNat + i)) = false) →
        (frame.toNat ≠ 0xFFFFFFFF → (∀ i, i < pages.toNat → frame.toNat + i ∉ usedFrames d) →
          ((∃ i, i < pages.toNat ∧ frame.toNat + i ∈ d.flash.frames) →
            Answers (.map q page pages frame w) s d r 0x10 []) ∧
          ((∀ i, i < pages.toNat → frame.toNat + i ∉ d.flash.frames) →
            ∃ e, Answers (.map q page pages frame w) s e r 0 (natBytes 4 frame.toNat) ∧
              MapsPages d e page.toNat pages.toNat frame.toNat w)) ∧
        (frame.toNat = 0xFFFFFFFF → ∃ e st bs, Answers (.map q page pages frame w) s e r st bs ∧
          (st = 0x10 ∧ e.pmap = d.pmap ∨ ∃ g, st = 0 ∧ bs = natBytes 4 g ∧ MapsPages d e page.toNat pages.toNat g w ∧
            ∀ i, i < pages.toNat → g + i < frameCount d ∧ g + i ∉ usedFrames d ∧ g + i ∉ d.flash.frames))))) ∧
  (∀ (q : SciReq) (page pages : Word) (s : State) (r : Resp) (d : Dev), Accepted s q 0x09 true r d →
    mayShoot s.dev ((List.range pages.toNat).map (page.toNat + ·)) = true →
    (524288 < page.toNat + pages.toNat → Answers (.unmap q page pages) s d r 0x03 []) ∧
    (page.toNat + pages.toNat ≤ 524288 → ∃ e, Answers (.unmap q page pages) s e r 0 [] ∧
      ∀ k, pteMaps e (pmapEntry e k) =
        (pteMaps d (pmapEntry d k) && !decide (page.toNat ≤ k ∧ k < page.toNat + pages.toNat)))) ∧
  (∀ (q : SciReq) (a n : D64) (s : State) (r : Resp) (d : Dev), budgetOk s.dev 2123 = true → Accepted s q 0x0A false r d →
    (inDevice a.toNat n.toNat = false → Answers (.pin q a n) s d r 0x0B []) ∧
    (inDevice a.toNat n.toNat = true → ∀ x e, pinRange d a.toNat n.toNat = (x, e) →
      (x.status ≠ 0 → Answers (.pin q a n) s e r (sciOf x.status) []) ∧
      (x.status = 0 → Answers (.pin q a n) s e r (if x.left = true then 0x12 else 0) (natBytes 8 x.pinned) ∧
        (x.left = false → x.pinned = spanLines a.toNat n.toNat)))) ∧
  (∀ (q : SciReq) (a n : D64) (s : State) (r : Resp) (d : Dev), budgetOk s.dev 2123 = true → Accepted s q 0x0B false r d →
    (inDevice a.toNat n.toNat = false → Answers (.unpin q a n) s d r 0x0B []) ∧
    (inDevice a.toNat n.toNat = true → ∃ e x, Answers (.unpin q a n) s e r (sciOf x) [] ∧
      (n = 0 → x = 0 ∧ e = d))) ∧
  (∀ (q : SciReq) (mig : Bool) (page : Word) (s : State) (r : Resp) (d : Dev), mayShoot s.dev [page.toNat] = true →
    Accepted s q 0x0C true r d →
    (524288 ≤ page.toNat → Answers (.retirePage q mig page) s d r 0x03 []) ∧
    (page.toNat < 524288 → markOf d 0x0C 0 page.toNat = none →
      (pteMaps d (pmapEntry d page.toNat) = false → Answers (.retirePage q mig page) s d r 0x0C []) ∧
      (pteMaps d (pmapEntry d page.toNat) = true →
        d.flash.frames.length < 1024 ∨ pteFrame (pmapEntry d page.toNat) ∈ d.flash.frames →
        ∃ e st g, Answers (.retirePage q mig page) s e r st (natBytes 4 g) ∧
          pteFrame (pmapEntry d page.toNat) ∈ e.flash.frames ∧ (∀ f ∈ d.flash.frames, f ∈ e.flash.frames) ∧
          (∀ k, k ≠ page.toNat → pmapEntry e k = pmapEntry d k) ∧
          (st = 0 ∧ mig = false ∨ st = 0x10 ∧ mig = true →
            g = pteFrame (pmapEntry d page.toNat) ∧
            pmapEntry e page.toNat = setBits (pmapEntry d page.toNat) 61 1 1) ∧
          (st = 0 → mig = true → g ∉ d.flash.frames ∧ g < frameCount d ∧
            (∀ k, pteMaps d (pmapEntry d k) = true → pteFrame (pmapEntry d k) ≠ g) ∧
            pmapEntry e page.toNat = setBits (setBits (pmapEntry d page.toNat) 61 1 0) 0 19 g) ∧
          (mig = false → st = 0) ∧ (st = 0 ∨ st = 0x10)))) ∧
  (∀ (q : SciReq) (sl : BitVec 16) (b : Byte) (s : State) (r : Resp) (d : Dev), Accepted s q 0x0C true r d →
    (2048 ≤ sl.toNat ∨ 16 < b.toNat → Answers (.retireCacheBank q sl b) s d r 0x03 []) ∧
    (sl.toNat < 2048 → b.toNat ≤ 16 → ∃ e, Answers (.retireCacheBank q sl b) s e r 0 (natBytes 4 0) ∧
      ((retireBank d sl.toNat b.toNat).1 = true → e.slices = (retireBank d sl.toNat b.toNat).2.slices ∧
        e.flash.banks = if d.flash.banks.length < 256 then d.flash.banks ++ [(sl.toNat, b.toNat)] else d.flash.banks) ∧
      ((retireBank d sl.toNat b.toNat).1 = false → e.flash = d.flash))) ∧
  (∀ (q : SciReq) (a : D64) (bs : List Byte) (s : State) (r : Resp) (d : Dev), portHeld s.dev q 0x10 = false →
    Accepted s q 0x10 false r d →
    (bs = [] → Answers (.put q a bs) s d r 0 []) ∧
    (bs ≠ [] → rangeOpen a.toNat bs.length = false → Answers (.put q a bs) s d r 0x0B []) ∧
    (bs ≠ [] → rangeOpen a.toNat bs.length = true → oneRegion a.toNat bs.length = false →
      Answers (.put q a bs) s d r 0x03 []) ∧
    (bs ≠ [] → rangeOpen a.toNat bs.length = true → oneRegion a.toNat bs.length = true →
      ∀ st e, localWrite d (2120 + r.port) 4 a.toNat bs = (st, e) → Answers (.put q a bs) s (noteHost e r st a.toNat bs.length) r (sciOf st) [])) ∧
  (∀ (q : SciReq) (a : D64) (n : Word) (s : State) (r : Resp) (d : Dev), portHeld s.dev q 0x11 = false →
    Accepted s q 0x11 false r d →
    (maxPay d r.port < n.toNat + 16 → Answers (.get q a n) s d r 0x03 []) ∧
    (n.toNat + 16 ≤ maxPay d r.port → (n = 0 → Answers (.get q a n) s d r 0 []) ∧
      (n ≠ 0 → rangeOpen a.toNat n.toNat = false → Answers (.get q a n) s d r 0x0B []) ∧
      (n ≠ 0 → rangeOpen a.toNat n.toNat = true → oneRegion a.toNat n.toNat = false →
        Answers (.get q a n) s d r 0x03 []) ∧
      (n ≠ 0 → rangeOpen a.toNat n.toNat = true → oneRegion a.toNat n.toNat = true →
        ∀ st bs e, localRead d (2120 + r.port) 4 a.toNat n.toNat = ((st, bs), e) →
        Answers (.get q a n) s (noteHost e r st a.toNat n.toNat) r (sciOf st) (if st = 0 then bs else [])))) ∧
  (∀ (q : SciReq) (a b n : D64) (en k : Byte) (s : State) (r : Resp) (d : Dev), Accepted s q 0x12 false r d →
    ((63 < en.toNat ∧ en ≠ 0xFF) ∨ (7 < k.toNat ∧ k ≠ 0xFF) → Answers (.copy q a b n en k) s d r 0x03 []) ∧
    (en.toNat ≤ 63 → k.toNat ≤ 7 ∨ k = 0xFF →
      (64 ≤ (getEngine d en.toNat).descs.length → Answers (.copy q a b n en k) s d r 0x08 []) ∧
      ((getEngine d en.toNat).descs.length < 64 → exec (.copy q a b n en k) s = .next (s.withDev
        (addCopy d en.toNat { resp := r, src := a, dst := b, len := n.toNat, cls := if k = 0xFF then 4 else k.toNat,
                              off := 0, tag := none, status := 0 })))) ∧
    (en = 0xFF → k.toNat ≤ 7 ∨ k = 0xFF →
      ((∀ i, i < 64 → 64 ≤ (getEngine d i).descs.length) → Answers (.copy q a b n en k) s d r 0x08 []) ∧
      ∀ i, i < 64 → (getEngine d i).descs.length < 64 → ∃ j, j < 64 ∧ (getEngine d j).descs.length < 64 ∧
        (getEngine d j).descs.length + 64 * b2n (getEngine d j).halted ≤
          (getEngine d i).descs.length + 64 * b2n (getEngine d i).halted ∧
        exec (.copy q a b n en k) s = .next (s.withDev (addCopy d j { resp := r, src := a, dst := b, len := n.toNat,
                                                                      cls := if k = 0xFF then 4 else k.toNat, off := 0,
                                                                      tag := none, status := 0 }))))

/-- Modules, configurations, trees, fences, settings, resets, updates and roles have the effects of the SCI (R378,
R380, R385, R391, R344, R349, R350, R460, R480, R490, R491, R500). -/
def Obligations.ModulesTreesAndAdministrationAct : Prop :=
  (∀ (q : SciReq) (pc : Bool) (a : D64) (n : Word) (s : State) (r : Resp) (d : Dev),
    (pc = true → budgetOk s.dev 2123 = true) → Accepted s q 0x18 true r d →
    (a.toNat % 8 ≠ 0 → Answers (.loadModule q pc a n) s d r 0x03 []) ∧
    (a.toNat % 8 = 0 → inDevice a.toNat n.toNat = false → Answers (.loadModule q pc a n) s d r 0x0B []) ∧
    (a.toNat % 8 = 0 → inDevice a.toNat n.toNat = true → d.disp.modules.length < 1024 →
      ∀ x e, (if pc then pinRange d a.toNat n.toNat else ({ status := 0, pinned := 0, left := false }, d)) = (x, e) →
      (x.status ≠ 0 → Answers (.loadModule q pc a n) s e r (sciOf x.status) []) ∧
      (x.status = 0 → e.disp.modules = d.disp.modules → ∃ h f, 0 < h ∧ h < 2 ^ 32 ∧
        mapGet none d.disp.modules h = none ∧ Answers (.loadModule q pc a n) s f r (if x.left = true then 0x12 else 0) (natBytes 4 h) ∧
        mapGet none f.disp.modules h = some { addr := a.toNat, len := n.toNat } ∧
        (∀ k, k ≠ h → mapGet none f.disp.modules k = mapGet none d.disp.modules k) ∧
        (∀ k, (getCore f k).ic = []) ∧ f.mem = e.mem))) ∧
  (∀ (q : SciReq) (h : Word) (s : State) (r : Resp) (d : Dev), Accepted s q 0x18 true r d →
    (mapGet none d.disp.modules h.toNat = none → Answers (.unloadModule q h) s d r 0x13 []) ∧
    (mapGet none d.disp.modules h.toNat ≠ none →
      (moduleBusy d h.toNat = true → Answers (.unloadModule q h) s d r 0x08 []) ∧
      (moduleBusy d h.toNat = false → Answers (.unloadModule q h) s
        { d with disp := { d.disp with modules := mapDel d.disp.modules h.toNat } } r 0 []))) ∧
  (∀ (q : SciReq) (a : D64) (pin : Bool) (s : State) (r : Resp) (d : Dev), budgetOk s.dev 2123 = true →
    Accepted s q 0x19 true r d →
    (a.toNat % 64 ≠ 0 → Answers (.loadConfig q a pin) s d r 0x03 []) ∧
    (a.toNat % 64 = 0 → inDevice a.toNat 64 = false → Answers (.loadConfig q a pin) s d r 0x0B []) ∧
    (a.toNat % 64 = 0 → inDevice a.toNat 64 = true → ∀ st id n e, checkImage d a.toNat = ((st, id, n), e) →
      (st ≠ 0 → Answers (.loadConfig q a pin) s (noteUe e (coreOfW q) 0x19 st a.toNat) r st []) ∧
      (st = 0 → pin = false → Answers (.loadConfig q a pin) s e r 0 (natBytes 8 id)) ∧
      (st = 0 → pin = true → ∀ x f, pinRange e a.toNat n = (x, f) →
        (x.status = 0 → Answers (.loadConfig q a pin) s f r (if x.left = true then 0x12 else 0) (natBytes 8 id)) ∧
        (x.status ≠ 0 → Answers (.loadConfig q a pin) s f r (sciOf x.status) [])))) ∧
  (∀ (q : SciReq) (a : TreeArgs) (im : BitVec 512) (s : State) (r : Resp) (d : Dev) (c : Nat),
    Accepted s q 0x28 false r d → c = a.context.toNat →
    (1024 ≤ c ∨ 1 < a.auto.toNat → Answers (.treeOpen q a im) s d r 0x03 [] ∧ Answers (.treeStart q a) s d r 0x03 [] ∧
      Answers (.treeClose q a) s d r 0x03 [] ∧ Answers (.treeAbort q a) s d r 0x03 []) ∧
    (c < 1024 → a.auto.toNat ≤ 1 →
      (lcState (getCtx d c) ≠ lcFree → Answers (.treeOpen q a im) s d r 0x1C []) ∧
      (lcState (getCtx d c) = lcFree → ∀ st e, ctxOpen (putCtx d c { getCtx d c with
          image := ((getCtx d c).image &&& ~~~lcRwMask) ||| (im &&& lcRwMask) }) c = (st, e) →
        (st ≠ 0 → Answers (.treeOpen q a im) s e r 0x1C []) ∧
        (st = 0 → ∃ f x, Answers (.treeOpen q a im) s f r 0 (natBytes 1 (lcState x)) ∧ getCtx f c = x ∧
          x = { getCtx e c with startSig := a.startSig.toNat, doneSig := a.doneSig.toNat, armed := false, auto := false,
                                gen := 0, asked := none })) ∧
      ((getCtx d c).startSig ≠ 0xFFFF →
        (lcLive (getCtx d c) = false → Answers (.treeStart q a) s d r 0x1C []) ∧
        (lcLive (getCtx d c) = true → ∃ f x, Answers (.treeStart q a) s f r 0 (natBytes 1 (lcState x)) ∧
          getCtx f c = x ∧ x.armed = true ∧ x.auto = decide (a.auto = 1) ∧ x.startVal = a.startValue ∧
          x.image = (getCtx d c).image)) ∧
      ((getCtx d c).startSig = 0xFFFF →
        (lcState (getCtx d c) ≠ lcOpen → lcState (getCtx d c) ≠ lcDone → Answers (.treeStart q a) s d r 0x1C []) ∧
        (lcState (getCtx d c) = lcOpen ∨ lcState (getCtx d c) = lcDone → isBarrier (getCtx d c) = false →
          ∃ f, Answers (.treeStart q a) s f r 0 (natBytes 1 lcRunning) ∧ lcState (getCtx f c) = lcRunning)) ∧
      (∀ st e, ctxClose d c = (st, e) → Answers (.treeClose q a) s e r (if st = 0 then 0 else 0x1C)
        (if st = 0 then natBytes 1 (lcState (getCtx e c)) else [])) ∧
      (∀ st e, ctxAbort d c = (st, e) → Answers (.treeAbort q a) s e r (if st = 0 then 0 else 0x1C)
        (if st = 0 then natBytes 1 (lcState (getCtx e c)) else [])))) ∧
  (∀ (q : SciReq) (n : BitVec 16) (s : State) (r : Resp) (d : Dev), Accepted s q 0x30 true r d →
    (2048 ≤ n.toNat → Answers (.fenceCore q n) s d r 0x03 []) ∧
    (n.toNat < 2048 → coreFenced d n.toNat = true → Answers (.fenceCore q n) s d r 0 []) ∧
    (n.toNat < 2048 → coreFenced d n.toNat = false → ∃ t, exec (.fenceCore q n) s = .next t ∧ t.pending = s.pending ∧
      (getCore t.dev n.toNat).fencing = true ∧ t.dev.disp = { d.disp with fencing := d.disp.fencing ++ [(n.toNat, r)] } ∧
      t.dev.flash = d.flash ∧ t.dev.mem = d.mem)) ∧
  (∀ (q : SciReq) (item : Word) (v : List Byte) (s : State) (r : Resp) (d : Dev), Accepted s q 0x04 true r d →
    (v.length ≠ 36 ∨ 4 ≤ item.toNat → Answers (.setting q item v) s d r 0x03 []) ∧
    (v.length = 36 → item = 0 → (1 < bytesNat v → Answers (.setting q item v) s d r 0x03 []) ∧
      (bytesNat v ≤ 1 → Answers (.setting q item v) s { d with flash := { d.flash with mode := bytesNat v } } r 0 v)) ∧
    (v.length = 36 → item = 1 → (2 < bytesNat v → Answers (.setting q item v) s d r 0x03 []) ∧
      (bytesNat v ≤ 2 → ∃ e, Answers (.setting q item v) s e r 0 v ∧
        e.flash = { d.flash with envelope := bytesNat v } ∧
        (bit (regGet d aEnv) 63 = false → regField e aEnv 48 2 = bytesNat v ∧
          bit (regGet e aEnv) 63 = decide (bytesNat v ≠ envNow d)))) ∧
    (v.length = 36 → item = 2 → (1 < fieldAt v 0 4 → Answers (.setting q item v) s d r 0x03 []) ∧
      (fieldAt v 0 4 ≤ 1 → ∃ t, exec (.setting q item v) s = .next t ∧ t.pending = s.pending ∧
        regGet t.dev (aHptCfg (fieldAt v 0 4)) = BitVec.ofNat 64 (fieldAt v 4 8) &&& 0xFFFFFCFFFFFFFFFF ∧
        regGet t.dev (aHptIpv6Lo (fieldAt v 0 4)) = BitVec.ofNat 64 (fieldAt v 28 8) ∧
        (aHptCfg (fieldAt v 0 4), BitVec.ofNat 64 (fieldAt v 4 8) &&& 0xFFFFFCFFFFFFFFFF) ∈ t.dev.flash.ports)) ∧
    (v.length = 36 → item = 3 → ∀ sn m, q.origin = .host sn m →
      ∃ t, exec (.setting q item v) s = .next t ∧ t.pending = s.pending ∧ t.dev.fab.sink = some sn.toNat ∧
        t.dev.mem = d.mem ∧ ∀ i, 4 ≤ i → i < 64 → getBox t.dev i = [])) ∧
  (∀ (q : SciReq) (k : Byte) (i : BitVec 16) (s : State) (r : Resp) (d : Dev), Accepted s q 0x31 true r d →
    (resetNamed k.toNat i.toNat = false → Answers (.reset q k i) s d r 0x03 []) ∧
    (∀ j, (j = 1 ∨ j = 2) → k.toNat = j → i = 0 → ∃ t, exec (.reset q k i) s = .next t ∧ t.pending = s.pending ∧
      DiesCleared t.dev ∧ isReady t.dev = false ∧ regField t.dev aResetCause 60 4 = j ∧
      regField t.dev aResetCause 56 4 = 0) ∧
    (3 ≤ k.toNat → k.toNat ≤ 6 → i.toNat < [1, 2, 64, 2048].getD (k.toNat - 3) 0 → runningResets d = [] →
      d.boot.queued = [] → ∃ t, exec (.reset q k i) s = .next t ∧ t.pending = s.pending ∧
        t.dev.boot = { d.boot with queued := [(k.toNat, i.toNat, 0)] } ∧ t.dev.mem = d.mem ∧ t.dev.cores = d.cores)) ∧
  (∀ (q : SciReq) (c : Byte) (a : D64) (n : Word) (im : ImageInfo) (s : State) (r : Resp) (d : Dev),
    budgetOk s.dev 2123 = true → Accepted s q 0x32 true r d →
    (2 ≤ c.toNat → Answers (.update q c a n im) s d r 0x03 []) ∧
    (c.toNat < 2 → inDevice a.toNat n.toNat = false → Answers (.update q c a n im) s d r 0x0B []) ∧
    (c.toNat < 2 → inDevice a.toNat n.toNat = true → ∀ st bs e k, readDev d 7 a.toNat n.toNat = ((st, bs), e) →
      k = bits (commitWord d) (16 + c.toNat) 1 →
      (st ≠ 0 → Answers (.update q c a n im) s (noteUe e 3 0x32 (sciOf st) a.toNat) r (sciOf st) []) ∧
      (st = 0 → imageVerified im = false ∨ im.component ≠ c ∨ n.toNat < 0x2000 + im.bodyLen.toNat →
        Answers (.update q c a n im) s e r 0x1D []) ∧
      (st = 0 → imageVerified im = true → im.component = c → 0x2000 + im.bodyLen.toNat ≤ n.toNat →
        (im.rollback.toNat < d.fuses.rollback → e.fuses = d.fuses → Answers (.update q c a n im) s e r 0x1E []) ∧
        (d.fuses.rollback ≤ im.rollback.toNat → e.fuses = d.fuses → e.flash = d.flash →
          (im.readBack = false → ∃ f, Answers (.update q c a n im) s f r 0x1D [] ∧
            f.flash.commit = d.flash.commit ∧ (fwSlot f c.toNat (1 - k)).part = true ∧
            fwSlot f c.toNat k = fwSlot d c.toNat k) ∧
          (im.readBack = true → d.flash.commit.length = 2 → bits (commitWord d) 32 32 < 2 ^ 32 - 1 →
            ∃ f, Answers (.update q c a n im) s f r 0 (natBytes 8 im.version.toNat) ∧
              bits (commitWord f) (16 + c.toNat) 1 = 1 - k ∧
              bits (commitWord f) (17 - c.toNat) 1 = bits (commitWord d) (17 - c.toNat) 1 ∧
              fwSlot f c.toNat (1 - k) = { whole := true, part := false, rollback := im.rollback.toNat,
                                           version := im.version } ∧
              fwSlot f c.toNat k = fwSlot d c.toNat k ∧ bit (regGet f aSecBoot) 58 = true))))) ∧
  (∀ (q : SciReq) (k : Byte) (mv : Bool) (m : Word) (s : State) (r : Resp) (d : Dev), Accepted s q 0x33 true r d →
    (2 < k.toNat ∨ 2 ^ 17 ≤ m.toNat → Answers (.role q k mv m) s d r 0x03 []) ∧
    (k.toNat ≤ 2 → m.toNat < 2 ^ 17 → ∃ e, Answers (.role q k mv m) s e r 0 [] ∧
      regField e aFabRole 62 2 = k.toNat ∧ bit (regGet e aFabRole) 61 = mv ∧ regField e aFabRole 0 17 = m.toNat ∧
      e.flash = { d.flash with role := regGet e aFabRole } ∧ ∀ a, a ≠ aFabRole → regGet e a = regGet d a)) ∧
  (∀ (q : SciReq) (m : Word) (s : State) (r : Resp) (d : Dev), Accepted s q 0x33 true r d →
    (2 ^ 17 ≤ m.toNat → Answers (.roleDeviceId q m) s d r 0x03 []) ∧
    (m.toNat < 2 ^ 17 → ∃ e, Answers (.roleDeviceId q m) s e r 0 [] ∧
      regGet e aFabId = BitVec.ofNat 64 (2 ^ 63 + m.toNat) ∧ e.flash = { d.flash with ident := regGet e aFabId } ∧
      ∀ a, a ≠ aFabId → regGet e a = regGet d a)) ∧
  (∀ (q : SciReq) (f : Word) (l : List Word) (s : State) (r : Resp) (d : Dev), Accepted s q 0x33 true r d →
    (l = [] ∨ 100 < l.length ∨ 131072 < f.toNat + l.length → Answers (.roleRouteEntries q f l) s d r 0x03 []) ∧
    (l ≠ [] → l.length ≤ 100 → f.toNat + l.length ≤ 131072 → ∃ e, Answers (.roleRouteEntries q f l) s e r 0 [] ∧
      e.mem = d.mem ∧ (∀ i w, l[i]? = some w → routeEntry e (f.toNat + i) = routeEntry (writeRoute d (f.toNat + i) w) (f.toNat + i)) ∧
      ∀ k, k < f.toNat ∨ f.toNat + l.length ≤ k → routeEntry e k = routeEntry d k))

/-- Registers are read and written by their access types, and management, owner list, debug tokens and scan act
(R14, R67, R263, R396, R448, R453, R454, R485, R497, R498). -/
def Obligations.RegistersAndManagementAct : Prop :=
  (∀ (a : BitVec 47) (s : State), inDevice a.toNat 8 = false → ∃ t, exec (.registerReadClear a) s = .next t ∧ t.pending = s.pending ∧
    t.dev = { s.dev with regs := t.dev.regs, funnel := t.dev.funnel, lastRead := t.dev.lastRead } ∧
    (inCcw a.toNat = true → coreFenced s.dev (ccwCore a.toNat) = true →
      t.dev.lastRead = 0 ∧ t.dev.regs = s.dev.regs ∧ t.dev.funnel = s.dev.funnel) ∧
    (inCcw a.toNat = false ∨ coreFenced s.dev (ccwCore a.toNat) = false →
      (accOf a.toNat = none → t.dev.lastRead = 0 ∧ t.dev.regs = s.dev.regs ∧
        Logged s.dev t.dev (src 8 1) 5 0x01 a.toNat 0 0) ∧
      (∀ k, accOf a.toNat = some k → t.dev.lastRead = regView s.dev a.toNat ∧ t.dev.funnel = s.dev.funnel ∧
        (∀ b, b ≠ a.toNat → regGet t.dev b = regGet s.dev b) ∧
        ∀ i, i < 64 → bit (regGet t.dev a.toNat) i =
          if bit k.rc i = true then bit (regReset a.toNat) i else bit (regGet s.dev a.toNat) i))) ∧
  (∀ (a : BitVec 47) (s : State), inDevice a.toNat 8 = true → budgetOk s.dev 2123 = true →
    (∀ st bs d, readDev (spendRange s.dev 2123 a.toNat 8) 7 a.toNat 8 = ((st, bs), d) →
      ∃ t, exec (.registerReadClear a) s = .next t ∧ t.pending = s.pending ∧ t.dev.mem = d.mem ∧
        t.dev.slices = d.slices ∧ t.dev.lastRead = if st = 0 then BitVec.ofNat 64 (bytesNat bs) else 0) ∧
    (∀ (v : D64) st d, writeDev (spendRange s.dev 2123 a.toNat 8) 7 a.toNat (natBytes 8 v.toNat) = (st, d) →
      ∃ t, exec (.registerWrite a v) s = .next t ∧ t.pending = s.pending ∧ t.dev.mem = d.mem ∧
        t.dev.slices = d.slices)) ∧
  (∀ (a : BitVec 47) (v : D64) (s : State), inDevice a.toNat 8 = false →
    (inCcw a.toNat = true → coreFenced s.dev (ccwCore a.toNat) = true → exec (.registerWrite a v) s = .next s) ∧
    (inCcw a.toNat = false ∨ coreFenced s.dev (ccwCore a.toNat) = false →
      (accOf a.toNat = none → ∃ t, exec (.registerWrite a v) s = .next t ∧ RegsOnly s t ∧ t.dev.regs = s.dev.regs ∧
        Logged s.dev t.dev (src 8 1) 5 0x01 a.toNat v.toNat 0) ∧
      (∀ k, accOf a.toNat = some k → ownBehaviour a.toNat = false →
        ∃ t, exec (.registerWrite a v) s = .next t ∧ RegsOnly s t ∧ t.dev.funnel = s.dev.funnel ∧
          (∀ b, b ≠ a.toNat → regGet t.dev b = regGet s.dev b) ∧ WrittenBy k v s.dev t.dev a.toNat))) ∧
  (∀ (v : D64) (s : State) (w : Nat → BitVec 47), w = BitVec.ofNat 47 →
    exec (.registerWrite (w aEnv) v) s = exec (.envelopeSwitch v) s ∧
    exec (.registerWrite (w aSensorClr) v) s = exec (.sensorClear v) s ∧
    exec (.registerWrite (w aErrInject) v) s = exec (.errInjectArm v) s ∧
    exec (.registerWrite (w aShoot) v) s = exec (.shootdownStart v) s ∧
    exec (.registerWrite (w aRtData) v) s = exec (.routeEntryWrite v) s ∧
    (∀ c : BitVec 3, exec (.registerWrite (w (aMissShare 0 + 8 * c.toNat)) v) s = exec (.missShareWrite c v) s) ∧
    (∀ p : BitVec 19, exec (.registerWrite (w (0x7B0000000000 + 8 * p.toNat)) v) s = exec (.pageMapWrite p 8 v) s) ∧
    (∀ i : BitVec 6, exec (.registerWrite (w (aRuleLo i.toNat)) v) s = exec (.sorRuleWrite i false v) s ∧
      exec (.registerWrite (w (aRuleHi i.toNat)) v) s = exec (.sorRuleWrite i true v) s) ∧
    (∀ h : BitVec 1, exec (.registerWrite (w (cdcw h.toNat + 0x10)) v) s = exec (.writebackAll h v) s)) ∧
  (∀ (s : State), s.dev.sor.running = true →
    (∀ a : BitVec 7, exec (.managementMessage (.assignAddress a)) s =
      .next (s.withDev { s.dev with sor := { s.dev.sor with smbus := a.toNat } })) ∧
    (∀ r rs, s.dev.funnel.mgmtq = r :: rs → ∃ t, exec (.managementMessage .readEvent) s = .next t ∧
      t.pending = s.pending ∧ t.dev.funnel = { s.dev.funnel with mgmtq := rs } ∧
      t.dev.sor = { s.dev.sor with mgmtOut := [r] } ∧
      regField t.dev aAlertCfg 16 16 = min rs.length 65535 ∧ t.dev.mem = s.dev.mem) ∧
    (s.dev.funnel.mgmtq = [] → exec (.managementMessage .readEvent) s =
      .next (s.withDev { s.dev with sor := { s.dev.sor with mgmtOut := [] } })) ∧
    exec (.managementMessage .readFlashLog) s =
      .next (s.withDev { s.dev with sor := { s.dev.sor with mgmtOut := s.dev.flash.log } }) ∧
    (∀ a k, accOf a.toNat = some k → inCcw a.toNat = false →
      ∃ t, exec (.managementMessage (.readRegister a)) s = .next t ∧ t.pending = s.pending ∧
        t.dev.sor = { s.dev.sor with mgmtRead := regView s.dev a.toNat } ∧
        ∀ b, b ≠ a.toNat → regGet t.dev b = regGet s.dev b) ∧
    (∀ a v k, accOf a.toNat = some k → inCcw a.toNat = false → ownBehaviour a.toNat = false →
      ∃ t, exec (.managementMessage (.writeRegister a v)) s = .next t ∧ RegsOnly s t ∧
        (∀ b, b ≠ a.toNat → regGet t.dev b = regGet s.dev b) ∧ WrittenBy k v s.dev t.dev a.toNat) ∧
    (∃ t, exec (.managementMessage .moduleReset) s = .next t ∧ t.pending = s.pending ∧ DiesCleared t.dev ∧
      isReady t.dev = false ∧ CauseIs s t 1 0 2)) ∧
  (∀ (sg ok : Bool) (k : BitVec 512) (ks : List (BitVec 512)) (s : State), s.dev.sor.running = true → ks.length ≤ 8 →
    (sg = true → ok = true → (∃ l, s.dev.flash.owners = some l ∧ k ∈ l) → exec (.ownerListChange sg ok k ks) s =
      .next (s.withDev { s.dev with flash := { s.dev.flash with owners := some ks } })) ∧
    (sg = true → ok = false ∨ s.dev.flash.owners = none ∨ (∃ l, s.dev.flash.owners = some l ∧ k ∉ l) →
      exec (.ownerListChange sg ok k ks) s = .next s) ∧
    (sg = false → ∃ t, exec (.ownerListChange sg ok k ks) s = .next t ∧ t.pending = s.pending ∧ DiesCleared t.dev ∧
      CauseIs s t 2 0 10 ∧ t.dev.flash = { s.dev.flash with owners := some ks })) ∧
  (∀ (x : Token) (s : State), s.dev.sor.rails = true →
    (x.fusedId = s.dev.fuses.fusedId → s.dev.boot.nonce = some x.nonce → x.sigOk = true →
      ∃ t, exec (.debugToken x) s = .next t ∧ t.pending = s.pending ∧ DiesCleared t.dev ∧ CauseIs s t 2 0 6 ∧
        debugOn t.dev = true ∧ t.dev.boot.scan = x.scope ∧ ∃ r ∈ t.dev.funnel.flashq, r.cls = 0 ∧ r.code = 0x0605) ∧
    (x.fusedId ≠ s.dev.fuses.fusedId ∨ s.dev.boot.nonce ≠ some x.nonce ∨ x.sigOk = false →
      exec (.debugToken x) s = .next s)) ∧
  (∀ s : State, exec (.boundaryScan false) s = .next s ∧
    (s.dev.sor.rails = true → ∃ t n, exec (.boundaryScan true) s = .next t ∧ t.pending = s.pending ∧
      t.dev = { s.dev with boot := { s.dev.boot with nonce := some n }, free := t.dev.free }))

/-- Every step takes exactly the front command, adds none, and leaves every waiting command well formed
(00_scope.md, R14). -/
def Obligations.EveryStepTakesOneCommandFromTheQueue : Prop :=
  (∀ s t : State, step s = .next t → t.pending = s.pending.tail ∧
    ((∀ c ∈ s.pending, c.wf = true) → ∀ c ∈ t.pending, c.wf = true)) ∧
  (∀ s : State, (∀ f, step s ≠ .fault f) ∧ ∀ r, step s = .refused r → ∃ n, r = .notEnabled n) ∧
  (∀ s : State, s.pending = [] → ∃ t, step s = .next t ∧ t.pending = [] ∧
    t.dev = { s.dev with regs := t.dev.regs, now := s.dev.now + 1, clusters := t.dev.clusters, cores := t.dev.cores,
                         hpt := t.dev.hpt, reqs := t.dev.reqs, net := t.dev.net, miss := t.dev.miss,
                         budget := t.dev.budget, slices := t.dev.slices, mem := t.dev.mem, errs := t.dev.errs,
                         chk := t.dev.chk, funnel := t.dev.funnel } ∧
    (bit (regGet s.dev (aWbStatus 0)) 63 = false → bit (regGet s.dev (aWbStatus 1)) 63 = false →
      t.dev.slices = s.dev.slices ∧ t.dev.mem = s.dev.mem ∧ t.dev.errs = s.dev.errs ∧ t.dev.chk = s.dev.chk ∧
      t.dev.funnel = s.dev.funnel ∧ ∀ a, a ≠ aUsec → regGet t.dev a = regGet s.dev a) ∧
    t.dev.reqs.map (·.id) = s.dev.reqs.map (·.id) ∧
    (∀ r ∈ t.dev.reqs, ∃ r' ∈ s.dev.reqs, r = { r' with st := r.st, spent := r.spent, back := r.back }) ∧
    t.dev.hpt.sessions = s.dev.hpt.sessions ∧
    (bit (regGet s.dev aClkStatus) 59 = true → regGet t.dev aUsec = regGet s.dev aUsec + 1) ∧
    (bit (regGet s.dev aClkStatus) 59 = false → regGet t.dev aUsec = regGet s.dev aUsec) ∧
    ∀ n k g, getGroup (getCore t.dev n) k = some g → ∃ g', getGroup (getCore s.dev n) k = some g' ∧
      g = { g' with stall := g.stall })

/-- Every step keeps external memory in its canonical form, so that equal contents are equal data
(09_device_memory_and_addresses.md, R276). -/
def Obligations.EveryStepKeepsMemoryCanonical : Prop :=
  ∀ s t : State, Memory.wf s.dev.mem = true → step s = .next t → Memory.wf t.dev.mem = true

/-- Every command of the block, outside the core instructions, completes in every state and with all operands that
meet its rule's conditions (R256, R302, R314, R341, R351, R376, R379, 14_sorrel_thermal_and_envelopes.md,
15_errors_and_integrity.md, 16_bringup_reset_and_security.md). -/
def Obligations.EnabledCommandsComplete : Prop :=
  ∀ (c : Instr) (s : State), Enabled s c → Completes c s

/-- After power-on reset every register holds its table's reset value and nothing runs, waits or is stored (R16,
R65, R480, R482, R371, 15_errors_and_integrity.md Table 15.18). -/
def Obligations.ResetLeavesTheSpecsState : Prop :=
  (∀ a, regGet State.reset.dev a = regReset a) ∧
  regReset aClassPrio = 0xC0A68644 ∧ regReset aEnv = 0x0E10076C ∧ regReset aNoticeCfg = 0x80070C1000500014 ∧
  regReset aThermalCfg = 0x14320C0A14000000 ∧ regReset aDroopCfg = 0x00003C9600640000 ∧
  regReset aErrCfg = 0x02B00A0000000000 ∧ regReset aAlertCfg = 2 ∧ regReset aScrubCtrl = 0x315180 ∧
  regReset aWdogCfg = 0x300010000 ∧ regReset aFabCfg = 0x00000A0A03E80010 ∧
  (∀ p, p < 2 → regReset (aHptCfg p) = 0xE600008088B5B996) ∧ (∀ u, u < 32 → regReset (cvuw u) = 0x4000000000000000) ∧
  (∀ k, k < 8 → regReset (aWayMask k) = 0xFFFFFFFF) ∧ regReset aSecBoot = 0 ∧
  (∀ n k, getGroup (getCore State.reset.dev n) k = none) ∧
  (∀ n p, getTask (getCore State.reset.dev n) p = none) ∧
  (∀ c, (getCluster State.reset.dev c).st = .off) ∧ (∀ k i, getSet State.reset.dev k i = []) ∧
  (∀ p, pmapEntry State.reset.dev p = 0) ∧ (∀ n, getSession State.reset.dev n = none) ∧
  (∀ q, getQueue State.reset.dev q = none) ∧ State.reset.dev.funnel.seq = 0 ∧ State.reset.dev.reqs = [] ∧
  State.reset.pending = [] ∧ isReady State.reset.dev = false ∧ State.reset.dev.sor.running = false ∧
  Memory.wf State.reset.dev.mem = true ∧ ∀ f o, memByte State.reset.dev f o = 0
end

