-- ==== Sys2Proof/Laws/Maps.lean ====
section
/-! SUPPORT. Sparse maps: reading after a write, and the canonical form of memory, which every memory
operation keeps. -/

namespace Sys2Proof.Machine

/-! ## Reading after a write -/

theorem mapGet_del_same {α : Type} (dv : α) (m : SMap α) (k : Nat) : mapGet dv (mapDel m k) k = dv := by
  induction m with
  | nil => rfl
  | cons e m ih =>
    simp only [mapDel, List.filter_cons] at ih ⊢
    split
    · rename_i h
      simp only [mapGet]
      rw [if_neg (by simpa using h)]
      exact ih
    · exact ih

theorem mapGet_del_other {α : Type} (dv : α) (m : SMap α) (k j : Nat) (h : j ≠ k) :
    mapGet dv (mapDel m k) j = mapGet dv m j := by
  induction m with
  | nil => rfl
  | cons e m ih =>
    simp only [mapDel, List.filter_cons] at ih ⊢
    split
    · simp only [mapGet, ih]
    · rename_i hk
      have : e.1 = k := by simpa using hk
      simp only [mapGet, ih]
      rw [if_neg (by omega)]

theorem mapGet_ins_other {α : Type} (dv : α) (m : SMap α) (k j : Nat) (v : α) (h : j ≠ k) :
    mapGet dv (mapIns k v m) j = mapGet dv m j := by
  induction m with
  | nil => simp [mapIns, mapGet, Ne.symm h]
  | cons e m ih =>
    simp only [mapIns]
    split
    · simp [mapGet, Ne.symm h]
    · simp only [mapGet, ih]

theorem mapGet_ins_same {α : Type} (dv : α) (m : SMap α) (k : Nat) (v : α) (h : ∀ e ∈ m, e.1 ≠ k) :
    mapGet dv (mapIns k v m) k = v := by
  induction m with
  | nil => simp [mapIns, mapGet]
  | cons e m ih =>
    simp only [mapIns]
    split
    · simp [mapGet]
    · simp only [mapGet]
      rw [if_neg (h e (by simp))]
      exact ih fun x hx => h x (by simp [hx])

theorem mapDel_keys {α : Type} (m : SMap α) (k : Nat) : ∀ e ∈ mapDel m k, e.1 ≠ k := by
  intro e he
  simpa using (List.mem_filter.mp he).2

@[simp] theorem mapGet_put_same {α : Type} [DecidableEq α] (dv : α) (m : SMap α) (k : Nat) (v : α) :
    mapGet dv (mapPut dv m k v) k = v := by
  unfold mapPut
  split
  · rename_i h; rw [mapGet_del_same, h]
  · exact mapGet_ins_same dv _ k v (mapDel_keys m k)

/-- Another key reads as before, also where its unlisted value is another one (registers). -/
theorem mapGet_put_other_default {α : Type} [DecidableEq α] (dv dv' : α) (m : SMap α) (k j : Nat) (v : α)
    (h : j ≠ k) : mapGet dv' (mapPut dv m k v) j = mapGet dv' m j := by
  unfold mapPut
  split
  · exact mapGet_del_other dv' m k j h
  · rw [mapGet_ins_other dv' _ k j v h, mapGet_del_other dv' m k j h]

theorem mapGet_put_other {α : Type} [DecidableEq α] (dv : α) (m : SMap α) (k j : Nat) (v : α)
    (h : j ≠ k) : mapGet dv (mapPut dv m k v) j = mapGet dv m j := by
  unfold mapPut
  split
  · exact mapGet_del_other dv m k j h
  · rw [mapGet_ins_other dv _ k j v h, mapGet_del_other dv m k j h]

/-! ## The canonical form -/

/-- Keys strictly rising, and no entry equal to what an unlisted key reads as. -/
def Canonical {α : Type} (dv : α) (m : SMap α) : Prop :=
  m.Pairwise (fun a b => a.1 < b.1) ∧ ∀ e ∈ m, e.2 ≠ dv

theorem canonical_del {α : Type} (dv : α) (m : SMap α) (k : Nat) (h : Canonical dv m) :
    Canonical dv (mapDel m k) :=
  ⟨h.1.filter _, fun e he => h.2 e (List.mem_of_mem_filter he)⟩

theorem mapIns_mem {α : Type} (m : SMap α) (k : Nat) (v : α) (e : Nat × α) (he : e ∈ mapIns k v m) :
    e = (k, v) ∨ e ∈ m := by
  induction m with
  | nil => simpa [mapIns] using he
  | cons x m ih =>
    simp only [mapIns] at he
    split at he
    · simpa using he
    · rcases List.mem_cons.mp he with h | h
      · exact .inr (by simp [h])
      · rcases ih h with h | h
        · exact .inl h
        · exact .inr (by simp [h])

theorem canonical_ins {α : Type} (dv : α) (m : SMap α) (k : Nat) (v : α) (hv : v ≠ dv)
    (hk : ∀ e ∈ m, e.1 ≠ k) (h : Canonical dv m) : Canonical dv (mapIns k v m) := by
  refine ⟨?_, fun e he => ?_⟩
  · induction m with
    | nil => simp [mapIns]
    | cons x m ih =>
      have hp := List.pairwise_cons.mp h.1
      simp only [mapIns]
      split
      · rename_i hlt
        refine List.pairwise_cons.mpr ⟨fun e he => ?_, h.1⟩
        rcases List.mem_cons.mp he with r | r
        · rw [r]; exact hlt
        · exact Nat.lt_trans hlt (hp.1 e r)
      · rename_i hge
        have hx := hk x (by simp)
        refine List.pairwise_cons.mpr ⟨fun e he => ?_, ih (fun e he => hk e (by simp [he]))
          ⟨hp.2, fun e he => h.2 e (by simp [he])⟩⟩
        rcases mapIns_mem m k v e he with r | r
        · rw [r]; show x.1 < k; omega
        · exact hp.1 e r
  · rcases mapIns_mem m k v e he with r | r
    · rw [r]; exact hv
    · exact h.2 e r

theorem canonical_put {α : Type} [DecidableEq α] (dv : α) (m : SMap α) (k : Nat) (v : α)
    (h : Canonical dv m) : Canonical dv (mapPut dv m k v) := by
  unfold mapPut
  split
  · exact canonical_del dv m k h
  · rename_i hv
    exact canonical_ins dv _ k v hv (mapDel_keys m k) (canonical_del dv m k h)

/-! ## Memory -/

theorem Memory.wf_iff (m : List Host.Cell) : Memory.wf m = true ↔ Canonical (0 : Byte) m := by
  induction m with
  | nil => simp [Memory.wf, Canonical]
  | cons c m ih =>
    cases m with
    | nil => simp [Memory.wf, Canonical]
    | cons e m =>
      simp only [Memory.wf, Bool.and_eq_true, decide_eq_true_eq, ih]
      constructor
      · rintro ⟨⟨hc, hlt⟩, hp, hz⟩
        refine ⟨List.pairwise_cons.mpr ⟨fun x hx => ?_, hp⟩, fun x hx => ?_⟩
        · rcases List.mem_cons.mp hx with r | r
          · rw [r]; exact hlt
          · exact Nat.lt_trans hlt ((List.pairwise_cons.mp hp).1 x r)
        · rcases List.mem_cons.mp hx with r | r
          · rw [r]; exact hc
          · exact hz x r
      · rintro ⟨hp, hz⟩
        have h := List.pairwise_cons.mp hp
        exact ⟨⟨hz c (by simp), h.1 e (by simp)⟩, h.2, fun x hx => hz x (by simp [hx])⟩

theorem memStore_wf (m : List Host.Cell) (base : Nat) (data : Line) (mask : LMask)
    (h : Memory.wf m = true) : Memory.wf (memStore m base data mask) = true := by
  rw [Memory.wf_iff] at h ⊢
  unfold memStore
  generalize List.range 128 = l
  induction l generalizing m with
  | nil => exact h
  | cons i l ih =>
    simp only [List.foldl_cons]
    split
    · exact ih _ (canonical_put 0 m (base + i) _ h)
    · exact ih _ h

/-- What a byte of memory reads as after a store: the line's byte where the mask selects it, what it
was elsewhere. -/
theorem memStore_get (m : List Host.Cell) (base : Nat) (data : Line) (mask : LMask) (a : Nat) :
    mapGet (0 : Byte) (memStore m base data mask) a =
      if base ≤ a ∧ a < base + 128 ∧ bit mask (a - base) = true then lineByte data (a - base)
      else mapGet (0 : Byte) m a := by
  have key : ∀ (n : Nat) (m : List Host.Cell),
      mapGet (0 : Byte) ((List.range n).foldl
        (fun m i => if bit mask i then mapPut 0 m (base + i) (lineByte data i) else m) m) a =
      if base ≤ a ∧ a < base + n ∧ bit mask (a - base) = true then lineByte data (a - base)
      else mapGet (0 : Byte) m a := by
    intro n m
    induction n with
    | zero =>
      have : ¬(base ≤ a ∧ a < base + 0 ∧ bit mask (a - base) = true) := by omega
      simp only [List.range_zero, List.foldl_nil, if_neg this]
    | succ n ih =>
      simp only [List.range_succ, List.foldl_append, List.foldl_cons, List.foldl_nil]
      by_cases hb : bit mask n = true
      · rw [if_pos hb]
        by_cases ha : a = base + n
        · subst ha
          rw [mapGet_put_same, if_pos]
          · simp
          · simp [hb]
        · rw [mapGet_put_other _ _ _ _ _ ha, ih]
          by_cases hc : base ≤ a ∧ a < base + n ∧ bit mask (a - base) = true
          · rw [if_pos hc, if_pos ⟨hc.1, by omega, hc.2.2⟩]
          · rw [if_neg hc, if_neg]
            rintro ⟨h1, h2, h3⟩
            exact hc ⟨h1, by omega, h3⟩
      · rw [if_neg hb, ih]
        by_cases hc : base ≤ a ∧ a < base + n ∧ bit mask (a - base) = true
        · rw [if_pos hc, if_pos ⟨hc.1, by omega, hc.2.2⟩]
        · rw [if_neg hc, if_neg]
          rintro ⟨h1, h2, h3⟩
          by_cases ha : a = base + n
          · subst ha; simp at h3; exact hb h3
          · exact hc ⟨h1, by omega, h3⟩
  exact key 128 m

theorem reset_memory_wf : Memory.wf State.reset.dev.mem = true := rfl

end Sys2Proof.Machine
end

