-- ==== Sys2Proof/Laws/Issue.lean ====
section
/-! SUPPORT. What issuing a core instruction does: the shared operations of Machine/Operands.lean, once. -/

namespace Sys2Proof.Machine

/-! ## Cores and groups -/

@[simp] theorem getCore_putCore (d : Dev) (n : Nat) (c : Core) : getCore (putCore d n c) n = c :=
  mapGet_put_same _ _ _ _

theorem getCore_putCore_other (d : Dev) (n m : Nat) (c : Core) (h : m ≠ n) :
    getCore (putCore d n c) m = getCore d m := mapGet_put_other _ _ _ _ _ h

@[simp] theorem getGroup_putGroup (c : Core) (k : Nat) (o : Option Group) :
    getGroup (putGroup c k o) k = o := mapGet_put_same _ _ _ _

theorem getGroup_putGroup_other (c : Core) (k j : Nat) (o : Option Group) (h : j ≠ k) :
    getGroup (putGroup c k o) j = getGroup c j := mapGet_put_other _ _ _ _ _ h

/-! ## Issue -/

/-- Issue with nothing in its way is the instruction's own effect. -/
theorem issue_of_Issues {s : State} {x : At} {f : Form} {l : Lead} (h : Issues s x f l)
    (body : Lead → Dev → Option Dev) : issue x f body s.dev = body l s.dev := by
  obtain ⟨h1, h2, h3, h4, h5, h6, h7, h8, h9, h10⟩ := h
  have w : icWord (getCore s.dev l.core) l.pc.toNat = some (f.code % 2 ^ 64) := by
    simp only [spells, Bool.and_eq_true, decide_eq_true_eq] at h4
    exact h4.1
  have r1 : f.regs.any (fun r => !regOk l.g.nregs r) = false := by
    simp only [List.any_eq_false, Bool.not_eq_true', Bool.not_eq_false]
    intro r hr; simpa using h9 r hr
  have r2 : f.regs.any (regBusy (getCore s.dev l.core) l.g.uid) = false := by
    simp only [List.any_eq_false]
    intro r hr; simpa using h10 r hr
  rw [issue, h1]
  simp only [h2, w, h3, h4, h5, h6, h7, h8, r1, r2, Bool.and_self, Bool.not_true, Bool.false_eq_true, if_false]

/-- Replacing a lead's group changes that group and the rotation of slot 0, and nothing else. -/
theorem putLead_only (s : State) (l : Lead) (g : Group) :
    OnlyGroup s (s.withDev (putLead s.dev l g)) l g := by
  refine ⟨rfl, rfl, fun n hn => getCore_putCore_other _ _ _ _ hn, ?_, fun k hk => ?_, ?_, fun _ _ => rfl⟩
  · simp only [State.withDev, putLead, getCore_putCore, putGroup]
  · simp only [State.withDev, putLead, getCore_putCore]
    exact getGroup_putGroup_other (getCore s.dev l.core) l.slot k (some g) hk
  · simp only [State.withDev, putLead, getCore_putCore]
    exact getGroup_putGroup (getCore s.dev l.core) l.slot (some g)

/-! ## Lanes -/

theorem perLane_getD {α : Type} (f : Nat → α) (dv : α) (t : Nat) (h : t < 32) : (perLane f).getD t dv = f t := by
  simp [perLane, h]

theorem laneOf_mapLanes (g : Group) (f : Nat → Lane → Lane) (t : Nat) (h : t < 32) :
    laneOf (mapLanes g f) t = f t (laneOf g t) := by
  simp only [laneOf, mapLanes, perLane_getD _ _ _ h]

theorem onLane_perLane (f : Nat → Bool) (t : Nat) (h : t < 32) : onLane (perLane f) t = f t := perLane_getD _ _ _ h

theorem laneOf_advance (g : Group) (m : List Bool) (w t : Nat) (h : t < 32) :
    laneOf (advance g m w) t =
      if onLane m t then { laneOf g t with pc := (laneOf g t).pc + BitVec.ofNat 47 (8 * w) } else laneOf g t :=
  laneOf_mapLanes _ _ _ h

/-! ## Thread registers -/

@[simp] theorem writeX_lanes (g : Group) (r : Nat) (m : List Bool) (v : Nat → Word) :
    (writeX g r m v).lanes = g.lanes := by unfold writeX; split <;> rfl

theorem writeX_frame (g : Group) (r : Nat) (m : List Bool) (v : Nat → Word) :
    writeX g r m v = { g with x := (writeX g r m v).x } := by unfold writeX; split <;> rfl

theorem readX_writeX (g : Group) (r : Nat) (m : List Bool) (v : Nat → Word) (q t : Nat) (h : t < 32)
    (hq : q ≠ 255) :
    readX (writeX g r m v) q t = if q = r ∧ onLane m t = true then v t else readX g q t := by
  unfold writeX
  split
  · rename_i hr
    rw [if_neg (by omega)]
  · rename_i hr
    by_cases hqr : q = r
    · subst hqr
      simp only [readX, if_neg hq, mapGet_put_same, true_and]
      rw [perLane_getD _ _ _ h]
    · rw [if_neg (by simp [hqr])]
      simp only [readX, if_neg hq, mapGet_put_other _ _ _ _ _ hqr]

theorem writeXs_frame (g : Group) (r n : Nat) (m : List Bool) (v : Nat → Nat) :
    writeXs g r n m v = { g with x := (writeXs g r n m v).x } := by
  have key : ∀ (l : List Nat) (g : Group), ∃ y, l.foldl
      (fun g i => writeX g (r + i) m fun t => BitVec.ofNat 32 (v t / 2 ^ (32 * i))) g = { g with x := y } := by
    intro l
    induction l with
    | nil => exact fun g => ⟨g.x, rfl⟩
    | cons i l ih =>
      intro g
      obtain ⟨y, hy⟩ := ih (writeX g (r + i) m fun t => BitVec.ofNat 32 (v t / 2 ^ (32 * i)))
      refine ⟨y, ?_⟩
      rw [List.foldl_cons, hy, writeX_frame]
  unfold writeXs
  split
  · rfl
  · obtain ⟨y, hy⟩ := key (List.range n) g
    rw [hy]

theorem readX_writeXs (g : Group) (r n : Nat) (m : List Bool) (v : Nat → Nat) (q t : Nat) (h : t < 32)
    (hq : q ≠ 255) :
    readX (writeXs g r n m v) q t =
      if r ≠ 255 ∧ r ≤ q ∧ q < r + n ∧ onLane m t = true then BitVec.ofNat 32 (v t / 2 ^ (32 * (q - r)))
      else readX g q t := by
  unfold writeXs
  split
  · rename_i hr
    simp [hr]
  · rename_i hr
    induction n with
    | zero =>
      rw [if_neg (by omega)]
      rfl
    | succ n ih =>
      rw [List.range_succ, List.foldl_append]
      simp only [List.foldl_cons, List.foldl_nil]
      rw [readX_writeX _ _ _ _ _ _ h hq, ih]
      by_cases hm : onLane m t = true
      · by_cases he : q = r + n
        · subst he
          rw [if_pos ⟨rfl, hm⟩, if_pos ⟨hr, by omega, by omega, hm⟩]
          simp
        · rw [if_neg (by tauto)]
          by_cases hc : r ≠ 255 ∧ r ≤ q ∧ q < r + n ∧ onLane m t = true
          · rw [if_pos hc, if_pos ⟨hc.1, hc.2.1, by omega, hm⟩]
          · rw [if_neg hc, if_neg]
            rintro ⟨h1, h2, h3, h4⟩
            exact hc ⟨h1, h2, by omega, h4⟩
      · rw [if_neg (by tauto), if_neg (by tauto), if_neg (by tauto)]

/-- What committing a register result leaves. -/
theorem commit_wroteX (l : Lead) (words r0 n : Nat) (v : Nat → Nat) :
    WroteX l (advance (writeXs l.g r0 n l.run v) l.act words) words r0 n v := by
  refine ⟨fun t ht => ?_, ?_, fun r t ht hr => ?_⟩
  · rw [laneOf_advance _ _ _ _ ht]
    have : laneOf (writeXs l.g r0 n l.run v) t = laneOf l.g t := by
      rw [writeXs_frame]; rfl
    rw [this]
  · rw [writeXs_frame]; rfl
  · exact readX_writeXs l.g r0 n l.run v r t ht hr

/-- A register instruction that issues writes its registers and nothing else. -/
theorem issueX_sets {s : State} {x : At} {f : Form} {l : Lead} (h : Issues s x f l) (r0 n : Nat)
    (v : Group → Nat → Nat) :
    ∃ d, issueX x f r0 n v s.dev = some d ∧
      ∃ g, OnlyGroup s (s.withDev d) l g ∧ WroteX l g f.words r0 n (v l.g) := by
  refine ⟨_, issue_of_Issues h _, _, putLead_only s l _, commit_wroteX l f.words r0 n (v l.g)⟩

/-- A predicate instruction that issues writes its predicate and nothing else. -/
theorem issueP_sets {s : State} {x : At} {f : Form} {l : Lead} (h : Issues s x f l) (p : Nat)
    (v : Group → Nat → Bool) :
    ∃ d, issueP x f p v s.dev = some d ∧
      ∃ g, OnlyGroup s (s.withDev d) l g ∧ WroteP l g f.words p (v l.g) := by
  refine ⟨_, issue_of_Issues h _, _, putLead_only s l _, rfl, fun t ht => ?_⟩
  rw [laneOf_advance _ _ _ _ ht]
  unfold writeP
  rw [laneOf_mapLanes _ _ _ ht]
  by_cases h1 : onLane l.act t <;> by_cases h2 : onLane l.run t <;> simp [h1, h2]

end Sys2Proof.Machine
end

