-- ==== Sys2Proof/Laws/State.lean ====
section
/-! SUPPORT. What each named update of the device leaves: one lemma per field, so that no proof unfolds a record
update; and what reading the updated place then gives. -/

namespace Sys2Proof.Machine

variable (s : State) (d : Dev)

@[simp] theorem withDev_dev (e : Dev) : (s.withDev e).dev = e := (rfl)
@[simp] theorem withDev_pending (e : Dev) : (s.withDev e).pending = s.pending := (rfl)

/-! ### regPut -/

@[simp] theorem regPut_cores (a : Nat) (v : D64) : (regPut d a v).cores = d.cores := (rfl)
@[simp] theorem regPut_reqs (a : Nat) (v : D64) : (regPut d a v).reqs = d.reqs := (rfl)
@[simp] theorem regPut_nextId (a : Nat) (v : D64) : (regPut d a v).nextId = d.nextId := (rfl)
@[simp] theorem regPut_free (a : Nat) (v : D64) : (regPut d a v).free = d.free := (rfl)
@[simp] theorem regPut_now (a : Nat) (v : D64) : (regPut d a v).now = d.now := (rfl)
@[simp] theorem regPut_lastRead (a : Nat) (v : D64) : (regPut d a v).lastRead = d.lastRead := (rfl)
@[simp] theorem regPut_win (a : Nat) (v : D64) : (regPut d a v).win = d.win := (rfl)
@[simp] theorem regPut_slices (a : Nat) (v : D64) : (regPut d a v).slices = d.slices := (rfl)
@[simp] theorem regPut_miss (a : Nat) (v : D64) : (regPut d a v).miss = d.miss := (rfl)
@[simp] theorem regPut_thrash (a : Nat) (v : D64) : (regPut d a v).thrash = d.thrash := (rfl)
@[simp] theorem regPut_deadEv (a : Nat) (v : D64) : (regPut d a v).deadEv = d.deadEv := (rfl)
@[simp] theorem regPut_mem (a : Nat) (v : D64) : (regPut d a v).mem = d.mem := (rfl)
@[simp] theorem regPut_pmap (a : Nat) (v : D64) : (regPut d a v).pmap = d.pmap := (rfl)
@[simp] theorem regPut_shoot (a : Nat) (v : D64) : (regPut d a v).shoot = d.shoot := (rfl)
@[simp] theorem regPut_btc (a : Nat) (v : D64) : (regPut d a v).btc = d.btc := (rfl)
@[simp] theorem regPut_errs (a : Nat) (v : D64) : (regPut d a v).errs = d.errs := (rfl)
@[simp] theorem regPut_chk (a : Nat) (v : D64) : (regPut d a v).chk = d.chk := (rfl)
@[simp] theorem regPut_xts (a : Nat) (v : D64) : (regPut d a v).xts = d.xts := (rfl)
@[simp] theorem regPut_scrub (a : Nat) (v : D64) : (regPut d a v).scrub = d.scrub := (rfl)
@[simp] theorem regPut_banks (a : Nat) (v : D64) : (regPut d a v).banks = d.banks := (rfl)
@[simp] theorem regPut_net (a : Nat) (v : D64) : (regPut d a v).net = d.net := (rfl)
@[simp] theorem regPut_expiry (a : Nat) (v : D64) : (regPut d a v).expiry = d.expiry := (rfl)
@[simp] theorem regPut_fencedRes (a : Nat) (v : D64) : (regPut d a v).fencedRes = d.fencedRes := (rfl)
@[simp] theorem regPut_unreach (a : Nat) (v : D64) : (regPut d a v).unreach = d.unreach := (rfl)
@[simp] theorem regPut_budget (a : Nat) (v : D64) : (regPut d a v).budget = d.budget := (rfl)
@[simp] theorem regPut_funnel (a : Nat) (v : D64) : (regPut d a v).funnel = d.funnel := (rfl)
@[simp] theorem regPut_clusters (a : Nat) (v : D64) : (regPut d a v).clusters = d.clusters := (rfl)
@[simp] theorem regPut_fab (a : Nat) (v : D64) : (regPut d a v).fab = d.fab := (rfl)
@[simp] theorem regPut_lov (a : Nat) (v : D64) : (regPut d a v).lov = d.lov := (rfl)
@[simp] theorem regPut_hpt (a : Nat) (v : D64) : (regPut d a v).hpt = d.hpt := (rfl)
@[simp] theorem regPut_disp (a : Nat) (v : D64) : (regPut d a v).disp = d.disp := (rfl)
@[simp] theorem regPut_sor (a : Nat) (v : D64) : (regPut d a v).sor = d.sor := (rfl)
@[simp] theorem regPut_flash (a : Nat) (v : D64) : (regPut d a v).flash = d.flash := (rfl)
@[simp] theorem regPut_fuses (a : Nat) (v : D64) : (regPut d a v).fuses = d.fuses := (rfl)
@[simp] theorem regPut_boot (a : Nat) (v : D64) : (regPut d a v).boot = d.boot := (rfl)
@[simp] theorem regPut_cvus (a : Nat) (v : D64) : (regPut d a v).cvus = d.cvus := (rfl)

/-! ### regSet -/

@[simp] theorem regSet_cores (a lo w v : Nat) : (regSet d a lo w v).cores = d.cores := (rfl)
@[simp] theorem regSet_reqs (a lo w v : Nat) : (regSet d a lo w v).reqs = d.reqs := (rfl)
@[simp] theorem regSet_nextId (a lo w v : Nat) : (regSet d a lo w v).nextId = d.nextId := (rfl)
@[simp] theorem regSet_free (a lo w v : Nat) : (regSet d a lo w v).free = d.free := (rfl)
@[simp] theorem regSet_now (a lo w v : Nat) : (regSet d a lo w v).now = d.now := (rfl)
@[simp] theorem regSet_lastRead (a lo w v : Nat) : (regSet d a lo w v).lastRead = d.lastRead := (rfl)
@[simp] theorem regSet_win (a lo w v : Nat) : (regSet d a lo w v).win = d.win := (rfl)
@[simp] theorem regSet_slices (a lo w v : Nat) : (regSet d a lo w v).slices = d.slices := (rfl)
@[simp] theorem regSet_miss (a lo w v : Nat) : (regSet d a lo w v).miss = d.miss := (rfl)
@[simp] theorem regSet_thrash (a lo w v : Nat) : (regSet d a lo w v).thrash = d.thrash := (rfl)
@[simp] theorem regSet_deadEv (a lo w v : Nat) : (regSet d a lo w v).deadEv = d.deadEv := (rfl)
@[simp] theorem regSet_mem (a lo w v : Nat) : (regSet d a lo w v).mem = d.mem := (rfl)
@[simp] theorem regSet_pmap (a lo w v : Nat) : (regSet d a lo w v).pmap = d.pmap := (rfl)
@[simp] theorem regSet_shoot (a lo w v : Nat) : (regSet d a lo w v).shoot = d.shoot := (rfl)
@[simp] theorem regSet_btc (a lo w v : Nat) : (regSet d a lo w v).btc = d.btc := (rfl)
@[simp] theorem regSet_errs (a lo w v : Nat) : (regSet d a lo w v).errs = d.errs := (rfl)
@[simp] theorem regSet_chk (a lo w v : Nat) : (regSet d a lo w v).chk = d.chk := (rfl)
@[simp] theorem regSet_xts (a lo w v : Nat) : (regSet d a lo w v).xts = d.xts := (rfl)
@[simp] theorem regSet_scrub (a lo w v : Nat) : (regSet d a lo w v).scrub = d.scrub := (rfl)
@[simp] theorem regSet_banks (a lo w v : Nat) : (regSet d a lo w v).banks = d.banks := (rfl)
@[simp] theorem regSet_net (a lo w v : Nat) : (regSet d a lo w v).net = d.net := (rfl)
@[simp] theorem regSet_expiry (a lo w v : Nat) : (regSet d a lo w v).expiry = d.expiry := (rfl)
@[simp] theorem regSet_fencedRes (a lo w v : Nat) : (regSet d a lo w v).fencedRes = d.fencedRes := (rfl)
@[simp] theorem regSet_unreach (a lo w v : Nat) : (regSet d a lo w v).unreach = d.unreach := (rfl)
@[simp] theorem regSet_budget (a lo w v : Nat) : (regSet d a lo w v).budget = d.budget := (rfl)
@[simp] theorem regSet_funnel (a lo w v : Nat) : (regSet d a lo w v).funnel = d.funnel := (rfl)
@[simp] theorem regSet_clusters (a lo w v : Nat) : (regSet d a lo w v).clusters = d.clusters := (rfl)
@[simp] theorem regSet_fab (a lo w v : Nat) : (regSet d a lo w v).fab = d.fab := (rfl)
@[simp] theorem regSet_lov (a lo w v : Nat) : (regSet d a lo w v).lov = d.lov := (rfl)
@[simp] theorem regSet_hpt (a lo w v : Nat) : (regSet d a lo w v).hpt = d.hpt := (rfl)
@[simp] theorem regSet_disp (a lo w v : Nat) : (regSet d a lo w v).disp = d.disp := (rfl)
@[simp] theorem regSet_sor (a lo w v : Nat) : (regSet d a lo w v).sor = d.sor := (rfl)
@[simp] theorem regSet_flash (a lo w v : Nat) : (regSet d a lo w v).flash = d.flash := (rfl)
@[simp] theorem regSet_fuses (a lo w v : Nat) : (regSet d a lo w v).fuses = d.fuses := (rfl)
@[simp] theorem regSet_boot (a lo w v : Nat) : (regSet d a lo w v).boot = d.boot := (rfl)
@[simp] theorem regSet_cvus (a lo w v : Nat) : (regSet d a lo w v).cvus = d.cvus := (rfl)

/-! ### putCore -/

@[simp] theorem putCore_reqs (n : Nat) (c : Core) : (putCore d n c).reqs = d.reqs := (rfl)
@[simp] theorem putCore_nextId (n : Nat) (c : Core) : (putCore d n c).nextId = d.nextId := (rfl)
@[simp] theorem putCore_free (n : Nat) (c : Core) : (putCore d n c).free = d.free := (rfl)
@[simp] theorem putCore_now (n : Nat) (c : Core) : (putCore d n c).now = d.now := (rfl)
@[simp] theorem putCore_regs (n : Nat) (c : Core) : (putCore d n c).regs = d.regs := (rfl)
@[simp] theorem putCore_lastRead (n : Nat) (c : Core) : (putCore d n c).lastRead = d.lastRead := (rfl)
@[simp] theorem putCore_win (n : Nat) (c : Core) : (putCore d n c).win = d.win := (rfl)
@[simp] theorem putCore_slices (n : Nat) (c : Core) : (putCore d n c).slices = d.slices := (rfl)
@[simp] theorem putCore_miss (n : Nat) (c : Core) : (putCore d n c).miss = d.miss := (rfl)
@[simp] theorem putCore_thrash (n : Nat) (c : Core) : (putCore d n c).thrash = d.thrash := (rfl)
@[simp] theorem putCore_deadEv (n : Nat) (c : Core) : (putCore d n c).deadEv = d.deadEv := (rfl)
@[simp] theorem putCore_mem (n : Nat) (c : Core) : (putCore d n c).mem = d.mem := (rfl)
@[simp] theorem putCore_pmap (n : Nat) (c : Core) : (putCore d n c).pmap = d.pmap := (rfl)
@[simp] theorem putCore_shoot (n : Nat) (c : Core) : (putCore d n c).shoot = d.shoot := (rfl)
@[simp] theorem putCore_btc (n : Nat) (c : Core) : (putCore d n c).btc = d.btc := (rfl)
@[simp] theorem putCore_errs (n : Nat) (c : Core) : (putCore d n c).errs = d.errs := (rfl)
@[simp] theorem putCore_chk (n : Nat) (c : Core) : (putCore d n c).chk = d.chk := (rfl)
@[simp] theorem putCore_xts (n : Nat) (c : Core) : (putCore d n c).xts = d.xts := (rfl)
@[simp] theorem putCore_scrub (n : Nat) (c : Core) : (putCore d n c).scrub = d.scrub := (rfl)
@[simp] theorem putCore_banks (n : Nat) (c : Core) : (putCore d n c).banks = d.banks := (rfl)
@[simp] theorem putCore_net (n : Nat) (c : Core) : (putCore d n c).net = d.net := (rfl)
@[simp] theorem putCore_expiry (n : Nat) (c : Core) : (putCore d n c).expiry = d.expiry := (rfl)
@[simp] theorem putCore_fencedRes (n : Nat) (c : Core) : (putCore d n c).fencedRes = d.fencedRes := (rfl)
@[simp] theorem putCore_unreach (n : Nat) (c : Core) : (putCore d n c).unreach = d.unreach := (rfl)
@[simp] theorem putCore_budget (n : Nat) (c : Core) : (putCore d n c).budget = d.budget := (rfl)
@[simp] theorem putCore_funnel (n : Nat) (c : Core) : (putCore d n c).funnel = d.funnel := (rfl)
@[simp] theorem putCore_clusters (n : Nat) (c : Core) : (putCore d n c).clusters = d.clusters := (rfl)
@[simp] theorem putCore_fab (n : Nat) (c : Core) : (putCore d n c).fab = d.fab := (rfl)
@[simp] theorem putCore_lov (n : Nat) (c : Core) : (putCore d n c).lov = d.lov := (rfl)
@[simp] theorem putCore_hpt (n : Nat) (c : Core) : (putCore d n c).hpt = d.hpt := (rfl)
@[simp] theorem putCore_disp (n : Nat) (c : Core) : (putCore d n c).disp = d.disp := (rfl)
@[simp] theorem putCore_sor (n : Nat) (c : Core) : (putCore d n c).sor = d.sor := (rfl)
@[simp] theorem putCore_flash (n : Nat) (c : Core) : (putCore d n c).flash = d.flash := (rfl)
@[simp] theorem putCore_fuses (n : Nat) (c : Core) : (putCore d n c).fuses = d.fuses := (rfl)
@[simp] theorem putCore_boot (n : Nat) (c : Core) : (putCore d n c).boot = d.boot := (rfl)
@[simp] theorem putCore_cvus (n : Nat) (c : Core) : (putCore d n c).cvus = d.cvus := (rfl)

/-! ### putCluster -/

@[simp] theorem putCluster_cores (c : Nat) (k : Cluster) : (putCluster d c k).cores = d.cores := (rfl)
@[simp] theorem putCluster_reqs (c : Nat) (k : Cluster) : (putCluster d c k).reqs = d.reqs := (rfl)
@[simp] theorem putCluster_nextId (c : Nat) (k : Cluster) : (putCluster d c k).nextId = d.nextId := (rfl)
@[simp] theorem putCluster_free (c : Nat) (k : Cluster) : (putCluster d c k).free = d.free := (rfl)
@[simp] theorem putCluster_now (c : Nat) (k : Cluster) : (putCluster d c k).now = d.now := (rfl)
@[simp] theorem putCluster_regs (c : Nat) (k : Cluster) : (putCluster d c k).regs = d.regs := (rfl)
@[simp] theorem putCluster_lastRead (c : Nat) (k : Cluster) : (putCluster d c k).lastRead = d.lastRead := (rfl)
@[simp] theorem putCluster_win (c : Nat) (k : Cluster) : (putCluster d c k).win = d.win := (rfl)
@[simp] theorem putCluster_slices (c : Nat) (k : Cluster) : (putCluster d c k).slices = d.slices := (rfl)
@[simp] theorem putCluster_miss (c : Nat) (k : Cluster) : (putCluster d c k).miss = d.miss := (rfl)
@[simp] theorem putCluster_thrash (c : Nat) (k : Cluster) : (putCluster d c k).thrash = d.thrash := (rfl)
@[simp] theorem putCluster_deadEv (c : Nat) (k : Cluster) : (putCluster d c k).deadEv = d.deadEv := (rfl)
@[simp] theorem putCluster_mem (c : Nat) (k : Cluster) : (putCluster d c k).mem = d.mem := (rfl)
@[simp] theorem putCluster_pmap (c : Nat) (k : Cluster) : (putCluster d c k).pmap = d.pmap := (rfl)
@[simp] theorem putCluster_shoot (c : Nat) (k : Cluster) : (putCluster d c k).shoot = d.shoot := (rfl)
@[simp] theorem putCluster_btc (c : Nat) (k : Cluster) : (putCluster d c k).btc = d.btc := (rfl)
@[simp] theorem putCluster_errs (c : Nat) (k : Cluster) : (putCluster d c k).errs = d.errs := (rfl)
@[simp] theorem putCluster_chk (c : Nat) (k : Cluster) : (putCluster d c k).chk = d.chk := (rfl)
@[simp] theorem putCluster_xts (c : Nat) (k : Cluster) : (putCluster d c k).xts = d.xts := (rfl)
@[simp] theorem putCluster_scrub (c : Nat) (k : Cluster) : (putCluster d c k).scrub = d.scrub := (rfl)
@[simp] theorem putCluster_banks (c : Nat) (k : Cluster) : (putCluster d c k).banks = d.banks := (rfl)
@[simp] theorem putCluster_net (c : Nat) (k : Cluster) : (putCluster d c k).net = d.net := (rfl)
@[simp] theorem putCluster_expiry (c : Nat) (k : Cluster) : (putCluster d c k).expiry = d.expiry := (rfl)
@[simp] theorem putCluster_fencedRes (c : Nat) (k : Cluster) : (putCluster d c k).fencedRes = d.fencedRes := (rfl)
@[simp] theorem putCluster_unreach (c : Nat) (k : Cluster) : (putCluster d c k).unreach = d.unreach := (rfl)
@[simp] theorem putCluster_budget (c : Nat) (k : Cluster) : (putCluster d c k).budget = d.budget := (rfl)
@[simp] theorem putCluster_funnel (c : Nat) (k : Cluster) : (putCluster d c k).funnel = d.funnel := (rfl)
@[simp] theorem putCluster_fab (c : Nat) (k : Cluster) : (putCluster d c k).fab = d.fab := (rfl)
@[simp] theorem putCluster_lov (c : Nat) (k : Cluster) : (putCluster d c k).lov = d.lov := (rfl)
@[simp] theorem putCluster_hpt (c : Nat) (k : Cluster) : (putCluster d c k).hpt = d.hpt := (rfl)
@[simp] theorem putCluster_disp (c : Nat) (k : Cluster) : (putCluster d c k).disp = d.disp := (rfl)
@[simp] theorem putCluster_sor (c : Nat) (k : Cluster) : (putCluster d c k).sor = d.sor := (rfl)
@[simp] theorem putCluster_flash (c : Nat) (k : Cluster) : (putCluster d c k).flash = d.flash := (rfl)
@[simp] theorem putCluster_fuses (c : Nat) (k : Cluster) : (putCluster d c k).fuses = d.fuses := (rfl)
@[simp] theorem putCluster_boot (c : Nat) (k : Cluster) : (putCluster d c k).boot = d.boot := (rfl)
@[simp] theorem putCluster_cvus (c : Nat) (k : Cluster) : (putCluster d c k).cvus = d.cvus := (rfl)

/-! ### putSlice -/

@[simp] theorem putSlice_cores (n : Nat) (v : Slice) : (putSlice d n v).cores = d.cores := (rfl)
@[simp] theorem putSlice_reqs (n : Nat) (v : Slice) : (putSlice d n v).reqs = d.reqs := (rfl)
@[simp] theorem putSlice_nextId (n : Nat) (v : Slice) : (putSlice d n v).nextId = d.nextId := (rfl)
@[simp] theorem putSlice_free (n : Nat) (v : Slice) : (putSlice d n v).free = d.free := (rfl)
@[simp] theorem putSlice_now (n : Nat) (v : Slice) : (putSlice d n v).now = d.now := (rfl)
@[simp] theorem putSlice_regs (n : Nat) (v : Slice) : (putSlice d n v).regs = d.regs := (rfl)
@[simp] theorem putSlice_lastRead (n : Nat) (v : Slice) : (putSlice d n v).lastRead = d.lastRead := (rfl)
@[simp] theorem putSlice_win (n : Nat) (v : Slice) : (putSlice d n v).win = d.win := (rfl)
@[simp] theorem putSlice_miss (n : Nat) (v : Slice) : (putSlice d n v).miss = d.miss := (rfl)
@[simp] theorem putSlice_thrash (n : Nat) (v : Slice) : (putSlice d n v).thrash = d.thrash := (rfl)
@[simp] theorem putSlice_deadEv (n : Nat) (v : Slice) : (putSlice d n v).deadEv = d.deadEv := (rfl)
@[simp] theorem putSlice_mem (n : Nat) (v : Slice) : (putSlice d n v).mem = d.mem := (rfl)
@[simp] theorem putSlice_pmap (n : Nat) (v : Slice) : (putSlice d n v).pmap = d.pmap := (rfl)
@[simp] theorem putSlice_shoot (n : Nat) (v : Slice) : (putSlice d n v).shoot = d.shoot := (rfl)
@[simp] theorem putSlice_btc (n : Nat) (v : Slice) : (putSlice d n v).btc = d.btc := (rfl)
@[simp] theorem putSlice_errs (n : Nat) (v : Slice) : (putSlice d n v).errs = d.errs := (rfl)
@[simp] theorem putSlice_chk (n : Nat) (v : Slice) : (putSlice d n v).chk = d.chk := (rfl)
@[simp] theorem putSlice_xts (n : Nat) (v : Slice) : (putSlice d n v).xts = d.xts := (rfl)
@[simp] theorem putSlice_scrub (n : Nat) (v : Slice) : (putSlice d n v).scrub = d.scrub := (rfl)
@[simp] theorem putSlice_banks (n : Nat) (v : Slice) : (putSlice d n v).banks = d.banks := (rfl)
@[simp] theorem putSlice_net (n : Nat) (v : Slice) : (putSlice d n v).net = d.net := (rfl)
@[simp] theorem putSlice_expiry (n : Nat) (v : Slice) : (putSlice d n v).expiry = d.expiry := (rfl)
@[simp] theorem putSlice_fencedRes (n : Nat) (v : Slice) : (putSlice d n v).fencedRes = d.fencedRes := (rfl)
@[simp] theorem putSlice_unreach (n : Nat) (v : Slice) : (putSlice d n v).unreach = d.unreach := (rfl)
@[simp] theorem putSlice_budget (n : Nat) (v : Slice) : (putSlice d n v).budget = d.budget := (rfl)
@[simp] theorem putSlice_funnel (n : Nat) (v : Slice) : (putSlice d n v).funnel = d.funnel := (rfl)
@[simp] theorem putSlice_clusters (n : Nat) (v : Slice) : (putSlice d n v).clusters = d.clusters := (rfl)
@[simp] theorem putSlice_fab (n : Nat) (v : Slice) : (putSlice d n v).fab = d.fab := (rfl)
@[simp] theorem putSlice_lov (n : Nat) (v : Slice) : (putSlice d n v).lov = d.lov := (rfl)
@[simp] theorem putSlice_hpt (n : Nat) (v : Slice) : (putSlice d n v).hpt = d.hpt := (rfl)
@[simp] theorem putSlice_disp (n : Nat) (v : Slice) : (putSlice d n v).disp = d.disp := (rfl)
@[simp] theorem putSlice_sor (n : Nat) (v : Slice) : (putSlice d n v).sor = d.sor := (rfl)
@[simp] theorem putSlice_flash (n : Nat) (v : Slice) : (putSlice d n v).flash = d.flash := (rfl)
@[simp] theorem putSlice_fuses (n : Nat) (v : Slice) : (putSlice d n v).fuses = d.fuses := (rfl)
@[simp] theorem putSlice_boot (n : Nat) (v : Slice) : (putSlice d n v).boot = d.boot := (rfl)
@[simp] theorem putSlice_cvus (n : Nat) (v : Slice) : (putSlice d n v).cvus = d.cvus := (rfl)

/-! ### putThrash -/

@[simp] theorem putThrash_cores (h k : Nat) (t : Thrash) : (putThrash d h k t).cores = d.cores := (rfl)
@[simp] theorem putThrash_reqs (h k : Nat) (t : Thrash) : (putThrash d h k t).reqs = d.reqs := (rfl)
@[simp] theorem putThrash_nextId (h k : Nat) (t : Thrash) : (putThrash d h k t).nextId = d.nextId := (rfl)
@[simp] theorem putThrash_free (h k : Nat) (t : Thrash) : (putThrash d h k t).free = d.free := (rfl)
@[simp] theorem putThrash_now (h k : Nat) (t : Thrash) : (putThrash d h k t).now = d.now := (rfl)
@[simp] theorem putThrash_regs (h k : Nat) (t : Thrash) : (putThrash d h k t).regs = d.regs := (rfl)
@[simp] theorem putThrash_lastRead (h k : Nat) (t : Thrash) : (putThrash d h k t).lastRead = d.lastRead := (rfl)
@[simp] theorem putThrash_win (h k : Nat) (t : Thrash) : (putThrash d h k t).win = d.win := (rfl)
@[simp] theorem putThrash_slices (h k : Nat) (t : Thrash) : (putThrash d h k t).slices = d.slices := (rfl)
@[simp] theorem putThrash_miss (h k : Nat) (t : Thrash) : (putThrash d h k t).miss = d.miss := (rfl)
@[simp] theorem putThrash_deadEv (h k : Nat) (t : Thrash) : (putThrash d h k t).deadEv = d.deadEv := (rfl)
@[simp] theorem putThrash_mem (h k : Nat) (t : Thrash) : (putThrash d h k t).mem = d.mem := (rfl)
@[simp] theorem putThrash_pmap (h k : Nat) (t : Thrash) : (putThrash d h k t).pmap = d.pmap := (rfl)
@[simp] theorem putThrash_shoot (h k : Nat) (t : Thrash) : (putThrash d h k t).shoot = d.shoot := (rfl)
@[simp] theorem putThrash_btc (h k : Nat) (t : Thrash) : (putThrash d h k t).btc = d.btc := (rfl)
@[simp] theorem putThrash_errs (h k : Nat) (t : Thrash) : (putThrash d h k t).errs = d.errs := (rfl)
@[simp] theorem putThrash_chk (h k : Nat) (t : Thrash) : (putThrash d h k t).chk = d.chk := (rfl)
@[simp] theorem putThrash_xts (h k : Nat) (t : Thrash) : (putThrash d h k t).xts = d.xts := (rfl)
@[simp] theorem putThrash_scrub (h k : Nat) (t : Thrash) : (putThrash d h k t).scrub = d.scrub := (rfl)
@[simp] theorem putThrash_banks (h k : Nat) (t : Thrash) : (putThrash d h k t).banks = d.banks := (rfl)
@[simp] theorem putThrash_net (h k : Nat) (t : Thrash) : (putThrash d h k t).net = d.net := (rfl)
@[simp] theorem putThrash_expiry (h k : Nat) (t : Thrash) : (putThrash d h k t).expiry = d.expiry := (rfl)
@[simp] theorem putThrash_fencedRes (h k : Nat) (t : Thrash) : (putThrash d h k t).fencedRes = d.fencedRes := (rfl)
@[simp] theorem putThrash_unreach (h k : Nat) (t : Thrash) : (putThrash d h k t).unreach = d.unreach := (rfl)
@[simp] theorem putThrash_budget (h k : Nat) (t : Thrash) : (putThrash d h k t).budget = d.budget := (rfl)
@[simp] theorem putThrash_funnel (h k : Nat) (t : Thrash) : (putThrash d h k t).funnel = d.funnel := (rfl)
@[simp] theorem putThrash_clusters (h k : Nat) (t : Thrash) : (putThrash d h k t).clusters = d.clusters := (rfl)
@[simp] theorem putThrash_fab (h k : Nat) (t : Thrash) : (putThrash d h k t).fab = d.fab := (rfl)
@[simp] theorem putThrash_lov (h k : Nat) (t : Thrash) : (putThrash d h k t).lov = d.lov := (rfl)
@[simp] theorem putThrash_hpt (h k : Nat) (t : Thrash) : (putThrash d h k t).hpt = d.hpt := (rfl)
@[simp] theorem putThrash_disp (h k : Nat) (t : Thrash) : (putThrash d h k t).disp = d.disp := (rfl)
@[simp] theorem putThrash_sor (h k : Nat) (t : Thrash) : (putThrash d h k t).sor = d.sor := (rfl)
@[simp] theorem putThrash_flash (h k : Nat) (t : Thrash) : (putThrash d h k t).flash = d.flash := (rfl)
@[simp] theorem putThrash_fuses (h k : Nat) (t : Thrash) : (putThrash d h k t).fuses = d.fuses := (rfl)
@[simp] theorem putThrash_boot (h k : Nat) (t : Thrash) : (putThrash d h k t).boot = d.boot := (rfl)
@[simp] theorem putThrash_cvus (h k : Nat) (t : Thrash) : (putThrash d h k t).cvus = d.cvus := (rfl)

/-! ### putPort -/

@[simp] theorem putPort_cores (s b : Nat) (p : BankPort) : (putPort d s b p).cores = d.cores := (rfl)
@[simp] theorem putPort_reqs (s b : Nat) (p : BankPort) : (putPort d s b p).reqs = d.reqs := (rfl)
@[simp] theorem putPort_nextId (s b : Nat) (p : BankPort) : (putPort d s b p).nextId = d.nextId := (rfl)
@[simp] theorem putPort_free (s b : Nat) (p : BankPort) : (putPort d s b p).free = d.free := (rfl)
@[simp] theorem putPort_now (s b : Nat) (p : BankPort) : (putPort d s b p).now = d.now := (rfl)
@[simp] theorem putPort_regs (s b : Nat) (p : BankPort) : (putPort d s b p).regs = d.regs := (rfl)
@[simp] theorem putPort_lastRead (s b : Nat) (p : BankPort) : (putPort d s b p).lastRead = d.lastRead := (rfl)
@[simp] theorem putPort_win (s b : Nat) (p : BankPort) : (putPort d s b p).win = d.win := (rfl)
@[simp] theorem putPort_slices (s b : Nat) (p : BankPort) : (putPort d s b p).slices = d.slices := (rfl)
@[simp] theorem putPort_miss (s b : Nat) (p : BankPort) : (putPort d s b p).miss = d.miss := (rfl)
@[simp] theorem putPort_thrash (s b : Nat) (p : BankPort) : (putPort d s b p).thrash = d.thrash := (rfl)
@[simp] theorem putPort_deadEv (s b : Nat) (p : BankPort) : (putPort d s b p).deadEv = d.deadEv := (rfl)
@[simp] theorem putPort_mem (s b : Nat) (p : BankPort) : (putPort d s b p).mem = d.mem := (rfl)
@[simp] theorem putPort_pmap (s b : Nat) (p : BankPort) : (putPort d s b p).pmap = d.pmap := (rfl)
@[simp] theorem putPort_shoot (s b : Nat) (p : BankPort) : (putPort d s b p).shoot = d.shoot := (rfl)
@[simp] theorem putPort_btc (s b : Nat) (p : BankPort) : (putPort d s b p).btc = d.btc := (rfl)
@[simp] theorem putPort_errs (s b : Nat) (p : BankPort) : (putPort d s b p).errs = d.errs := (rfl)
@[simp] theorem putPort_chk (s b : Nat) (p : BankPort) : (putPort d s b p).chk = d.chk := (rfl)
@[simp] theorem putPort_xts (s b : Nat) (p : BankPort) : (putPort d s b p).xts = d.xts := (rfl)
@[simp] theorem putPort_scrub (s b : Nat) (p : BankPort) : (putPort d s b p).scrub = d.scrub := (rfl)
@[simp] theorem putPort_net (s b : Nat) (p : BankPort) : (putPort d s b p).net = d.net := (rfl)
@[simp] theorem putPort_expiry (s b : Nat) (p : BankPort) : (putPort d s b p).expiry = d.expiry := (rfl)
@[simp] theorem putPort_fencedRes (s b : Nat) (p : BankPort) : (putPort d s b p).fencedRes = d.fencedRes := (rfl)
@[simp] theorem putPort_unreach (s b : Nat) (p : BankPort) : (putPort d s b p).unreach = d.unreach := (rfl)
@[simp] theorem putPort_budget (s b : Nat) (p : BankPort) : (putPort d s b p).budget = d.budget := (rfl)
@[simp] theorem putPort_funnel (s b : Nat) (p : BankPort) : (putPort d s b p).funnel = d.funnel := (rfl)
@[simp] theorem putPort_clusters (s b : Nat) (p : BankPort) : (putPort d s b p).clusters = d.clusters := (rfl)
@[simp] theorem putPort_fab (s b : Nat) (p : BankPort) : (putPort d s b p).fab = d.fab := (rfl)
@[simp] theorem putPort_lov (s b : Nat) (p : BankPort) : (putPort d s b p).lov = d.lov := (rfl)
@[simp] theorem putPort_hpt (s b : Nat) (p : BankPort) : (putPort d s b p).hpt = d.hpt := (rfl)
@[simp] theorem putPort_disp (s b : Nat) (p : BankPort) : (putPort d s b p).disp = d.disp := (rfl)
@[simp] theorem putPort_sor (s b : Nat) (p : BankPort) : (putPort d s b p).sor = d.sor := (rfl)
@[simp] theorem putPort_flash (s b : Nat) (p : BankPort) : (putPort d s b p).flash = d.flash := (rfl)
@[simp] theorem putPort_fuses (s b : Nat) (p : BankPort) : (putPort d s b p).fuses = d.fuses := (rfl)
@[simp] theorem putPort_boot (s b : Nat) (p : BankPort) : (putPort d s b p).boot = d.boot := (rfl)
@[simp] theorem putPort_cvus (s b : Nat) (p : BankPort) : (putPort d s b p).cvus = d.cvus := (rfl)

/-! ### putReq -/

@[simp] theorem putReq_cores (r : Req) : (putReq d r).cores = d.cores := (rfl)
@[simp] theorem putReq_nextId (r : Req) : (putReq d r).nextId = d.nextId := (rfl)
@[simp] theorem putReq_free (r : Req) : (putReq d r).free = d.free := (rfl)
@[simp] theorem putReq_now (r : Req) : (putReq d r).now = d.now := (rfl)
@[simp] theorem putReq_regs (r : Req) : (putReq d r).regs = d.regs := (rfl)
@[simp] theorem putReq_lastRead (r : Req) : (putReq d r).lastRead = d.lastRead := (rfl)
@[simp] theorem putReq_win (r : Req) : (putReq d r).win = d.win := (rfl)
@[simp] theorem putReq_slices (r : Req) : (putReq d r).slices = d.slices := (rfl)
@[simp] theorem putReq_miss (r : Req) : (putReq d r).miss = d.miss := (rfl)
@[simp] theorem putReq_thrash (r : Req) : (putReq d r).thrash = d.thrash := (rfl)
@[simp] theorem putReq_deadEv (r : Req) : (putReq d r).deadEv = d.deadEv := (rfl)
@[simp] theorem putReq_mem (r : Req) : (putReq d r).mem = d.mem := (rfl)
@[simp] theorem putReq_pmap (r : Req) : (putReq d r).pmap = d.pmap := (rfl)
@[simp] theorem putReq_shoot (r : Req) : (putReq d r).shoot = d.shoot := (rfl)
@[simp] theorem putReq_btc (r : Req) : (putReq d r).btc = d.btc := (rfl)
@[simp] theorem putReq_errs (r : Req) : (putReq d r).errs = d.errs := (rfl)
@[simp] theorem putReq_chk (r : Req) : (putReq d r).chk = d.chk := (rfl)
@[simp] theorem putReq_xts (r : Req) : (putReq d r).xts = d.xts := (rfl)
@[simp] theorem putReq_scrub (r : Req) : (putReq d r).scrub = d.scrub := (rfl)
@[simp] theorem putReq_banks (r : Req) : (putReq d r).banks = d.banks := (rfl)
@[simp] theorem putReq_net (r : Req) : (putReq d r).net = d.net := (rfl)
@[simp] theorem putReq_expiry (r : Req) : (putReq d r).expiry = d.expiry := (rfl)
@[simp] theorem putReq_fencedRes (r : Req) : (putReq d r).fencedRes = d.fencedRes := (rfl)
@[simp] theorem putReq_unreach (r : Req) : (putReq d r).unreach = d.unreach := (rfl)
@[simp] theorem putReq_budget (r : Req) : (putReq d r).budget = d.budget := (rfl)
@[simp] theorem putReq_funnel (r : Req) : (putReq d r).funnel = d.funnel := (rfl)
@[simp] theorem putReq_clusters (r : Req) : (putReq d r).clusters = d.clusters := (rfl)
@[simp] theorem putReq_fab (r : Req) : (putReq d r).fab = d.fab := (rfl)
@[simp] theorem putReq_lov (r : Req) : (putReq d r).lov = d.lov := (rfl)
@[simp] theorem putReq_hpt (r : Req) : (putReq d r).hpt = d.hpt := (rfl)
@[simp] theorem putReq_disp (r : Req) : (putReq d r).disp = d.disp := (rfl)
@[simp] theorem putReq_sor (r : Req) : (putReq d r).sor = d.sor := (rfl)
@[simp] theorem putReq_flash (r : Req) : (putReq d r).flash = d.flash := (rfl)
@[simp] theorem putReq_fuses (r : Req) : (putReq d r).fuses = d.fuses := (rfl)
@[simp] theorem putReq_boot (r : Req) : (putReq d r).boot = d.boot := (rfl)
@[simp] theorem putReq_cvus (r : Req) : (putReq d r).cvus = d.cvus := (rfl)

/-! ### putLink -/

@[simp] theorem putLink_cores (p : Nat) (v : FabPort) : (putLink d p v).cores = d.cores := (rfl)
@[simp] theorem putLink_reqs (p : Nat) (v : FabPort) : (putLink d p v).reqs = d.reqs := (rfl)
@[simp] theorem putLink_nextId (p : Nat) (v : FabPort) : (putLink d p v).nextId = d.nextId := (rfl)
@[simp] theorem putLink_free (p : Nat) (v : FabPort) : (putLink d p v).free = d.free := (rfl)
@[simp] theorem putLink_now (p : Nat) (v : FabPort) : (putLink d p v).now = d.now := (rfl)
@[simp] theorem putLink_regs (p : Nat) (v : FabPort) : (putLink d p v).regs = d.regs := (rfl)
@[simp] theorem putLink_lastRead (p : Nat) (v : FabPort) : (putLink d p v).lastRead = d.lastRead := (rfl)
@[simp] theorem putLink_win (p : Nat) (v : FabPort) : (putLink d p v).win = d.win := (rfl)
@[simp] theorem putLink_slices (p : Nat) (v : FabPort) : (putLink d p v).slices = d.slices := (rfl)
@[simp] theorem putLink_miss (p : Nat) (v : FabPort) : (putLink d p v).miss = d.miss := (rfl)
@[simp] theorem putLink_thrash (p : Nat) (v : FabPort) : (putLink d p v).thrash = d.thrash := (rfl)
@[simp] theorem putLink_deadEv (p : Nat) (v : FabPort) : (putLink d p v).deadEv = d.deadEv := (rfl)
@[simp] theorem putLink_mem (p : Nat) (v : FabPort) : (putLink d p v).mem = d.mem := (rfl)
@[simp] theorem putLink_pmap (p : Nat) (v : FabPort) : (putLink d p v).pmap = d.pmap := (rfl)
@[simp] theorem putLink_shoot (p : Nat) (v : FabPort) : (putLink d p v).shoot = d.shoot := (rfl)
@[simp] theorem putLink_btc (p : Nat) (v : FabPort) : (putLink d p v).btc = d.btc := (rfl)
@[simp] theorem putLink_errs (p : Nat) (v : FabPort) : (putLink d p v).errs = d.errs := (rfl)
@[simp] theorem putLink_chk (p : Nat) (v : FabPort) : (putLink d p v).chk = d.chk := (rfl)
@[simp] theorem putLink_xts (p : Nat) (v : FabPort) : (putLink d p v).xts = d.xts := (rfl)
@[simp] theorem putLink_scrub (p : Nat) (v : FabPort) : (putLink d p v).scrub = d.scrub := (rfl)
@[simp] theorem putLink_banks (p : Nat) (v : FabPort) : (putLink d p v).banks = d.banks := (rfl)
@[simp] theorem putLink_net (p : Nat) (v : FabPort) : (putLink d p v).net = d.net := (rfl)
@[simp] theorem putLink_expiry (p : Nat) (v : FabPort) : (putLink d p v).expiry = d.expiry := (rfl)
@[simp] theorem putLink_fencedRes (p : Nat) (v : FabPort) : (putLink d p v).fencedRes = d.fencedRes := (rfl)
@[simp] theorem putLink_unreach (p : Nat) (v : FabPort) : (putLink d p v).unreach = d.unreach := (rfl)
@[simp] theorem putLink_budget (p : Nat) (v : FabPort) : (putLink d p v).budget = d.budget := (rfl)
@[simp] theorem putLink_funnel (p : Nat) (v : FabPort) : (putLink d p v).funnel = d.funnel := (rfl)
@[simp] theorem putLink_clusters (p : Nat) (v : FabPort) : (putLink d p v).clusters = d.clusters := (rfl)
@[simp] theorem putLink_lov (p : Nat) (v : FabPort) : (putLink d p v).lov = d.lov := (rfl)
@[simp] theorem putLink_hpt (p : Nat) (v : FabPort) : (putLink d p v).hpt = d.hpt := (rfl)
@[simp] theorem putLink_disp (p : Nat) (v : FabPort) : (putLink d p v).disp = d.disp := (rfl)
@[simp] theorem putLink_sor (p : Nat) (v : FabPort) : (putLink d p v).sor = d.sor := (rfl)
@[simp] theorem putLink_flash (p : Nat) (v : FabPort) : (putLink d p v).flash = d.flash := (rfl)
@[simp] theorem putLink_fuses (p : Nat) (v : FabPort) : (putLink d p v).fuses = d.fuses := (rfl)
@[simp] theorem putLink_boot (p : Nat) (v : FabPort) : (putLink d p v).boot = d.boot := (rfl)
@[simp] theorem putLink_cvus (p : Nat) (v : FabPort) : (putLink d p v).cvus = d.cvus := (rfl)

/-! ### putCtx -/

@[simp] theorem putCtx_cores (c : Nat) (x : LovCtx) : (putCtx d c x).cores = d.cores := (rfl)
@[simp] theorem putCtx_reqs (c : Nat) (x : LovCtx) : (putCtx d c x).reqs = d.reqs := (rfl)
@[simp] theorem putCtx_nextId (c : Nat) (x : LovCtx) : (putCtx d c x).nextId = d.nextId := (rfl)
@[simp] theorem putCtx_free (c : Nat) (x : LovCtx) : (putCtx d c x).free = d.free := (rfl)
@[simp] theorem putCtx_now (c : Nat) (x : LovCtx) : (putCtx d c x).now = d.now := (rfl)
@[simp] theorem putCtx_regs (c : Nat) (x : LovCtx) : (putCtx d c x).regs = d.regs := (rfl)
@[simp] theorem putCtx_lastRead (c : Nat) (x : LovCtx) : (putCtx d c x).lastRead = d.lastRead := (rfl)
@[simp] theorem putCtx_win (c : Nat) (x : LovCtx) : (putCtx d c x).win = d.win := (rfl)
@[simp] theorem putCtx_slices (c : Nat) (x : LovCtx) : (putCtx d c x).slices = d.slices := (rfl)
@[simp] theorem putCtx_miss (c : Nat) (x : LovCtx) : (putCtx d c x).miss = d.miss := (rfl)
@[simp] theorem putCtx_thrash (c : Nat) (x : LovCtx) : (putCtx d c x).thrash = d.thrash := (rfl)
@[simp] theorem putCtx_deadEv (c : Nat) (x : LovCtx) : (putCtx d c x).deadEv = d.deadEv := (rfl)
@[simp] theorem putCtx_mem (c : Nat) (x : LovCtx) : (putCtx d c x).mem = d.mem := (rfl)
@[simp] theorem putCtx_pmap (c : Nat) (x : LovCtx) : (putCtx d c x).pmap = d.pmap := (rfl)
@[simp] theorem putCtx_shoot (c : Nat) (x : LovCtx) : (putCtx d c x).shoot = d.shoot := (rfl)
@[simp] theorem putCtx_btc (c : Nat) (x : LovCtx) : (putCtx d c x).btc = d.btc := (rfl)
@[simp] theorem putCtx_errs (c : Nat) (x : LovCtx) : (putCtx d c x).errs = d.errs := (rfl)
@[simp] theorem putCtx_chk (c : Nat) (x : LovCtx) : (putCtx d c x).chk = d.chk := (rfl)
@[simp] theorem putCtx_xts (c : Nat) (x : LovCtx) : (putCtx d c x).xts = d.xts := (rfl)
@[simp] theorem putCtx_scrub (c : Nat) (x : LovCtx) : (putCtx d c x).scrub = d.scrub := (rfl)
@[simp] theorem putCtx_banks (c : Nat) (x : LovCtx) : (putCtx d c x).banks = d.banks := (rfl)
@[simp] theorem putCtx_net (c : Nat) (x : LovCtx) : (putCtx d c x).net = d.net := (rfl)
@[simp] theorem putCtx_expiry (c : Nat) (x : LovCtx) : (putCtx d c x).expiry = d.expiry := (rfl)
@[simp] theorem putCtx_fencedRes (c : Nat) (x : LovCtx) : (putCtx d c x).fencedRes = d.fencedRes := (rfl)
@[simp] theorem putCtx_unreach (c : Nat) (x : LovCtx) : (putCtx d c x).unreach = d.unreach := (rfl)
@[simp] theorem putCtx_budget (c : Nat) (x : LovCtx) : (putCtx d c x).budget = d.budget := (rfl)
@[simp] theorem putCtx_funnel (c : Nat) (x : LovCtx) : (putCtx d c x).funnel = d.funnel := (rfl)
@[simp] theorem putCtx_clusters (c : Nat) (x : LovCtx) : (putCtx d c x).clusters = d.clusters := (rfl)
@[simp] theorem putCtx_fab (c : Nat) (x : LovCtx) : (putCtx d c x).fab = d.fab := (rfl)
@[simp] theorem putCtx_hpt (c : Nat) (x : LovCtx) : (putCtx d c x).hpt = d.hpt := (rfl)
@[simp] theorem putCtx_disp (c : Nat) (x : LovCtx) : (putCtx d c x).disp = d.disp := (rfl)
@[simp] theorem putCtx_sor (c : Nat) (x : LovCtx) : (putCtx d c x).sor = d.sor := (rfl)
@[simp] theorem putCtx_flash (c : Nat) (x : LovCtx) : (putCtx d c x).flash = d.flash := (rfl)
@[simp] theorem putCtx_fuses (c : Nat) (x : LovCtx) : (putCtx d c x).fuses = d.fuses := (rfl)
@[simp] theorem putCtx_boot (c : Nat) (x : LovCtx) : (putCtx d c x).boot = d.boot := (rfl)
@[simp] theorem putCtx_cvus (c : Nat) (x : LovCtx) : (putCtx d c x).cvus = d.cvus := (rfl)

/-! ### putHost -/

@[simp] theorem putHost_cores (p : Nat) (v : HostPort) : (putHost d p v).cores = d.cores := (rfl)
@[simp] theorem putHost_reqs (p : Nat) (v : HostPort) : (putHost d p v).reqs = d.reqs := (rfl)
@[simp] theorem putHost_nextId (p : Nat) (v : HostPort) : (putHost d p v).nextId = d.nextId := (rfl)
@[simp] theorem putHost_free (p : Nat) (v : HostPort) : (putHost d p v).free = d.free := (rfl)
@[simp] theorem putHost_now (p : Nat) (v : HostPort) : (putHost d p v).now = d.now := (rfl)
@[simp] theorem putHost_regs (p : Nat) (v : HostPort) : (putHost d p v).regs = d.regs := (rfl)
@[simp] theorem putHost_lastRead (p : Nat) (v : HostPort) : (putHost d p v).lastRead = d.lastRead := (rfl)
@[simp] theorem putHost_win (p : Nat) (v : HostPort) : (putHost d p v).win = d.win := (rfl)
@[simp] theorem putHost_slices (p : Nat) (v : HostPort) : (putHost d p v).slices = d.slices := (rfl)
@[simp] theorem putHost_miss (p : Nat) (v : HostPort) : (putHost d p v).miss = d.miss := (rfl)
@[simp] theorem putHost_thrash (p : Nat) (v : HostPort) : (putHost d p v).thrash = d.thrash := (rfl)
@[simp] theorem putHost_deadEv (p : Nat) (v : HostPort) : (putHost d p v).deadEv = d.deadEv := (rfl)
@[simp] theorem putHost_mem (p : Nat) (v : HostPort) : (putHost d p v).mem = d.mem := (rfl)
@[simp] theorem putHost_pmap (p : Nat) (v : HostPort) : (putHost d p v).pmap = d.pmap := (rfl)
@[simp] theorem putHost_shoot (p : Nat) (v : HostPort) : (putHost d p v).shoot = d.shoot := (rfl)
@[simp] theorem putHost_btc (p : Nat) (v : HostPort) : (putHost d p v).btc = d.btc := (rfl)
@[simp] theorem putHost_errs (p : Nat) (v : HostPort) : (putHost d p v).errs = d.errs := (rfl)
@[simp] theorem putHost_chk (p : Nat) (v : HostPort) : (putHost d p v).chk = d.chk := (rfl)
@[simp] theorem putHost_xts (p : Nat) (v : HostPort) : (putHost d p v).xts = d.xts := (rfl)
@[simp] theorem putHost_scrub (p : Nat) (v : HostPort) : (putHost d p v).scrub = d.scrub := (rfl)
@[simp] theorem putHost_banks (p : Nat) (v : HostPort) : (putHost d p v).banks = d.banks := (rfl)
@[simp] theorem putHost_net (p : Nat) (v : HostPort) : (putHost d p v).net = d.net := (rfl)
@[simp] theorem putHost_expiry (p : Nat) (v : HostPort) : (putHost d p v).expiry = d.expiry := (rfl)
@[simp] theorem putHost_fencedRes (p : Nat) (v : HostPort) : (putHost d p v).fencedRes = d.fencedRes := (rfl)
@[simp] theorem putHost_unreach (p : Nat) (v : HostPort) : (putHost d p v).unreach = d.unreach := (rfl)
@[simp] theorem putHost_budget (p : Nat) (v : HostPort) : (putHost d p v).budget = d.budget := (rfl)
@[simp] theorem putHost_funnel (p : Nat) (v : HostPort) : (putHost d p v).funnel = d.funnel := (rfl)
@[simp] theorem putHost_clusters (p : Nat) (v : HostPort) : (putHost d p v).clusters = d.clusters := (rfl)
@[simp] theorem putHost_fab (p : Nat) (v : HostPort) : (putHost d p v).fab = d.fab := (rfl)
@[simp] theorem putHost_lov (p : Nat) (v : HostPort) : (putHost d p v).lov = d.lov := (rfl)
@[simp] theorem putHost_disp (p : Nat) (v : HostPort) : (putHost d p v).disp = d.disp := (rfl)
@[simp] theorem putHost_sor (p : Nat) (v : HostPort) : (putHost d p v).sor = d.sor := (rfl)
@[simp] theorem putHost_flash (p : Nat) (v : HostPort) : (putHost d p v).flash = d.flash := (rfl)
@[simp] theorem putHost_fuses (p : Nat) (v : HostPort) : (putHost d p v).fuses = d.fuses := (rfl)
@[simp] theorem putHost_boot (p : Nat) (v : HostPort) : (putHost d p v).boot = d.boot := (rfl)
@[simp] theorem putHost_cvus (p : Nat) (v : HostPort) : (putHost d p v).cvus = d.cvus := (rfl)

/-! ### putSession -/

@[simp] theorem putSession_cores (n : Nat) (v : Option Session) : (putSession d n v).cores = d.cores := (rfl)
@[simp] theorem putSession_reqs (n : Nat) (v : Option Session) : (putSession d n v).reqs = d.reqs := (rfl)
@[simp] theorem putSession_nextId (n : Nat) (v : Option Session) : (putSession d n v).nextId = d.nextId := (rfl)
@[simp] theorem putSession_free (n : Nat) (v : Option Session) : (putSession d n v).free = d.free := (rfl)
@[simp] theorem putSession_now (n : Nat) (v : Option Session) : (putSession d n v).now = d.now := (rfl)
@[simp] theorem putSession_regs (n : Nat) (v : Option Session) : (putSession d n v).regs = d.regs := (rfl)
@[simp] theorem putSession_lastRead (n : Nat) (v : Option Session) : (putSession d n v).lastRead = d.lastRead := (rfl)
@[simp] theorem putSession_win (n : Nat) (v : Option Session) : (putSession d n v).win = d.win := (rfl)
@[simp] theorem putSession_slices (n : Nat) (v : Option Session) : (putSession d n v).slices = d.slices := (rfl)
@[simp] theorem putSession_miss (n : Nat) (v : Option Session) : (putSession d n v).miss = d.miss := (rfl)
@[simp] theorem putSession_thrash (n : Nat) (v : Option Session) : (putSession d n v).thrash = d.thrash := (rfl)
@[simp] theorem putSession_deadEv (n : Nat) (v : Option Session) : (putSession d n v).deadEv = d.deadEv := (rfl)
@[simp] theorem putSession_mem (n : Nat) (v : Option Session) : (putSession d n v).mem = d.mem := (rfl)
@[simp] theorem putSession_pmap (n : Nat) (v : Option Session) : (putSession d n v).pmap = d.pmap := (rfl)
@[simp] theorem putSession_shoot (n : Nat) (v : Option Session) : (putSession d n v).shoot = d.shoot := (rfl)
@[simp] theorem putSession_btc (n : Nat) (v : Option Session) : (putSession d n v).btc = d.btc := (rfl)
@[simp] theorem putSession_errs (n : Nat) (v : Option Session) : (putSession d n v).errs = d.errs := (rfl)
@[simp] theorem putSession_chk (n : Nat) (v : Option Session) : (putSession d n v).chk = d.chk := (rfl)
@[simp] theorem putSession_xts (n : Nat) (v : Option Session) : (putSession d n v).xts = d.xts := (rfl)
@[simp] theorem putSession_scrub (n : Nat) (v : Option Session) : (putSession d n v).scrub = d.scrub := (rfl)
@[simp] theorem putSession_banks (n : Nat) (v : Option Session) : (putSession d n v).banks = d.banks := (rfl)
@[simp] theorem putSession_net (n : Nat) (v : Option Session) : (putSession d n v).net = d.net := (rfl)
@[simp] theorem putSession_expiry (n : Nat) (v : Option Session) : (putSession d n v).expiry = d.expiry := (rfl)
@[simp] theorem putSession_fencedRes (n : Nat) (v : Option Session) : (putSession d n v).fencedRes = d.fencedRes := (rfl)
@[simp] theorem putSession_unreach (n : Nat) (v : Option Session) : (putSession d n v).unreach = d.unreach := (rfl)
@[simp] theorem putSession_budget (n : Nat) (v : Option Session) : (putSession d n v).budget = d.budget := (rfl)
@[simp] theorem putSession_funnel (n : Nat) (v : Option Session) : (putSession d n v).funnel = d.funnel := (rfl)
@[simp] theorem putSession_clusters (n : Nat) (v : Option Session) : (putSession d n v).clusters = d.clusters := (rfl)
@[simp] theorem putSession_fab (n : Nat) (v : Option Session) : (putSession d n v).fab = d.fab := (rfl)
@[simp] theorem putSession_lov (n : Nat) (v : Option Session) : (putSession d n v).lov = d.lov := (rfl)
@[simp] theorem putSession_disp (n : Nat) (v : Option Session) : (putSession d n v).disp = d.disp := (rfl)
@[simp] theorem putSession_sor (n : Nat) (v : Option Session) : (putSession d n v).sor = d.sor := (rfl)
@[simp] theorem putSession_flash (n : Nat) (v : Option Session) : (putSession d n v).flash = d.flash := (rfl)
@[simp] theorem putSession_fuses (n : Nat) (v : Option Session) : (putSession d n v).fuses = d.fuses := (rfl)
@[simp] theorem putSession_boot (n : Nat) (v : Option Session) : (putSession d n v).boot = d.boot := (rfl)
@[simp] theorem putSession_cvus (n : Nat) (v : Option Session) : (putSession d n v).cvus = d.cvus := (rfl)

/-! ### setDisp -/

@[simp] theorem setDisp_cores (p : Disp) : (setDisp d p).cores = d.cores := (rfl)
@[simp] theorem setDisp_reqs (p : Disp) : (setDisp d p).reqs = d.reqs := (rfl)
@[simp] theorem setDisp_nextId (p : Disp) : (setDisp d p).nextId = d.nextId := (rfl)
@[simp] theorem setDisp_free (p : Disp) : (setDisp d p).free = d.free := (rfl)
@[simp] theorem setDisp_now (p : Disp) : (setDisp d p).now = d.now := (rfl)
@[simp] theorem setDisp_regs (p : Disp) : (setDisp d p).regs = d.regs := (rfl)
@[simp] theorem setDisp_lastRead (p : Disp) : (setDisp d p).lastRead = d.lastRead := (rfl)
@[simp] theorem setDisp_win (p : Disp) : (setDisp d p).win = d.win := (rfl)
@[simp] theorem setDisp_slices (p : Disp) : (setDisp d p).slices = d.slices := (rfl)
@[simp] theorem setDisp_miss (p : Disp) : (setDisp d p).miss = d.miss := (rfl)
@[simp] theorem setDisp_thrash (p : Disp) : (setDisp d p).thrash = d.thrash := (rfl)
@[simp] theorem setDisp_deadEv (p : Disp) : (setDisp d p).deadEv = d.deadEv := (rfl)
@[simp] theorem setDisp_mem (p : Disp) : (setDisp d p).mem = d.mem := (rfl)
@[simp] theorem setDisp_pmap (p : Disp) : (setDisp d p).pmap = d.pmap := (rfl)
@[simp] theorem setDisp_shoot (p : Disp) : (setDisp d p).shoot = d.shoot := (rfl)
@[simp] theorem setDisp_btc (p : Disp) : (setDisp d p).btc = d.btc := (rfl)
@[simp] theorem setDisp_errs (p : Disp) : (setDisp d p).errs = d.errs := (rfl)
@[simp] theorem setDisp_chk (p : Disp) : (setDisp d p).chk = d.chk := (rfl)
@[simp] theorem setDisp_xts (p : Disp) : (setDisp d p).xts = d.xts := (rfl)
@[simp] theorem setDisp_scrub (p : Disp) : (setDisp d p).scrub = d.scrub := (rfl)
@[simp] theorem setDisp_banks (p : Disp) : (setDisp d p).banks = d.banks := (rfl)
@[simp] theorem setDisp_net (p : Disp) : (setDisp d p).net = d.net := (rfl)
@[simp] theorem setDisp_expiry (p : Disp) : (setDisp d p).expiry = d.expiry := (rfl)
@[simp] theorem setDisp_fencedRes (p : Disp) : (setDisp d p).fencedRes = d.fencedRes := (rfl)
@[simp] theorem setDisp_unreach (p : Disp) : (setDisp d p).unreach = d.unreach := (rfl)
@[simp] theorem setDisp_budget (p : Disp) : (setDisp d p).budget = d.budget := (rfl)
@[simp] theorem setDisp_funnel (p : Disp) : (setDisp d p).funnel = d.funnel := (rfl)
@[simp] theorem setDisp_clusters (p : Disp) : (setDisp d p).clusters = d.clusters := (rfl)
@[simp] theorem setDisp_fab (p : Disp) : (setDisp d p).fab = d.fab := (rfl)
@[simp] theorem setDisp_lov (p : Disp) : (setDisp d p).lov = d.lov := (rfl)
@[simp] theorem setDisp_hpt (p : Disp) : (setDisp d p).hpt = d.hpt := (rfl)
@[simp] theorem setDisp_sor (p : Disp) : (setDisp d p).sor = d.sor := (rfl)
@[simp] theorem setDisp_flash (p : Disp) : (setDisp d p).flash = d.flash := (rfl)
@[simp] theorem setDisp_fuses (p : Disp) : (setDisp d p).fuses = d.fuses := (rfl)
@[simp] theorem setDisp_boot (p : Disp) : (setDisp d p).boot = d.boot := (rfl)
@[simp] theorem setDisp_cvus (p : Disp) : (setDisp d p).cvus = d.cvus := (rfl)

/-! ### setHpt -/

@[simp] theorem setHpt_cores (h : Hpt) : (setHpt d h).cores = d.cores := (rfl)
@[simp] theorem setHpt_reqs (h : Hpt) : (setHpt d h).reqs = d.reqs := (rfl)
@[simp] theorem setHpt_nextId (h : Hpt) : (setHpt d h).nextId = d.nextId := (rfl)
@[simp] theorem setHpt_free (h : Hpt) : (setHpt d h).free = d.free := (rfl)
@[simp] theorem setHpt_now (h : Hpt) : (setHpt d h).now = d.now := (rfl)
@[simp] theorem setHpt_regs (h : Hpt) : (setHpt d h).regs = d.regs := (rfl)
@[simp] theorem setHpt_lastRead (h : Hpt) : (setHpt d h).lastRead = d.lastRead := (rfl)
@[simp] theorem setHpt_win (h : Hpt) : (setHpt d h).win = d.win := (rfl)
@[simp] theorem setHpt_slices (h : Hpt) : (setHpt d h).slices = d.slices := (rfl)
@[simp] theorem setHpt_miss (h : Hpt) : (setHpt d h).miss = d.miss := (rfl)
@[simp] theorem setHpt_thrash (h : Hpt) : (setHpt d h).thrash = d.thrash := (rfl)
@[simp] theorem setHpt_deadEv (h : Hpt) : (setHpt d h).deadEv = d.deadEv := (rfl)
@[simp] theorem setHpt_mem (h : Hpt) : (setHpt d h).mem = d.mem := (rfl)
@[simp] theorem setHpt_pmap (h : Hpt) : (setHpt d h).pmap = d.pmap := (rfl)
@[simp] theorem setHpt_shoot (h : Hpt) : (setHpt d h).shoot = d.shoot := (rfl)
@[simp] theorem setHpt_btc (h : Hpt) : (setHpt d h).btc = d.btc := (rfl)
@[simp] theorem setHpt_errs (h : Hpt) : (setHpt d h).errs = d.errs := (rfl)
@[simp] theorem setHpt_chk (h : Hpt) : (setHpt d h).chk = d.chk := (rfl)
@[simp] theorem setHpt_xts (h : Hpt) : (setHpt d h).xts = d.xts := (rfl)
@[simp] theorem setHpt_scrub (h : Hpt) : (setHpt d h).scrub = d.scrub := (rfl)
@[simp] theorem setHpt_banks (h : Hpt) : (setHpt d h).banks = d.banks := (rfl)
@[simp] theorem setHpt_net (h : Hpt) : (setHpt d h).net = d.net := (rfl)
@[simp] theorem setHpt_expiry (h : Hpt) : (setHpt d h).expiry = d.expiry := (rfl)
@[simp] theorem setHpt_fencedRes (h : Hpt) : (setHpt d h).fencedRes = d.fencedRes := (rfl)
@[simp] theorem setHpt_unreach (h : Hpt) : (setHpt d h).unreach = d.unreach := (rfl)
@[simp] theorem setHpt_budget (h : Hpt) : (setHpt d h).budget = d.budget := (rfl)
@[simp] theorem setHpt_funnel (h : Hpt) : (setHpt d h).funnel = d.funnel := (rfl)
@[simp] theorem setHpt_clusters (h : Hpt) : (setHpt d h).clusters = d.clusters := (rfl)
@[simp] theorem setHpt_fab (h : Hpt) : (setHpt d h).fab = d.fab := (rfl)
@[simp] theorem setHpt_lov (h : Hpt) : (setHpt d h).lov = d.lov := (rfl)
@[simp] theorem setHpt_disp (h : Hpt) : (setHpt d h).disp = d.disp := (rfl)
@[simp] theorem setHpt_sor (h : Hpt) : (setHpt d h).sor = d.sor := (rfl)
@[simp] theorem setHpt_flash (h : Hpt) : (setHpt d h).flash = d.flash := (rfl)
@[simp] theorem setHpt_fuses (h : Hpt) : (setHpt d h).fuses = d.fuses := (rfl)
@[simp] theorem setHpt_boot (h : Hpt) : (setHpt d h).boot = d.boot := (rfl)
@[simp] theorem setHpt_cvus (h : Hpt) : (setHpt d h).cvus = d.cvus := (rfl)

/-! ### setFab -/

@[simp] theorem setFab_cores (f : Fab) : (setFab d f).cores = d.cores := (rfl)
@[simp] theorem setFab_reqs (f : Fab) : (setFab d f).reqs = d.reqs := (rfl)
@[simp] theorem setFab_nextId (f : Fab) : (setFab d f).nextId = d.nextId := (rfl)
@[simp] theorem setFab_free (f : Fab) : (setFab d f).free = d.free := (rfl)
@[simp] theorem setFab_now (f : Fab) : (setFab d f).now = d.now := (rfl)
@[simp] theorem setFab_regs (f : Fab) : (setFab d f).regs = d.regs := (rfl)
@[simp] theorem setFab_lastRead (f : Fab) : (setFab d f).lastRead = d.lastRead := (rfl)
@[simp] theorem setFab_win (f : Fab) : (setFab d f).win = d.win := (rfl)
@[simp] theorem setFab_slices (f : Fab) : (setFab d f).slices = d.slices := (rfl)
@[simp] theorem setFab_miss (f : Fab) : (setFab d f).miss = d.miss := (rfl)
@[simp] theorem setFab_thrash (f : Fab) : (setFab d f).thrash = d.thrash := (rfl)
@[simp] theorem setFab_deadEv (f : Fab) : (setFab d f).deadEv = d.deadEv := (rfl)
@[simp] theorem setFab_mem (f : Fab) : (setFab d f).mem = d.mem := (rfl)
@[simp] theorem setFab_pmap (f : Fab) : (setFab d f).pmap = d.pmap := (rfl)
@[simp] theorem setFab_shoot (f : Fab) : (setFab d f).shoot = d.shoot := (rfl)
@[simp] theorem setFab_btc (f : Fab) : (setFab d f).btc = d.btc := (rfl)
@[simp] theorem setFab_errs (f : Fab) : (setFab d f).errs = d.errs := (rfl)
@[simp] theorem setFab_chk (f : Fab) : (setFab d f).chk = d.chk := (rfl)
@[simp] theorem setFab_xts (f : Fab) : (setFab d f).xts = d.xts := (rfl)
@[simp] theorem setFab_scrub (f : Fab) : (setFab d f).scrub = d.scrub := (rfl)
@[simp] theorem setFab_banks (f : Fab) : (setFab d f).banks = d.banks := (rfl)
@[simp] theorem setFab_net (f : Fab) : (setFab d f).net = d.net := (rfl)
@[simp] theorem setFab_expiry (f : Fab) : (setFab d f).expiry = d.expiry := (rfl)
@[simp] theorem setFab_fencedRes (f : Fab) : (setFab d f).fencedRes = d.fencedRes := (rfl)
@[simp] theorem setFab_unreach (f : Fab) : (setFab d f).unreach = d.unreach := (rfl)
@[simp] theorem setFab_budget (f : Fab) : (setFab d f).budget = d.budget := (rfl)
@[simp] theorem setFab_funnel (f : Fab) : (setFab d f).funnel = d.funnel := (rfl)
@[simp] theorem setFab_clusters (f : Fab) : (setFab d f).clusters = d.clusters := (rfl)
@[simp] theorem setFab_lov (f : Fab) : (setFab d f).lov = d.lov := (rfl)
@[simp] theorem setFab_hpt (f : Fab) : (setFab d f).hpt = d.hpt := (rfl)
@[simp] theorem setFab_disp (f : Fab) : (setFab d f).disp = d.disp := (rfl)
@[simp] theorem setFab_sor (f : Fab) : (setFab d f).sor = d.sor := (rfl)
@[simp] theorem setFab_flash (f : Fab) : (setFab d f).flash = d.flash := (rfl)
@[simp] theorem setFab_fuses (f : Fab) : (setFab d f).fuses = d.fuses := (rfl)
@[simp] theorem setFab_boot (f : Fab) : (setFab d f).boot = d.boot := (rfl)
@[simp] theorem setFab_cvus (f : Fab) : (setFab d f).cvus = d.cvus := (rfl)

/-! ### putQueue -/

@[simp] theorem putQueue_cores (q : Nat) (v : Option Queue) : (putQueue d q v).cores = d.cores := (rfl)
@[simp] theorem putQueue_reqs (q : Nat) (v : Option Queue) : (putQueue d q v).reqs = d.reqs := (rfl)
@[simp] theorem putQueue_nextId (q : Nat) (v : Option Queue) : (putQueue d q v).nextId = d.nextId := (rfl)
@[simp] theorem putQueue_free (q : Nat) (v : Option Queue) : (putQueue d q v).free = d.free := (rfl)
@[simp] theorem putQueue_now (q : Nat) (v : Option Queue) : (putQueue d q v).now = d.now := (rfl)
@[simp] theorem putQueue_regs (q : Nat) (v : Option Queue) : (putQueue d q v).regs = d.regs := (rfl)
@[simp] theorem putQueue_lastRead (q : Nat) (v : Option Queue) : (putQueue d q v).lastRead = d.lastRead := (rfl)
@[simp] theorem putQueue_win (q : Nat) (v : Option Queue) : (putQueue d q v).win = d.win := (rfl)
@[simp] theorem putQueue_slices (q : Nat) (v : Option Queue) : (putQueue d q v).slices = d.slices := (rfl)
@[simp] theorem putQueue_miss (q : Nat) (v : Option Queue) : (putQueue d q v).miss = d.miss := (rfl)
@[simp] theorem putQueue_thrash (q : Nat) (v : Option Queue) : (putQueue d q v).thrash = d.thrash := (rfl)
@[simp] theorem putQueue_deadEv (q : Nat) (v : Option Queue) : (putQueue d q v).deadEv = d.deadEv := (rfl)
@[simp] theorem putQueue_mem (q : Nat) (v : Option Queue) : (putQueue d q v).mem = d.mem := (rfl)
@[simp] theorem putQueue_pmap (q : Nat) (v : Option Queue) : (putQueue d q v).pmap = d.pmap := (rfl)
@[simp] theorem putQueue_shoot (q : Nat) (v : Option Queue) : (putQueue d q v).shoot = d.shoot := (rfl)
@[simp] theorem putQueue_btc (q : Nat) (v : Option Queue) : (putQueue d q v).btc = d.btc := (rfl)
@[simp] theorem putQueue_errs (q : Nat) (v : Option Queue) : (putQueue d q v).errs = d.errs := (rfl)
@[simp] theorem putQueue_chk (q : Nat) (v : Option Queue) : (putQueue d q v).chk = d.chk := (rfl)
@[simp] theorem putQueue_xts (q : Nat) (v : Option Queue) : (putQueue d q v).xts = d.xts := (rfl)
@[simp] theorem putQueue_scrub (q : Nat) (v : Option Queue) : (putQueue d q v).scrub = d.scrub := (rfl)
@[simp] theorem putQueue_banks (q : Nat) (v : Option Queue) : (putQueue d q v).banks = d.banks := (rfl)
@[simp] theorem putQueue_net (q : Nat) (v : Option Queue) : (putQueue d q v).net = d.net := (rfl)
@[simp] theorem putQueue_expiry (q : Nat) (v : Option Queue) : (putQueue d q v).expiry = d.expiry := (rfl)
@[simp] theorem putQueue_fencedRes (q : Nat) (v : Option Queue) : (putQueue d q v).fencedRes = d.fencedRes := (rfl)
@[simp] theorem putQueue_unreach (q : Nat) (v : Option Queue) : (putQueue d q v).unreach = d.unreach := (rfl)
@[simp] theorem putQueue_budget (q : Nat) (v : Option Queue) : (putQueue d q v).budget = d.budget := (rfl)
@[simp] theorem putQueue_funnel (q : Nat) (v : Option Queue) : (putQueue d q v).funnel = d.funnel := (rfl)
@[simp] theorem putQueue_clusters (q : Nat) (v : Option Queue) : (putQueue d q v).clusters = d.clusters := (rfl)
@[simp] theorem putQueue_fab (q : Nat) (v : Option Queue) : (putQueue d q v).fab = d.fab := (rfl)
@[simp] theorem putQueue_lov (q : Nat) (v : Option Queue) : (putQueue d q v).lov = d.lov := (rfl)
@[simp] theorem putQueue_hpt (q : Nat) (v : Option Queue) : (putQueue d q v).hpt = d.hpt := (rfl)
@[simp] theorem putQueue_sor (q : Nat) (v : Option Queue) : (putQueue d q v).sor = d.sor := (rfl)
@[simp] theorem putQueue_flash (q : Nat) (v : Option Queue) : (putQueue d q v).flash = d.flash := (rfl)
@[simp] theorem putQueue_fuses (q : Nat) (v : Option Queue) : (putQueue d q v).fuses = d.fuses := (rfl)
@[simp] theorem putQueue_boot (q : Nat) (v : Option Queue) : (putQueue d q v).boot = d.boot := (rfl)
@[simp] theorem putQueue_cvus (q : Nat) (v : Option Queue) : (putQueue d q v).cvus = d.cvus := (rfl)

/-! ### putEngine -/

@[simp] theorem putEngine_cores (e : Nat) (v : Engine) : (putEngine d e v).cores = d.cores := (rfl)
@[simp] theorem putEngine_reqs (e : Nat) (v : Engine) : (putEngine d e v).reqs = d.reqs := (rfl)
@[simp] theorem putEngine_nextId (e : Nat) (v : Engine) : (putEngine d e v).nextId = d.nextId := (rfl)
@[simp] theorem putEngine_free (e : Nat) (v : Engine) : (putEngine d e v).free = d.free := (rfl)
@[simp] theorem putEngine_now (e : Nat) (v : Engine) : (putEngine d e v).now = d.now := (rfl)
@[simp] theorem putEngine_regs (e : Nat) (v : Engine) : (putEngine d e v).regs = d.regs := (rfl)
@[simp] theorem putEngine_lastRead (e : Nat) (v : Engine) : (putEngine d e v).lastRead = d.lastRead := (rfl)
@[simp] theorem putEngine_win (e : Nat) (v : Engine) : (putEngine d e v).win = d.win := (rfl)
@[simp] theorem putEngine_slices (e : Nat) (v : Engine) : (putEngine d e v).slices = d.slices := (rfl)
@[simp] theorem putEngine_miss (e : Nat) (v : Engine) : (putEngine d e v).miss = d.miss := (rfl)
@[simp] theorem putEngine_thrash (e : Nat) (v : Engine) : (putEngine d e v).thrash = d.thrash := (rfl)
@[simp] theorem putEngine_deadEv (e : Nat) (v : Engine) : (putEngine d e v).deadEv = d.deadEv := (rfl)
@[simp] theorem putEngine_mem (e : Nat) (v : Engine) : (putEngine d e v).mem = d.mem := (rfl)
@[simp] theorem putEngine_pmap (e : Nat) (v : Engine) : (putEngine d e v).pmap = d.pmap := (rfl)
@[simp] theorem putEngine_shoot (e : Nat) (v : Engine) : (putEngine d e v).shoot = d.shoot := (rfl)
@[simp] theorem putEngine_btc (e : Nat) (v : Engine) : (putEngine d e v).btc = d.btc := (rfl)
@[simp] theorem putEngine_errs (e : Nat) (v : Engine) : (putEngine d e v).errs = d.errs := (rfl)
@[simp] theorem putEngine_chk (e : Nat) (v : Engine) : (putEngine d e v).chk = d.chk := (rfl)
@[simp] theorem putEngine_xts (e : Nat) (v : Engine) : (putEngine d e v).xts = d.xts := (rfl)
@[simp] theorem putEngine_scrub (e : Nat) (v : Engine) : (putEngine d e v).scrub = d.scrub := (rfl)
@[simp] theorem putEngine_banks (e : Nat) (v : Engine) : (putEngine d e v).banks = d.banks := (rfl)
@[simp] theorem putEngine_net (e : Nat) (v : Engine) : (putEngine d e v).net = d.net := (rfl)
@[simp] theorem putEngine_expiry (e : Nat) (v : Engine) : (putEngine d e v).expiry = d.expiry := (rfl)
@[simp] theorem putEngine_fencedRes (e : Nat) (v : Engine) : (putEngine d e v).fencedRes = d.fencedRes := (rfl)
@[simp] theorem putEngine_unreach (e : Nat) (v : Engine) : (putEngine d e v).unreach = d.unreach := (rfl)
@[simp] theorem putEngine_budget (e : Nat) (v : Engine) : (putEngine d e v).budget = d.budget := (rfl)
@[simp] theorem putEngine_funnel (e : Nat) (v : Engine) : (putEngine d e v).funnel = d.funnel := (rfl)
@[simp] theorem putEngine_clusters (e : Nat) (v : Engine) : (putEngine d e v).clusters = d.clusters := (rfl)
@[simp] theorem putEngine_fab (e : Nat) (v : Engine) : (putEngine d e v).fab = d.fab := (rfl)
@[simp] theorem putEngine_lov (e : Nat) (v : Engine) : (putEngine d e v).lov = d.lov := (rfl)
@[simp] theorem putEngine_hpt (e : Nat) (v : Engine) : (putEngine d e v).hpt = d.hpt := (rfl)
@[simp] theorem putEngine_sor (e : Nat) (v : Engine) : (putEngine d e v).sor = d.sor := (rfl)
@[simp] theorem putEngine_flash (e : Nat) (v : Engine) : (putEngine d e v).flash = d.flash := (rfl)
@[simp] theorem putEngine_fuses (e : Nat) (v : Engine) : (putEngine d e v).fuses = d.fuses := (rfl)
@[simp] theorem putEngine_boot (e : Nat) (v : Engine) : (putEngine d e v).boot = d.boot := (rfl)
@[simp] theorem putEngine_cvus (e : Nat) (v : Engine) : (putEngine d e v).cvus = d.cvus := (rfl)

/-! ### setSor -/

@[simp] theorem setSor_cores (s : Sorrel) : (setSor d s).cores = d.cores := (rfl)
@[simp] theorem setSor_reqs (s : Sorrel) : (setSor d s).reqs = d.reqs := (rfl)
@[simp] theorem setSor_nextId (s : Sorrel) : (setSor d s).nextId = d.nextId := (rfl)
@[simp] theorem setSor_free (s : Sorrel) : (setSor d s).free = d.free := (rfl)
@[simp] theorem setSor_now (s : Sorrel) : (setSor d s).now = d.now := (rfl)
@[simp] theorem setSor_regs (s : Sorrel) : (setSor d s).regs = d.regs := (rfl)
@[simp] theorem setSor_lastRead (s : Sorrel) : (setSor d s).lastRead = d.lastRead := (rfl)
@[simp] theorem setSor_win (s : Sorrel) : (setSor d s).win = d.win := (rfl)
@[simp] theorem setSor_slices (s : Sorrel) : (setSor d s).slices = d.slices := (rfl)
@[simp] theorem setSor_miss (s : Sorrel) : (setSor d s).miss = d.miss := (rfl)
@[simp] theorem setSor_thrash (s : Sorrel) : (setSor d s).thrash = d.thrash := (rfl)
@[simp] theorem setSor_deadEv (s : Sorrel) : (setSor d s).deadEv = d.deadEv := (rfl)
@[simp] theorem setSor_mem (s : Sorrel) : (setSor d s).mem = d.mem := (rfl)
@[simp] theorem setSor_pmap (s : Sorrel) : (setSor d s).pmap = d.pmap := (rfl)
@[simp] theorem setSor_shoot (s : Sorrel) : (setSor d s).shoot = d.shoot := (rfl)
@[simp] theorem setSor_btc (s : Sorrel) : (setSor d s).btc = d.btc := (rfl)
@[simp] theorem setSor_errs (s : Sorrel) : (setSor d s).errs = d.errs := (rfl)
@[simp] theorem setSor_chk (s : Sorrel) : (setSor d s).chk = d.chk := (rfl)
@[simp] theorem setSor_xts (s : Sorrel) : (setSor d s).xts = d.xts := (rfl)
@[simp] theorem setSor_scrub (s : Sorrel) : (setSor d s).scrub = d.scrub := (rfl)
@[simp] theorem setSor_banks (s : Sorrel) : (setSor d s).banks = d.banks := (rfl)
@[simp] theorem setSor_net (s : Sorrel) : (setSor d s).net = d.net := (rfl)
@[simp] theorem setSor_expiry (s : Sorrel) : (setSor d s).expiry = d.expiry := (rfl)
@[simp] theorem setSor_fencedRes (s : Sorrel) : (setSor d s).fencedRes = d.fencedRes := (rfl)
@[simp] theorem setSor_unreach (s : Sorrel) : (setSor d s).unreach = d.unreach := (rfl)
@[simp] theorem setSor_budget (s : Sorrel) : (setSor d s).budget = d.budget := (rfl)
@[simp] theorem setSor_funnel (s : Sorrel) : (setSor d s).funnel = d.funnel := (rfl)
@[simp] theorem setSor_clusters (s : Sorrel) : (setSor d s).clusters = d.clusters := (rfl)
@[simp] theorem setSor_fab (s : Sorrel) : (setSor d s).fab = d.fab := (rfl)
@[simp] theorem setSor_lov (s : Sorrel) : (setSor d s).lov = d.lov := (rfl)
@[simp] theorem setSor_hpt (s : Sorrel) : (setSor d s).hpt = d.hpt := (rfl)
@[simp] theorem setSor_disp (s : Sorrel) : (setSor d s).disp = d.disp := (rfl)
@[simp] theorem setSor_flash (s : Sorrel) : (setSor d s).flash = d.flash := (rfl)
@[simp] theorem setSor_fuses (s : Sorrel) : (setSor d s).fuses = d.fuses := (rfl)
@[simp] theorem setSor_boot (s : Sorrel) : (setSor d s).boot = d.boot := (rfl)
@[simp] theorem setSor_cvus (s : Sorrel) : (setSor d s).cvus = d.cvus := (rfl)

/-! ### putSensor -/

@[simp] theorem putSensor_cores (j : Nat) (s : Sensor) : (putSensor d j s).cores = d.cores := (rfl)
@[simp] theorem putSensor_reqs (j : Nat) (s : Sensor) : (putSensor d j s).reqs = d.reqs := (rfl)
@[simp] theorem putSensor_nextId (j : Nat) (s : Sensor) : (putSensor d j s).nextId = d.nextId := (rfl)
@[simp] theorem putSensor_free (j : Nat) (s : Sensor) : (putSensor d j s).free = d.free := (rfl)
@[simp] theorem putSensor_now (j : Nat) (s : Sensor) : (putSensor d j s).now = d.now := (rfl)
@[simp] theorem putSensor_regs (j : Nat) (s : Sensor) : (putSensor d j s).regs = d.regs := (rfl)
@[simp] theorem putSensor_lastRead (j : Nat) (s : Sensor) : (putSensor d j s).lastRead = d.lastRead := (rfl)
@[simp] theorem putSensor_win (j : Nat) (s : Sensor) : (putSensor d j s).win = d.win := (rfl)
@[simp] theorem putSensor_slices (j : Nat) (s : Sensor) : (putSensor d j s).slices = d.slices := (rfl)
@[simp] theorem putSensor_miss (j : Nat) (s : Sensor) : (putSensor d j s).miss = d.miss := (rfl)
@[simp] theorem putSensor_thrash (j : Nat) (s : Sensor) : (putSensor d j s).thrash = d.thrash := (rfl)
@[simp] theorem putSensor_deadEv (j : Nat) (s : Sensor) : (putSensor d j s).deadEv = d.deadEv := (rfl)
@[simp] theorem putSensor_mem (j : Nat) (s : Sensor) : (putSensor d j s).mem = d.mem := (rfl)
@[simp] theorem putSensor_pmap (j : Nat) (s : Sensor) : (putSensor d j s).pmap = d.pmap := (rfl)
@[simp] theorem putSensor_shoot (j : Nat) (s : Sensor) : (putSensor d j s).shoot = d.shoot := (rfl)
@[simp] theorem putSensor_btc (j : Nat) (s : Sensor) : (putSensor d j s).btc = d.btc := (rfl)
@[simp] theorem putSensor_errs (j : Nat) (s : Sensor) : (putSensor d j s).errs = d.errs := (rfl)
@[simp] theorem putSensor_chk (j : Nat) (s : Sensor) : (putSensor d j s).chk = d.chk := (rfl)
@[simp] theorem putSensor_xts (j : Nat) (s : Sensor) : (putSensor d j s).xts = d.xts := (rfl)
@[simp] theorem putSensor_scrub (j : Nat) (s : Sensor) : (putSensor d j s).scrub = d.scrub := (rfl)
@[simp] theorem putSensor_banks (j : Nat) (s : Sensor) : (putSensor d j s).banks = d.banks := (rfl)
@[simp] theorem putSensor_net (j : Nat) (s : Sensor) : (putSensor d j s).net = d.net := (rfl)
@[simp] theorem putSensor_expiry (j : Nat) (s : Sensor) : (putSensor d j s).expiry = d.expiry := (rfl)
@[simp] theorem putSensor_fencedRes (j : Nat) (s : Sensor) : (putSensor d j s).fencedRes = d.fencedRes := (rfl)
@[simp] theorem putSensor_unreach (j : Nat) (s : Sensor) : (putSensor d j s).unreach = d.unreach := (rfl)
@[simp] theorem putSensor_budget (j : Nat) (s : Sensor) : (putSensor d j s).budget = d.budget := (rfl)
@[simp] theorem putSensor_funnel (j : Nat) (s : Sensor) : (putSensor d j s).funnel = d.funnel := (rfl)
@[simp] theorem putSensor_clusters (j : Nat) (s : Sensor) : (putSensor d j s).clusters = d.clusters := (rfl)
@[simp] theorem putSensor_fab (j : Nat) (s : Sensor) : (putSensor d j s).fab = d.fab := (rfl)
@[simp] theorem putSensor_lov (j : Nat) (s : Sensor) : (putSensor d j s).lov = d.lov := (rfl)
@[simp] theorem putSensor_hpt (j : Nat) (s : Sensor) : (putSensor d j s).hpt = d.hpt := (rfl)
@[simp] theorem putSensor_disp (j : Nat) (s : Sensor) : (putSensor d j s).disp = d.disp := (rfl)
@[simp] theorem putSensor_flash (j : Nat) (s : Sensor) : (putSensor d j s).flash = d.flash := (rfl)
@[simp] theorem putSensor_fuses (j : Nat) (s : Sensor) : (putSensor d j s).fuses = d.fuses := (rfl)
@[simp] theorem putSensor_boot (j : Nat) (s : Sensor) : (putSensor d j s).boot = d.boot := (rfl)
@[simp] theorem putSensor_cvus (j : Nat) (s : Sensor) : (putSensor d j s).cvus = d.cvus := (rfl)

/-! ### putEl -/

@[simp] theorem putEl_cores (i e : Nat) (x : RuleEl) : (putEl d i e x).cores = d.cores := (rfl)
@[simp] theorem putEl_reqs (i e : Nat) (x : RuleEl) : (putEl d i e x).reqs = d.reqs := (rfl)
@[simp] theorem putEl_nextId (i e : Nat) (x : RuleEl) : (putEl d i e x).nextId = d.nextId := (rfl)
@[simp] theorem putEl_free (i e : Nat) (x : RuleEl) : (putEl d i e x).free = d.free := (rfl)
@[simp] theorem putEl_now (i e : Nat) (x : RuleEl) : (putEl d i e x).now = d.now := (rfl)
@[simp] theorem putEl_regs (i e : Nat) (x : RuleEl) : (putEl d i e x).regs = d.regs := (rfl)
@[simp] theorem putEl_lastRead (i e : Nat) (x : RuleEl) : (putEl d i e x).lastRead = d.lastRead := (rfl)
@[simp] theorem putEl_win (i e : Nat) (x : RuleEl) : (putEl d i e x).win = d.win := (rfl)
@[simp] theorem putEl_slices (i e : Nat) (x : RuleEl) : (putEl d i e x).slices = d.slices := (rfl)
@[simp] theorem putEl_miss (i e : Nat) (x : RuleEl) : (putEl d i e x).miss = d.miss := (rfl)
@[simp] theorem putEl_thrash (i e : Nat) (x : RuleEl) : (putEl d i e x).thrash = d.thrash := (rfl)
@[simp] theorem putEl_deadEv (i e : Nat) (x : RuleEl) : (putEl d i e x).deadEv = d.deadEv := (rfl)
@[simp] theorem putEl_mem (i e : Nat) (x : RuleEl) : (putEl d i e x).mem = d.mem := (rfl)
@[simp] theorem putEl_pmap (i e : Nat) (x : RuleEl) : (putEl d i e x).pmap = d.pmap := (rfl)
@[simp] theorem putEl_shoot (i e : Nat) (x : RuleEl) : (putEl d i e x).shoot = d.shoot := (rfl)
@[simp] theorem putEl_btc (i e : Nat) (x : RuleEl) : (putEl d i e x).btc = d.btc := (rfl)
@[simp] theorem putEl_errs (i e : Nat) (x : RuleEl) : (putEl d i e x).errs = d.errs := (rfl)
@[simp] theorem putEl_chk (i e : Nat) (x : RuleEl) : (putEl d i e x).chk = d.chk := (rfl)
@[simp] theorem putEl_xts (i e : Nat) (x : RuleEl) : (putEl d i e x).xts = d.xts := (rfl)
@[simp] theorem putEl_scrub (i e : Nat) (x : RuleEl) : (putEl d i e x).scrub = d.scrub := (rfl)
@[simp] theorem putEl_banks (i e : Nat) (x : RuleEl) : (putEl d i e x).banks = d.banks := (rfl)
@[simp] theorem putEl_net (i e : Nat) (x : RuleEl) : (putEl d i e x).net = d.net := (rfl)
@[simp] theorem putEl_expiry (i e : Nat) (x : RuleEl) : (putEl d i e x).expiry = d.expiry := (rfl)
@[simp] theorem putEl_fencedRes (i e : Nat) (x : RuleEl) : (putEl d i e x).fencedRes = d.fencedRes := (rfl)
@[simp] theorem putEl_unreach (i e : Nat) (x : RuleEl) : (putEl d i e x).unreach = d.unreach := (rfl)
@[simp] theorem putEl_budget (i e : Nat) (x : RuleEl) : (putEl d i e x).budget = d.budget := (rfl)
@[simp] theorem putEl_funnel (i e : Nat) (x : RuleEl) : (putEl d i e x).funnel = d.funnel := (rfl)
@[simp] theorem putEl_clusters (i e : Nat) (x : RuleEl) : (putEl d i e x).clusters = d.clusters := (rfl)
@[simp] theorem putEl_fab (i e : Nat) (x : RuleEl) : (putEl d i e x).fab = d.fab := (rfl)
@[simp] theorem putEl_lov (i e : Nat) (x : RuleEl) : (putEl d i e x).lov = d.lov := (rfl)
@[simp] theorem putEl_hpt (i e : Nat) (x : RuleEl) : (putEl d i e x).hpt = d.hpt := (rfl)
@[simp] theorem putEl_disp (i e : Nat) (x : RuleEl) : (putEl d i e x).disp = d.disp := (rfl)
@[simp] theorem putEl_flash (i e : Nat) (x : RuleEl) : (putEl d i e x).flash = d.flash := (rfl)
@[simp] theorem putEl_fuses (i e : Nat) (x : RuleEl) : (putEl d i e x).fuses = d.fuses := (rfl)
@[simp] theorem putEl_boot (i e : Nat) (x : RuleEl) : (putEl d i e x).boot = d.boot := (rfl)
@[simp] theorem putEl_cvus (i e : Nat) (x : RuleEl) : (putEl d i e x).cvus = d.cvus := (rfl)

/-! ### putFwSlot -/

@[simp] theorem putFwSlot_cores (c s : Nat) (v : Slot) : (putFwSlot d c s v).cores = d.cores := (rfl)
@[simp] theorem putFwSlot_reqs (c s : Nat) (v : Slot) : (putFwSlot d c s v).reqs = d.reqs := (rfl)
@[simp] theorem putFwSlot_nextId (c s : Nat) (v : Slot) : (putFwSlot d c s v).nextId = d.nextId := (rfl)
@[simp] theorem putFwSlot_free (c s : Nat) (v : Slot) : (putFwSlot d c s v).free = d.free := (rfl)
@[simp] theorem putFwSlot_now (c s : Nat) (v : Slot) : (putFwSlot d c s v).now = d.now := (rfl)
@[simp] theorem putFwSlot_regs (c s : Nat) (v : Slot) : (putFwSlot d c s v).regs = d.regs := (rfl)
@[simp] theorem putFwSlot_lastRead (c s : Nat) (v : Slot) : (putFwSlot d c s v).lastRead = d.lastRead := (rfl)
@[simp] theorem putFwSlot_win (c s : Nat) (v : Slot) : (putFwSlot d c s v).win = d.win := (rfl)
@[simp] theorem putFwSlot_slices (c s : Nat) (v : Slot) : (putFwSlot d c s v).slices = d.slices := (rfl)
@[simp] theorem putFwSlot_miss (c s : Nat) (v : Slot) : (putFwSlot d c s v).miss = d.miss := (rfl)
@[simp] theorem putFwSlot_thrash (c s : Nat) (v : Slot) : (putFwSlot d c s v).thrash = d.thrash := (rfl)
@[simp] theorem putFwSlot_deadEv (c s : Nat) (v : Slot) : (putFwSlot d c s v).deadEv = d.deadEv := (rfl)
@[simp] theorem putFwSlot_mem (c s : Nat) (v : Slot) : (putFwSlot d c s v).mem = d.mem := (rfl)
@[simp] theorem putFwSlot_pmap (c s : Nat) (v : Slot) : (putFwSlot d c s v).pmap = d.pmap := (rfl)
@[simp] theorem putFwSlot_shoot (c s : Nat) (v : Slot) : (putFwSlot d c s v).shoot = d.shoot := (rfl)
@[simp] theorem putFwSlot_btc (c s : Nat) (v : Slot) : (putFwSlot d c s v).btc = d.btc := (rfl)
@[simp] theorem putFwSlot_errs (c s : Nat) (v : Slot) : (putFwSlot d c s v).errs = d.errs := (rfl)
@[simp] theorem putFwSlot_chk (c s : Nat) (v : Slot) : (putFwSlot d c s v).chk = d.chk := (rfl)
@[simp] theorem putFwSlot_xts (c s : Nat) (v : Slot) : (putFwSlot d c s v).xts = d.xts := (rfl)
@[simp] theorem putFwSlot_scrub (c s : Nat) (v : Slot) : (putFwSlot d c s v).scrub = d.scrub := (rfl)
@[simp] theorem putFwSlot_banks (c s : Nat) (v : Slot) : (putFwSlot d c s v).banks = d.banks := (rfl)
@[simp] theorem putFwSlot_net (c s : Nat) (v : Slot) : (putFwSlot d c s v).net = d.net := (rfl)
@[simp] theorem putFwSlot_expiry (c s : Nat) (v : Slot) : (putFwSlot d c s v).expiry = d.expiry := (rfl)
@[simp] theorem putFwSlot_fencedRes (c s : Nat) (v : Slot) : (putFwSlot d c s v).fencedRes = d.fencedRes := (rfl)
@[simp] theorem putFwSlot_unreach (c s : Nat) (v : Slot) : (putFwSlot d c s v).unreach = d.unreach := (rfl)
@[simp] theorem putFwSlot_budget (c s : Nat) (v : Slot) : (putFwSlot d c s v).budget = d.budget := (rfl)
@[simp] theorem putFwSlot_funnel (c s : Nat) (v : Slot) : (putFwSlot d c s v).funnel = d.funnel := (rfl)
@[simp] theorem putFwSlot_clusters (c s : Nat) (v : Slot) : (putFwSlot d c s v).clusters = d.clusters := (rfl)
@[simp] theorem putFwSlot_fab (c s : Nat) (v : Slot) : (putFwSlot d c s v).fab = d.fab := (rfl)
@[simp] theorem putFwSlot_lov (c s : Nat) (v : Slot) : (putFwSlot d c s v).lov = d.lov := (rfl)
@[simp] theorem putFwSlot_hpt (c s : Nat) (v : Slot) : (putFwSlot d c s v).hpt = d.hpt := (rfl)
@[simp] theorem putFwSlot_disp (c s : Nat) (v : Slot) : (putFwSlot d c s v).disp = d.disp := (rfl)
@[simp] theorem putFwSlot_sor (c s : Nat) (v : Slot) : (putFwSlot d c s v).sor = d.sor := (rfl)
@[simp] theorem putFwSlot_fuses (c s : Nat) (v : Slot) : (putFwSlot d c s v).fuses = d.fuses := (rfl)
@[simp] theorem putFwSlot_boot (c s : Nat) (v : Slot) : (putFwSlot d c s v).boot = d.boot := (rfl)
@[simp] theorem putFwSlot_cvus (c s : Nat) (v : Slot) : (putFwSlot d c s v).cvus = d.cvus := (rfl)

/-! ### putCvu -/

@[simp] theorem putCvu_cores (u : Nat) (c : Cvu) : (putCvu d u c).cores = d.cores := (rfl)
@[simp] theorem putCvu_reqs (u : Nat) (c : Cvu) : (putCvu d u c).reqs = d.reqs := (rfl)
@[simp] theorem putCvu_nextId (u : Nat) (c : Cvu) : (putCvu d u c).nextId = d.nextId := (rfl)
@[simp] theorem putCvu_free (u : Nat) (c : Cvu) : (putCvu d u c).free = d.free := (rfl)
@[simp] theorem putCvu_now (u : Nat) (c : Cvu) : (putCvu d u c).now = d.now := (rfl)
@[simp] theorem putCvu_regs (u : Nat) (c : Cvu) : (putCvu d u c).regs = d.regs := (rfl)
@[simp] theorem putCvu_lastRead (u : Nat) (c : Cvu) : (putCvu d u c).lastRead = d.lastRead := (rfl)
@[simp] theorem putCvu_win (u : Nat) (c : Cvu) : (putCvu d u c).win = d.win := (rfl)
@[simp] theorem putCvu_slices (u : Nat) (c : Cvu) : (putCvu d u c).slices = d.slices := (rfl)
@[simp] theorem putCvu_miss (u : Nat) (c : Cvu) : (putCvu d u c).miss = d.miss := (rfl)
@[simp] theorem putCvu_thrash (u : Nat) (c : Cvu) : (putCvu d u c).thrash = d.thrash := (rfl)
@[simp] theorem putCvu_deadEv (u : Nat) (c : Cvu) : (putCvu d u c).deadEv = d.deadEv := (rfl)
@[simp] theorem putCvu_mem (u : Nat) (c : Cvu) : (putCvu d u c).mem = d.mem := (rfl)
@[simp] theorem putCvu_pmap (u : Nat) (c : Cvu) : (putCvu d u c).pmap = d.pmap := (rfl)
@[simp] theorem putCvu_shoot (u : Nat) (c : Cvu) : (putCvu d u c).shoot = d.shoot := (rfl)
@[simp] theorem putCvu_btc (u : Nat) (c : Cvu) : (putCvu d u c).btc = d.btc := (rfl)
@[simp] theorem putCvu_errs (u : Nat) (c : Cvu) : (putCvu d u c).errs = d.errs := (rfl)
@[simp] theorem putCvu_chk (u : Nat) (c : Cvu) : (putCvu d u c).chk = d.chk := (rfl)
@[simp] theorem putCvu_xts (u : Nat) (c : Cvu) : (putCvu d u c).xts = d.xts := (rfl)
@[simp] theorem putCvu_scrub (u : Nat) (c : Cvu) : (putCvu d u c).scrub = d.scrub := (rfl)
@[simp] theorem putCvu_banks (u : Nat) (c : Cvu) : (putCvu d u c).banks = d.banks := (rfl)
@[simp] theorem putCvu_net (u : Nat) (c : Cvu) : (putCvu d u c).net = d.net := (rfl)
@[simp] theorem putCvu_expiry (u : Nat) (c : Cvu) : (putCvu d u c).expiry = d.expiry := (rfl)
@[simp] theorem putCvu_fencedRes (u : Nat) (c : Cvu) : (putCvu d u c).fencedRes = d.fencedRes := (rfl)
@[simp] theorem putCvu_unreach (u : Nat) (c : Cvu) : (putCvu d u c).unreach = d.unreach := (rfl)
@[simp] theorem putCvu_budget (u : Nat) (c : Cvu) : (putCvu d u c).budget = d.budget := (rfl)
@[simp] theorem putCvu_funnel (u : Nat) (c : Cvu) : (putCvu d u c).funnel = d.funnel := (rfl)
@[simp] theorem putCvu_clusters (u : Nat) (c : Cvu) : (putCvu d u c).clusters = d.clusters := (rfl)
@[simp] theorem putCvu_fab (u : Nat) (c : Cvu) : (putCvu d u c).fab = d.fab := (rfl)
@[simp] theorem putCvu_lov (u : Nat) (c : Cvu) : (putCvu d u c).lov = d.lov := (rfl)
@[simp] theorem putCvu_hpt (u : Nat) (c : Cvu) : (putCvu d u c).hpt = d.hpt := (rfl)
@[simp] theorem putCvu_disp (u : Nat) (c : Cvu) : (putCvu d u c).disp = d.disp := (rfl)
@[simp] theorem putCvu_sor (u : Nat) (c : Cvu) : (putCvu d u c).sor = d.sor := (rfl)
@[simp] theorem putCvu_flash (u : Nat) (c : Cvu) : (putCvu d u c).flash = d.flash := (rfl)
@[simp] theorem putCvu_fuses (u : Nat) (c : Cvu) : (putCvu d u c).fuses = d.fuses := (rfl)
@[simp] theorem putCvu_boot (u : Nat) (c : Cvu) : (putCvu d u c).boot = d.boot := (rfl)

/-! ### takeFree -/

@[simp] theorem takeFree_cores  : ((takeFree d).2).cores = d.cores := (rfl)
@[simp] theorem takeFree_reqs  : ((takeFree d).2).reqs = d.reqs := (rfl)
@[simp] theorem takeFree_nextId  : ((takeFree d).2).nextId = d.nextId := (rfl)
@[simp] theorem takeFree_now  : ((takeFree d).2).now = d.now := (rfl)
@[simp] theorem takeFree_regs  : ((takeFree d).2).regs = d.regs := (rfl)
@[simp] theorem takeFree_lastRead  : ((takeFree d).2).lastRead = d.lastRead := (rfl)
@[simp] theorem takeFree_win  : ((takeFree d).2).win = d.win := (rfl)
@[simp] theorem takeFree_slices  : ((takeFree d).2).slices = d.slices := (rfl)
@[simp] theorem takeFree_miss  : ((takeFree d).2).miss = d.miss := (rfl)
@[simp] theorem takeFree_thrash  : ((takeFree d).2).thrash = d.thrash := (rfl)
@[simp] theorem takeFree_deadEv  : ((takeFree d).2).deadEv = d.deadEv := (rfl)
@[simp] theorem takeFree_mem  : ((takeFree d).2).mem = d.mem := (rfl)
@[simp] theorem takeFree_pmap  : ((takeFree d).2).pmap = d.pmap := (rfl)
@[simp] theorem takeFree_shoot  : ((takeFree d).2).shoot = d.shoot := (rfl)
@[simp] theorem takeFree_btc  : ((takeFree d).2).btc = d.btc := (rfl)
@[simp] theorem takeFree_errs  : ((takeFree d).2).errs = d.errs := (rfl)
@[simp] theorem takeFree_chk  : ((takeFree d).2).chk = d.chk := (rfl)
@[simp] theorem takeFree_xts  : ((takeFree d).2).xts = d.xts := (rfl)
@[simp] theorem takeFree_scrub  : ((takeFree d).2).scrub = d.scrub := (rfl)
@[simp] theorem takeFree_banks  : ((takeFree d).2).banks = d.banks := (rfl)
@[simp] theorem takeFree_net  : ((takeFree d).2).net = d.net := (rfl)
@[simp] theorem takeFree_expiry  : ((takeFree d).2).expiry = d.expiry := (rfl)
@[simp] theorem takeFree_fencedRes  : ((takeFree d).2).fencedRes = d.fencedRes := (rfl)
@[simp] theorem takeFree_unreach  : ((takeFree d).2).unreach = d.unreach := (rfl)
@[simp] theorem takeFree_budget  : ((takeFree d).2).budget = d.budget := (rfl)
@[simp] theorem takeFree_funnel  : ((takeFree d).2).funnel = d.funnel := (rfl)
@[simp] theorem takeFree_clusters  : ((takeFree d).2).clusters = d.clusters := (rfl)
@[simp] theorem takeFree_fab  : ((takeFree d).2).fab = d.fab := (rfl)
@[simp] theorem takeFree_lov  : ((takeFree d).2).lov = d.lov := (rfl)
@[simp] theorem takeFree_hpt  : ((takeFree d).2).hpt = d.hpt := (rfl)
@[simp] theorem takeFree_disp  : ((takeFree d).2).disp = d.disp := (rfl)
@[simp] theorem takeFree_sor  : ((takeFree d).2).sor = d.sor := (rfl)
@[simp] theorem takeFree_flash  : ((takeFree d).2).flash = d.flash := (rfl)
@[simp] theorem takeFree_fuses  : ((takeFree d).2).fuses = d.fuses := (rfl)
@[simp] theorem takeFree_boot  : ((takeFree d).2).boot = d.boot := (rfl)
@[simp] theorem takeFree_cvus  : ((takeFree d).2).cvus = d.cvus := (rfl)

/-! ### takeId -/

@[simp] theorem takeId_cores  : ((takeId d).2).cores = d.cores := (rfl)
@[simp] theorem takeId_reqs  : ((takeId d).2).reqs = d.reqs := (rfl)
@[simp] theorem takeId_free  : ((takeId d).2).free = d.free := (rfl)
@[simp] theorem takeId_now  : ((takeId d).2).now = d.now := (rfl)
@[simp] theorem takeId_regs  : ((takeId d).2).regs = d.regs := (rfl)
@[simp] theorem takeId_lastRead  : ((takeId d).2).lastRead = d.lastRead := (rfl)
@[simp] theorem takeId_win  : ((takeId d).2).win = d.win := (rfl)
@[simp] theorem takeId_slices  : ((takeId d).2).slices = d.slices := (rfl)
@[simp] theorem takeId_miss  : ((takeId d).2).miss = d.miss := (rfl)
@[simp] theorem takeId_thrash  : ((takeId d).2).thrash = d.thrash := (rfl)
@[simp] theorem takeId_deadEv  : ((takeId d).2).deadEv = d.deadEv := (rfl)
@[simp] theorem takeId_mem  : ((takeId d).2).mem = d.mem := (rfl)
@[simp] theorem takeId_pmap  : ((takeId d).2).pmap = d.pmap := (rfl)
@[simp] theorem takeId_shoot  : ((takeId d).2).shoot = d.shoot := (rfl)
@[simp] theorem takeId_btc  : ((takeId d).2).btc = d.btc := (rfl)
@[simp] theorem takeId_errs  : ((takeId d).2).errs = d.errs := (rfl)
@[simp] theorem takeId_chk  : ((takeId d).2).chk = d.chk := (rfl)
@[simp] theorem takeId_xts  : ((takeId d).2).xts = d.xts := (rfl)
@[simp] theorem takeId_scrub  : ((takeId d).2).scrub = d.scrub := (rfl)
@[simp] theorem takeId_banks  : ((takeId d).2).banks = d.banks := (rfl)
@[simp] theorem takeId_net  : ((takeId d).2).net = d.net := (rfl)
@[simp] theorem takeId_expiry  : ((takeId d).2).expiry = d.expiry := (rfl)
@[simp] theorem takeId_fencedRes  : ((takeId d).2).fencedRes = d.fencedRes := (rfl)
@[simp] theorem takeId_unreach  : ((takeId d).2).unreach = d.unreach := (rfl)
@[simp] theorem takeId_budget  : ((takeId d).2).budget = d.budget := (rfl)
@[simp] theorem takeId_funnel  : ((takeId d).2).funnel = d.funnel := (rfl)
@[simp] theorem takeId_clusters  : ((takeId d).2).clusters = d.clusters := (rfl)
@[simp] theorem takeId_fab  : ((takeId d).2).fab = d.fab := (rfl)
@[simp] theorem takeId_lov  : ((takeId d).2).lov = d.lov := (rfl)
@[simp] theorem takeId_hpt  : ((takeId d).2).hpt = d.hpt := (rfl)
@[simp] theorem takeId_disp  : ((takeId d).2).disp = d.disp := (rfl)
@[simp] theorem takeId_sor  : ((takeId d).2).sor = d.sor := (rfl)
@[simp] theorem takeId_flash  : ((takeId d).2).flash = d.flash := (rfl)
@[simp] theorem takeId_fuses  : ((takeId d).2).fuses = d.fuses := (rfl)
@[simp] theorem takeId_boot  : ((takeId d).2).boot = d.boot := (rfl)
@[simp] theorem takeId_cvus  : ((takeId d).2).cvus = d.cvus := (rfl)

/-! ### Reading the updated place -/

@[simp] theorem regGet_regPut (a : Nat) (v : D64) : regGet (regPut d a v) a = v := mapGet_put_same _ _ _ _
theorem regGet_regPut_other (a b : Nat) (v : D64) (h : b ≠ a) : regGet (regPut d a v) b = regGet d b :=
  mapGet_put_other_default _ _ _ _ _ _ h
@[simp] theorem regGet_regSet (a lo w v : Nat) : regGet (regSet d a lo w v) a = setBits (regGet d a) lo w v :=
  mapGet_put_same _ _ _ _
theorem regGet_regSet_other (a b lo w v : Nat) (h : b ≠ a) : regGet (regSet d a lo w v) b = regGet d b :=
  mapGet_put_other_default _ _ _ _ _ _ h
@[simp] theorem getCluster_putCluster (c : Nat) (k : Cluster) : getCluster (putCluster d c k) c = k := mapGet_put_same _ _ _ _
theorem getCluster_putCluster_other (c j' : Nat) (k : Cluster) (h : j' ≠ c) : getCluster (putCluster d c k) j' = getCluster d j' :=
  mapGet_put_other _ _ _ _ _ h
@[simp] theorem getSlice_putSlice (n : Nat) (v : Slice) : getSlice (putSlice d n v) n = v := mapGet_put_same _ _ _ _
theorem getSlice_putSlice_other (n j' : Nat) (v : Slice) (h : j' ≠ n) : getSlice (putSlice d n v) j' = getSlice d j' :=
  mapGet_put_other _ _ _ _ _ h
@[simp] theorem getLink_putLink (p : Nat) (v : FabPort) : getLink (putLink d p v) p = v := mapGet_put_same _ _ _ _
theorem getLink_putLink_other (p j' : Nat) (v : FabPort) (h : j' ≠ p) : getLink (putLink d p v) j' = getLink d j' :=
  mapGet_put_other _ _ _ _ _ h
@[simp] theorem getCtx_putCtx (c : Nat) (x : LovCtx) : getCtx (putCtx d c x) c = x := mapGet_put_same _ _ _ _
theorem getCtx_putCtx_other (c j' : Nat) (x : LovCtx) (h : j' ≠ c) : getCtx (putCtx d c x) j' = getCtx d j' :=
  mapGet_put_other _ _ _ _ _ h
@[simp] theorem getHost_putHost (p : Nat) (v : HostPort) : getHost (putHost d p v) p = v := mapGet_put_same _ _ _ _
theorem getHost_putHost_other (p j' : Nat) (v : HostPort) (h : j' ≠ p) : getHost (putHost d p v) j' = getHost d j' :=
  mapGet_put_other _ _ _ _ _ h
@[simp] theorem getSession_putSession (n : Nat) (v : Option Session) : getSession (putSession d n v) n = v := mapGet_put_same _ _ _ _
theorem getSession_putSession_other (n j' : Nat) (v : Option Session) (h : j' ≠ n) : getSession (putSession d n v) j' = getSession d j' :=
  mapGet_put_other _ _ _ _ _ h
@[simp] theorem getQueue_putQueue (q : Nat) (v : Option Queue) : getQueue (putQueue d q v) q = v := mapGet_put_same _ _ _ _
theorem getQueue_putQueue_other (q j' : Nat) (v : Option Queue) (h : j' ≠ q) : getQueue (putQueue d q v) j' = getQueue d j' :=
  mapGet_put_other _ _ _ _ _ h
@[simp] theorem getEngine_putEngine (e : Nat) (v : Engine) : getEngine (putEngine d e v) e = v := mapGet_put_same _ _ _ _
theorem getEngine_putEngine_other (e j' : Nat) (v : Engine) (h : j' ≠ e) : getEngine (putEngine d e v) j' = getEngine d j' :=
  mapGet_put_other _ _ _ _ _ h
@[simp] theorem getSensor_putSensor (j : Nat) (x : Sensor) : getSensor (putSensor d j x) j = x := mapGet_put_same _ _ _ _
theorem getSensor_putSensor_other (j j' : Nat) (x : Sensor) (h : j' ≠ j) : getSensor (putSensor d j x) j' = getSensor d j' :=
  mapGet_put_other _ _ _ _ _ h
@[simp] theorem getCvu_putCvu (u : Nat) (c : Cvu) : getCvu (putCvu d u c) u = c := mapGet_put_same _ _ _ _
theorem getCvu_putCvu_other (u j' : Nat) (c : Cvu) (h : j' ≠ u) : getCvu (putCvu d u c) j' = getCvu d j' :=
  mapGet_put_other _ _ _ _ _ h
@[simp] theorem getEl_putEl (i e : Nat) (x : RuleEl) : getEl (putEl d i e x) i e = x := mapGet_put_same _ _ _ _
theorem getEl_putEl_other (i e i' e' : Nat) (x : RuleEl) (h : 64 * i' + e' ≠ 64 * i + e) :
    getEl (putEl d i e x) i' e' = getEl d i' e' := mapGet_put_other _ _ _ _ _ h
@[simp] theorem fwSlot_putFwSlot (c s : Nat) (v : Slot) : fwSlot (putFwSlot d c s v) c s = v := mapGet_put_same _ _ _ _

/-! ### Registers and cores across other updates -/

@[simp] theorem regGet_putCore (a' : Nat) (n : Nat) (c : Core) : regGet (putCore d n c) a' = regGet d a' := (rfl)
@[simp] theorem regGet_putCluster (a' : Nat) (c : Nat) (k : Cluster) : regGet (putCluster d c k) a' = regGet d a' := (rfl)
@[simp] theorem regGet_putSlice (a' : Nat) (n : Nat) (v : Slice) : regGet (putSlice d n v) a' = regGet d a' := (rfl)
@[simp] theorem regGet_putThrash (a' : Nat) (h k : Nat) (t : Thrash) : regGet (putThrash d h k t) a' = regGet d a' := (rfl)
@[simp] theorem regGet_putPort (a' : Nat) (s b : Nat) (p : BankPort) : regGet (putPort d s b p) a' = regGet d a' := (rfl)
@[simp] theorem regGet_putReq (a' : Nat) (r : Req) : regGet (putReq d r) a' = regGet d a' := (rfl)
@[simp] theorem regGet_putLink (a' : Nat) (p : Nat) (v : FabPort) : regGet (putLink d p v) a' = regGet d a' := (rfl)
@[simp] theorem regGet_putCtx (a' : Nat) (c : Nat) (x : LovCtx) : regGet (putCtx d c x) a' = regGet d a' := (rfl)
@[simp] theorem regGet_putHost (a' : Nat) (p : Nat) (v : HostPort) : regGet (putHost d p v) a' = regGet d a' := (rfl)
@[simp] theorem regGet_putSession (a' : Nat) (n : Nat) (v : Option Session) : regGet (putSession d n v) a' = regGet d a' := (rfl)
@[simp] theorem regGet_setDisp (a' : Nat) (p : Disp) : regGet (setDisp d p) a' = regGet d a' := (rfl)
@[simp] theorem regGet_setHpt (a' : Nat) (h : Hpt) : regGet (setHpt d h) a' = regGet d a' := (rfl)
@[simp] theorem regGet_setFab (a' : Nat) (f : Fab) : regGet (setFab d f) a' = regGet d a' := (rfl)
@[simp] theorem regGet_putQueue (a' : Nat) (q : Nat) (v : Option Queue) : regGet (putQueue d q v) a' = regGet d a' := (rfl)
@[simp] theorem regGet_putEngine (a' : Nat) (e : Nat) (v : Engine) : regGet (putEngine d e v) a' = regGet d a' := (rfl)
@[simp] theorem regGet_setSor (a' : Nat) (s : Sorrel) : regGet (setSor d s) a' = regGet d a' := (rfl)
@[simp] theorem regGet_putSensor (a' : Nat) (j : Nat) (s : Sensor) : regGet (putSensor d j s) a' = regGet d a' := (rfl)
@[simp] theorem regGet_putEl (a' : Nat) (i e : Nat) (x : RuleEl) : regGet (putEl d i e x) a' = regGet d a' := (rfl)
@[simp] theorem regGet_putFwSlot (a' : Nat) (c s : Nat) (v : Slot) : regGet (putFwSlot d c s v) a' = regGet d a' := (rfl)
@[simp] theorem regGet_putCvu (a' : Nat) (u : Nat) (c : Cvu) : regGet (putCvu d u c) a' = regGet d a' := (rfl)
@[simp] theorem regGet_takeFree (a' : Nat)  : regGet ((takeFree d).2) a' = regGet d a' := (rfl)
@[simp] theorem regGet_takeId (a' : Nat)  : regGet ((takeId d).2) a' = regGet d a' := (rfl)
@[simp] theorem getCore_regPut (n' : Nat) (a : Nat) (v : D64) : getCore (regPut d a v) n' = getCore d n' := (rfl)
@[simp] theorem getCore_regSet (n' : Nat) (a lo w v : Nat) : getCore (regSet d a lo w v) n' = getCore d n' := (rfl)
@[simp] theorem getCore_putCluster (n' : Nat) (c : Nat) (k : Cluster) : getCore (putCluster d c k) n' = getCore d n' := (rfl)
@[simp] theorem getCore_putSlice (n' : Nat) (n : Nat) (v : Slice) : getCore (putSlice d n v) n' = getCore d n' := (rfl)
@[simp] theorem getCore_putThrash (n' : Nat) (h k : Nat) (t : Thrash) : getCore (putThrash d h k t) n' = getCore d n' := (rfl)
@[simp] theorem getCore_putPort (n' : Nat) (s b : Nat) (p : BankPort) : getCore (putPort d s b p) n' = getCore d n' := (rfl)
@[simp] theorem getCore_putReq (n' : Nat) (r : Req) : getCore (putReq d r) n' = getCore d n' := (rfl)
@[simp] theorem getCore_putLink (n' : Nat) (p : Nat) (v : FabPort) : getCore (putLink d p v) n' = getCore d n' := (rfl)
@[simp] theorem getCore_putCtx (n' : Nat) (c : Nat) (x : LovCtx) : getCore (putCtx d c x) n' = getCore d n' := (rfl)
@[simp] theorem getCore_putHost (n' : Nat) (p : Nat) (v : HostPort) : getCore (putHost d p v) n' = getCore d n' := (rfl)
@[simp] theorem getCore_putSession (n' : Nat) (n : Nat) (v : Option Session) : getCore (putSession d n v) n' = getCore d n' := (rfl)
@[simp] theorem getCore_setDisp (n' : Nat) (p : Disp) : getCore (setDisp d p) n' = getCore d n' := (rfl)
@[simp] theorem getCore_setHpt (n' : Nat) (h : Hpt) : getCore (setHpt d h) n' = getCore d n' := (rfl)
@[simp] theorem getCore_setFab (n' : Nat) (f : Fab) : getCore (setFab d f) n' = getCore d n' := (rfl)
@[simp] theorem getCore_putQueue (n' : Nat) (q : Nat) (v : Option Queue) : getCore (putQueue d q v) n' = getCore d n' := (rfl)
@[simp] theorem getCore_putEngine (n' : Nat) (e : Nat) (v : Engine) : getCore (putEngine d e v) n' = getCore d n' := (rfl)
@[simp] theorem getCore_setSor (n' : Nat) (s : Sorrel) : getCore (setSor d s) n' = getCore d n' := (rfl)
@[simp] theorem getCore_putSensor (n' : Nat) (j : Nat) (s : Sensor) : getCore (putSensor d j s) n' = getCore d n' := (rfl)
@[simp] theorem getCore_putEl (n' : Nat) (i e : Nat) (x : RuleEl) : getCore (putEl d i e x) n' = getCore d n' := (rfl)
@[simp] theorem getCore_putFwSlot (n' : Nat) (c s : Nat) (v : Slot) : getCore (putFwSlot d c s v) n' = getCore d n' := (rfl)
@[simp] theorem getCore_putCvu (n' : Nat) (u : Nat) (c : Cvu) : getCore (putCvu d u c) n' = getCore d n' := (rfl)
@[simp] theorem getCore_takeFree (n' : Nat)  : getCore ((takeFree d).2) n' = getCore d n' := (rfl)
@[simp] theorem getCore_takeId (n' : Nat)  : getCore ((takeId d).2) n' = getCore d n' := (rfl)
@[simp] theorem getCluster_regPut (n' : Nat) (a : Nat) (v : D64) : getCluster (regPut d a v) n' = getCluster d n' := (rfl)
@[simp] theorem getCluster_regSet (n' : Nat) (a lo w v : Nat) : getCluster (regSet d a lo w v) n' = getCluster d n' := (rfl)
@[simp] theorem getCluster_putCore (n' : Nat) (n : Nat) (c : Core) : getCluster (putCore d n c) n' = getCluster d n' := (rfl)
@[simp] theorem getCluster_putSlice (n' : Nat) (n : Nat) (v : Slice) : getCluster (putSlice d n v) n' = getCluster d n' := (rfl)
@[simp] theorem getCluster_putThrash (n' : Nat) (h k : Nat) (t : Thrash) : getCluster (putThrash d h k t) n' = getCluster d n' := (rfl)
@[simp] theorem getCluster_putPort (n' : Nat) (s b : Nat) (p : BankPort) : getCluster (putPort d s b p) n' = getCluster d n' := (rfl)
@[simp] theorem getCluster_putReq (n' : Nat) (r : Req) : getCluster (putReq d r) n' = getCluster d n' := (rfl)
@[simp] theorem getCluster_putLink (n' : Nat) (p : Nat) (v : FabPort) : getCluster (putLink d p v) n' = getCluster d n' := (rfl)
@[simp] theorem getCluster_putCtx (n' : Nat) (c : Nat) (x : LovCtx) : getCluster (putCtx d c x) n' = getCluster d n' := (rfl)
@[simp] theorem getCluster_putHost (n' : Nat) (p : Nat) (v : HostPort) : getCluster (putHost d p v) n' = getCluster d n' := (rfl)
@[simp] theorem getCluster_putSession (n' : Nat) (n : Nat) (v : Option Session) : getCluster (putSession d n v) n' = getCluster d n' := (rfl)
@[simp] theorem getCluster_setDisp (n' : Nat) (p : Disp) : getCluster (setDisp d p) n' = getCluster d n' := (rfl)
@[simp] theorem getCluster_setHpt (n' : Nat) (h : Hpt) : getCluster (setHpt d h) n' = getCluster d n' := (rfl)
@[simp] theorem getCluster_setFab (n' : Nat) (f : Fab) : getCluster (setFab d f) n' = getCluster d n' := (rfl)
@[simp] theorem getCluster_putQueue (n' : Nat) (q : Nat) (v : Option Queue) : getCluster (putQueue d q v) n' = getCluster d n' := (rfl)
@[simp] theorem getCluster_putEngine (n' : Nat) (e : Nat) (v : Engine) : getCluster (putEngine d e v) n' = getCluster d n' := (rfl)
@[simp] theorem getCluster_setSor (n' : Nat) (s : Sorrel) : getCluster (setSor d s) n' = getCluster d n' := (rfl)
@[simp] theorem getCluster_putSensor (n' : Nat) (j : Nat) (s : Sensor) : getCluster (putSensor d j s) n' = getCluster d n' := (rfl)
@[simp] theorem getCluster_putEl (n' : Nat) (i e : Nat) (x : RuleEl) : getCluster (putEl d i e x) n' = getCluster d n' := (rfl)
@[simp] theorem getCluster_putFwSlot (n' : Nat) (c s : Nat) (v : Slot) : getCluster (putFwSlot d c s v) n' = getCluster d n' := (rfl)
@[simp] theorem getCluster_putCvu (n' : Nat) (u : Nat) (c : Cvu) : getCluster (putCvu d u c) n' = getCluster d n' := (rfl)
@[simp] theorem getCluster_takeFree (n' : Nat)  : getCluster ((takeFree d).2) n' = getCluster d n' := (rfl)
@[simp] theorem getCluster_takeId (n' : Nat)  : getCluster ((takeId d).2) n' = getCluster d n' := (rfl)

/-! ### Outcomes -/

theorem ok_eq (e : Dev) : ok s e = .next (s.withDev e) := (rfl)
/-- A gated event answers a next state just when its conditions hold, and then changes the device only. -/
theorem gated_next_iff (m : String) (r : Option Dev) (t : State) :
    gated s m r = .next t ↔ ∃ e, r = some e ∧ t = s.withDev e := by
  cases r with
  | none => simp [gated]
  | some e => simp [gated, State.withDev, eq_comm]
theorem gated_some (m : String) (e : Dev) : gated s m (some e) = .next (s.withDev e) := (rfl)
/-- It stops in no fault, and its one refusal says that the event cannot occur. -/
theorem gated_not_fault (m : String) (r : Option Dev) (f : Fault) : gated s m r ≠ .fault f := by
  cases r <;> simp [gated]
theorem gated_refused_iff (m : String) (r : Option Dev) (q : Refusal) :
    gated s m r = .refused q ↔ r = none ∧ q = .notEnabled m := by
  cases r <;> simp [gated, eq_comm]

/-! ### Records -/

/-- Sending a record changes the funnel, and a full queue of a source counts in a register, and nothing else. -/
theorem post_only (r : ErrRec) : post d r = { d with regs := (post d r).regs, funnel := (post d r).funnel } := by
  unfold post; dsimp only; split <;> rfl
theorem event_only (source : Word) (code l0 l1 l2 det : Nat) : event d source code l0 l1 l2 det =
    { d with regs := (event d source code l0 l1 l2 det).regs, funnel := (event d source code l0 l1 l2 det).funnel } :=
  post_only d _
/-- Of the registers only the funnel's status can change. -/
theorem post_regGet (r : ErrRec) (a : Nat) (h : a ≠ aErrStatus) : regGet (post d r) a = regGet d a := by
  unfold post; dsimp only; split
  · exact mapGet_put_other_default _ _ _ _ _ _ h
  · rfl
theorem postMerged_only (k : Nat) (r : ErrRec) : postMerged d k r =
    { d with regs := (postMerged d k r).regs, funnel := (postMerged d k r).funnel } := by
  unfold postMerged; dsimp only; split
  · rw [post_only]
  · rfl

end Sys2Proof.Machine
end

