-- ==== Sys2Proof/Laws/Memory.lean ====
section
/-! SUPPORT. Every shared operation over external memory keeps the canonical form of its cells: reads leave memory as it
is, and writes go through one line of one frame. -/

namespace Sys2Proof.Machine

variable (d : Dev)

/-! ## What leaves memory as it is -/

@[simp] theorem regWrap_mem (a lo w n : Nat) : (regWrap d a lo w n).mem = d.mem := (rfl)
@[simp] theorem regSat_mem (a lo w n : Nat) : (regSat d a lo w n).mem = d.mem := (rfl)
@[simp] theorem clearMark_mem (m u i : Nat) : (clearMark d m u i).mem = d.mem := (rfl)
@[simp] theorem addMark_mem (e : ErrMark) : (addMark d e).mem = d.mem := (rfl)
@[simp] theorem post_mem (r : ErrRec) : (post d r).mem = d.mem := by rw [post_only]
@[simp] theorem event_mem (s : Word) (code l0 l1 l2 det : Nat) : (event d s code l0 l1 l2 det).mem = d.mem := by
  rw [event_only]
@[simp] theorem postMerged_mem (k : Nat) (r : ErrRec) : (postMerged d k r).mem = d.mem := by rw [postMerged_only]
@[simp] theorem memRecord_mem (s : Word) (code m u l1 l2 det : Nat) (inj : Bool) :
    (memRecord d s code m u l1 l2 det inj).mem = d.mem := by
  unfold memRecord; dsimp only; split <;> simp
@[simp] theorem writeWord_mem (t m u i : Nat) : (writeWord d t m u i).mem = d.mem := by
  unfold writeWord; dsimp only; split <;> simp
@[simp] theorem checkTouch_mem (c u : Nat) (w : Bool) : (checkTouch d c u w).mem = d.mem := by
  unfold checkTouch; split <;> rfl
@[simp] theorem deviceReport_mem (c u : Nat) : (deviceReport d c u).mem = d.mem := by
  unfold deviceReport; split
  · split
    · rfl
    · simp
  · rfl
@[simp] theorem readUnit_mem (f o dev : Nat) : (readUnit d f o dev).2.mem = d.mem := by
  unfold readUnit; dsimp only
  split
  · simp
  · split
    · simp
    · split <;> simp
/-- Reading a line of a frame changes no byte of memory. -/
@[simp] theorem readMemLine_mem (k f i dev : Nat) : (readMemLine d k f i dev).2.mem = d.mem := by
  unfold readMemLine countMbw; simp

/-! ## Writing a line -/

/-- Writing bytes of a line of a frame keeps the form. -/
theorem writeMemLine_wf (k f i dev : Nat) (data : Line) (mask : LMask) (h : Memory.wf d.mem = true) :
    Memory.wf (writeMemLine d k f i dev data mask).mem = true := by
  unfold writeMemLine
  generalize List.range 2 = l
  induction l generalizing d with
  | nil => exact h
  | cons a l ih =>
    simp only [List.foldl_cons]
    apply ih
    split
    · exact h
    · rename_i hp
      by_cases hw : bits mask (64 * a) 64 = 2 ^ 64 - 1
      · simp only [hw, decide_true, if_true]
        simp only [countMbw, regWrap_mem, checkTouch_mem, writeWord_mem]
        exact memStore_wf _ _ _ _ h
      · simp only [hw, decide_false, Bool.false_eq_true, if_false]
        split
        · simp only [countMbw, regWrap_mem, checkTouch_mem, writeWord_mem, readUnit_mem]
          exact memStore_wf _ _ _ _ h
        · simp only [countMbw, regWrap_mem, readUnit_mem]; exact h

/-! ## The cache die -/

@[simp] theorem putSet_mem (s i : Nat) (ls : List CLine) : (putSet d s i ls).mem = d.mem := by
  unfold putSet; exact putSlice_mem _ _ _
@[simp] theorem count_mem (s k e : Nat) : (count d s k e).mem = d.mem := regWrap_mem _ _ _ _ _
@[simp] theorem countBw_mem (s k : Nat) : (countBw d s k).mem = d.mem := regWrap_mem _ _ _ _ _
@[simp] theorem dropLine_mem (s l : Nat) : (dropLine d s l).mem = d.mem := by
  unfold dropLine; exact putSet_mem _ _ _ _
@[simp] theorem putLine_mem (s : Nat) (c : CLine) : (putLine d s c).mem = d.mem := by
  unfold putLine; exact putSet_mem _ _ _ _
@[simp] theorem pinEvicted_mem (s l : Nat) : (pinEvicted d s l).mem = d.mem := by
  unfold pinEvicted; rw [event_mem]; exact putSlice_mem _ _ _
@[simp] theorem clearTomb_mem (s l : Nat) : (clearTomb d s l).mem = d.mem := by
  unfold clearTomb; exact putSlice_mem _ _ _
@[simp] theorem injectLine_mem (s l : Nat) : (injectLine d s l).mem = d.mem := by simp [injectLine]
@[simp] theorem deadReread_mem (s k l : Nat) (b : Bool) : (deadReread d s k l b).mem = d.mem := by
  have hc : (count (clearTomb d s l) s k 3).mem = d.mem := by rw [count_mem, clearTomb_mem]
  rw [deadReread]
  generalize count (clearTomb d s l) s k 3 = e at hc ⊢
  split
  · rw [event_mem]; exact hc
  · exact hc
@[simp] theorem poisonLine_mem (s : Nat) (c : CLine) : (poisonLine d s c).mem = d.mem := by
  rw [poisonLine]
  by_cases hc : c.pinned = true
  · rw [if_pos hc, pinEvicted_mem, putLine_mem]
  · rw [if_neg hc, putLine_mem]
@[simp] theorem checkData_mem (s l : Nat) (c : CLine) : (checkData d s l c).2.mem = d.mem := by
  rw [checkData]
  cases markOf d 0x0A s l with
  | none => rfl
  | some m =>
    by_cases hp : c.poison = true
    · simp only [if_pos hp, clearMark_mem]
    · by_cases hm : m.dbl = true
      · simp only [if_neg hp, if_pos hm, memRecord_mem, poisonLine_mem, clearMark_mem]
      · simp only [if_neg hp, if_neg hm, memRecord_mem, regSat_mem, clearMark_mem]
@[simp] theorem checkLine_mem (s l : Nat) : (checkLine d s l).2.mem = d.mem := by
  rw [checkLine]
  cases findLine d s l with
  | none => rfl
  | some c =>
    cases markOf d 0x0B s l with
    | none => exact checkData_mem _ _ _ _
    | some m =>
      by_cases hm : m.dbl = true
      · simp only [if_pos hm, memRecord_mem, dropLine_mem, clearMark_mem]
      · simp only [if_neg hm, checkData_mem, memRecord_mem, regSat_mem, clearMark_mem]
@[simp] theorem noteTomb_mem (s k l : Nat) (op : ReqOp) : (noteTomb d s k l op).mem = d.mem := by
  rw [noteTomb]
  split
  · rfl
  · split
    · exact deadReread_mem _ _ _ _ _
    · exact clearTomb_mem _ _ _
@[simp] theorem noteMiss_mem (s k l : Nat) (op : ReqOp) : (noteMiss d s k l op).mem = d.mem := by
  rw [noteMiss, noteTomb_mem, count_mem]

theorem writeBack_wf (k : Nat) (c : CLine) (h : Memory.wf d.mem = true) : Memory.wf (writeBack d k c).mem = true := by
  rw [writeBack]
  by_cases hc : c.dirty = true
  · rw [if_pos hc]; exact writeMemLine_wf d k (pteFrame c.pte) (lineIdx c.line) (c.line * 128) c.data fullMask h
  · rw [if_neg hc]; exact h
theorem readBack_wf (s k : Nat) (c : CLine) (h : Memory.wf d.mem = true) :
    Memory.wf (readBack d s k c).2.mem = true := by
  rw [readBack]
  by_cases hd : (!c.dirty || c.poison) = true
  · rw [if_pos hd]; exact h
  · rw [if_neg hd]
    by_cases hm : ((markOf d 0x0A s c.line).isNone && (markOf d 0x0B s c.line).isNone) = true
    · rw [if_pos hm]; exact writeBack_wf d k c h
    · rw [if_neg hm]
      have hc := checkLine_mem d s c.line
      generalize checkLine d s c.line = p at hc ⊢
      obtain ⟨o, x⟩ := p
      cases o with
      | none => simp only at hc ⊢; rw [hc]; exact h
      | some y =>
        simp only at hc ⊢
        split
        · rw [hc]; exact h
        · exact writeBack_wf _ _ _ (by rw [hc]; exact h)
theorem evict_wf (s : Nat) (c : CLine) (h : Memory.wf d.mem = true) : Memory.wf (evict d s c).mem = true := by
  have hb := readBack_wf d s c.cls c h
  rw [evict]
  generalize readBack d s c.cls c = p at hb ⊢
  obtain ⟨o, x⟩ := p
  cases o with
  | none => exact hb
  | some y =>
    simp only
    split
    · exact hb
    · rw [count_mem, dropLine_mem]; exact hb
theorem allocate_wf (fuel s k : Nat) (c : CLine) (need : Nat) (h : Memory.wf d.mem = true) :
    Memory.wf (allocate fuel d s k c need).2.mem = true := by
  induction fuel generalizing d with
  | zero => exact h
  | succ n ih =>
    unfold allocate; dsimp only
    split
    · rw [putSet_mem]; exact h
    · split
      · exact h
      · split
        · exact ih _ (by rw [putSet_mem]; exact h)
        · exact ih _ (evict_wf d s _ h)

theorem foldl_evict_wf (s : Nat) (l : List CLine) (h : Memory.wf d.mem = true) :
    Memory.wf (l.foldl (fun d c => evict d s c) d).mem = true := by
  induction l generalizing d with
  | nil => exact h
  | cons c l ih => exact ih _ (evict_wf d s c h)
theorem freeTag_wf (fuel s k i : Nat) (h : Memory.wf d.mem = true) : Memory.wf (freeTag fuel d s k i).mem = true := by
  induction fuel generalizing d with
  | zero => exact h
  | succ n ih =>
    unfold freeTag; dsimp only
    split
    · exact h
    · split
      · exact ih _ (evict_wf _ _ _ h)
      · exact ih _ (by rw [putSet_mem]; exact h)
theorem convertWay_wf (s i w : Nat) (e : Dev) (h : Memory.wf d.mem = true) (hc : convertWay d s i = some (w, e)) :
    Memory.wf e.mem = true := by
  unfold convertWay at hc; dsimp only at hc
  split at hc
  · split at hc
    · cases hc; exact foldl_evict_wf _ _ _ h
    · cases hc
  · cases hc
theorem placePinned_wf (s k : Nat) (c : CLine) (need : Nat) (e : Dev) (h : Memory.wf d.mem = true)
    (hc : placePinned d s k c need = some e) : Memory.wf e.mem = true := by
  have hf := freeTag_wf d allocFuel s k (setOf c.line) h
  unfold placePinned at hc; dsimp only at hc
  split at hc
  · split at hc
    · cases hc
    · split at hc
      · cases hc; simpa using hf
      · split at hc
        · rename_i hw; cases hc; simpa using convertWay_wf _ _ _ _ _ hf hw
        · cases hc
  · cases hc
theorem placeNew_wf (s k line : Nat) (e : D64) (data : Line) (dirty : Bool) (h : Memory.wf d.mem = true) :
    Memory.wf (placeNew d s k line e data dirty).2.mem = true := by
  rw [placeNew]; exact allocate_wf _ _ _ _ _ _ h

theorem storeUnpinned_wf (s k : Nat) (c : CLine) (need : Nat) (h : Memory.wf d.mem = true) :
    Memory.wf (storeUnpinned d s k c need).mem = true := by
  have ha := allocate_wf d allocFuel s k { c with pinned := false } need h
  rw [storeUnpinned]
  generalize allocate allocFuel d s k { c with pinned := false } need = a at ha ⊢
  obtain ⟨b, x⟩ := a
  cases b with
  | true => exact ha
  | false => simp only [Bool.false_eq_true, if_false, count_mem]; exact writeMemLine_wf _ _ _ _ _ _ _ ha

theorem storeMoved_wf (s k : Nat) (c : CLine) (need : Nat) (h : Memory.wf d.mem = true) :
    Memory.wf (storeMoved d s k c need).mem = true := by
  rw [storeMoved]
  split
  · rw [putSet_mem]; exact h
  · split
    · split
      · rename_i hp; exact placePinned_wf _ _ _ _ _ _ h hp
      · exact storeUnpinned_wf _ _ _ _ _ (by rw [pinEvicted_mem]; exact h)
    · exact storeUnpinned_wf _ _ _ _ _ h

theorem storeMerged_wf (s k : Nat) (c : CLine) (e : D64) (data : Line) (h : Memory.wf d.mem = true) :
    Memory.wf (storeMerged d s k c e data).mem = true := by
  rw [storeMerged]
  split
  · rw [putLine_mem]; exact h
  · exact storeMoved_wf _ _ _ _ _ (by rw [dropLine_mem]; exact h)

/-! ## One access at a home -/

theorem uncached_wf (k : Nat) (e : D64) (line : Nat) (op : ReqOp) (h : Memory.wf d.mem = true) :
    Memory.wf (uncached d k e line op).2.mem = true := by
  unfold uncached; dsimp only
  split
  · exact writeMemLine_wf _ _ _ _ _ _ _ h
  · split
    · simpa using h
    · dsimp only
      split
      · exact writeMemLine_wf _ _ _ _ _ _ _ (by simpa using h)
      · simpa using h

theorem storeWhole_wf (s k : Nat) (e : D64) (line : Nat) (data : Line) (h : Memory.wf d.mem = true) :
    Memory.wf (storeWhole d s k e line data).2.mem = true := by
  have hp := placeNew_wf d s k line e data true h
  rw [storeWhole]
  generalize placeNew d s k line e data true = p at hp ⊢
  obtain ⟨b, x⟩ := p
  cases b with
  | true => simp only [if_true, injectLine_mem]; exact hp
  | false => simp only [Bool.false_eq_true, if_false]; exact uncached_wf _ _ _ _ _ hp

theorem onLine_wf (s k : Nat) (e : D64) (c : CLine) (op : ReqOp) (h : Memory.wf d.mem = true) :
    Memory.wf (onLine d s k e c op).2.mem = true := by
  by_cases hp : c.poison = true
  · cases op with
    | write data m =>
      simp only [onLine, if_pos hp]
      split
      · exact storeWhole_wf _ _ _ _ _ _ (by rw [dropLine_mem]; exact h)
      · exact h
    | read => simp only [onLine, if_pos hp]; exact h
    | atomic a => simp only [onLine, if_pos hp]; exact h
  · simp only [onLine, if_neg hp]
    split
    · rw [injectLine_mem]; exact storeMerged_wf _ _ _ _ _ _ h
    · rw [putLine_mem]; exact h

theorem poisonNew_wf (s k line : Nat) (e : D64) (h : Memory.wf d.mem = true) :
    Memory.wf (poisonNew d s k line e).mem = true := by
  have hf := freeTag_wf d allocFuel s k (setOf line) h
  rw [poisonNew]
  generalize freeTag allocFuel d s k (setOf line) = x at hf ⊢
  simp only
  split
  · rw [putSet_mem]; exact hf
  · exact hf

theorem fillAccess_wf (s k : Nat) (e : D64) (line : Nat) (op : ReqOp) (found : Line) (h : Memory.wf d.mem = true) :
    Memory.wf (fillAccess d s k e line op found).2.mem = true := by
  simp only [fillAccess]
  generalize hq : placeNew d s k line e _ _ = p
  have hp : Memory.wf p.2.mem = true := by rw [← hq]; exact placeNew_wf _ _ _ _ _ _ _ h
  by_cases hb : p.1 = true
  · simp only [if_pos hb, injectLine_mem]; exact hp
  · simp only [if_neg hb]
    split
    · exact writeMemLine_wf _ _ _ _ _ _ _ hp
    · exact hp

theorem missAccess_wf (s k : Nat) (e : D64) (line : Nat) (op : ReqOp) (h : Memory.wf d.mem = true) :
    Memory.wf (missAccess d s k e line op).2.mem = true := by
  by_cases hf : isFullWrite op = true
  · cases op with
    | write data m => simp only [missAccess, if_pos hf]; exact storeWhole_wf _ _ _ _ _ _ h
    | read => simp only [missAccess, if_pos hf]; exact uncached_wf _ _ _ _ _ h
    | atomic a => simp only [missAccess, if_pos hf]; exact uncached_wf _ _ _ _ _ h
  · simp only [missAccess, if_neg hf]
    split
    · exact fillAccess_wf _ _ _ _ _ _ _ (by rw [readMemLine_mem]; exact h)
    · exact poisonNew_wf _ _ _ _ _ (by rw [readMemLine_mem]; exact h)

/-- One access at a home, read, write or atomic, keeps the form. -/
theorem accessHome_wf (k : Nat) (e : D64) (line : Nat) (op : ReqOp) (h : Memory.wf d.mem = true) :
    Memory.wf (accessHome d k e line op).2.mem = true := by
  simp only [accessHome]
  split
  · exact uncached_wf _ _ _ _ _ (by rw [countBw_mem]; exact h)
  · split
    · rename_i c x hc
      have hk : Memory.wf x.mem = true := by
        have := checkLine_mem (countBw d (homeOf e line) k) (homeOf e line) line
        rw [hc, countBw_mem] at this; rw [this]; exact h
      simp only [hitAccess]
      split
      · exact onLine_wf _ _ _ _ _ _ (by rw [count_mem, count_mem]; exact hk)
      · exact onLine_wf _ _ _ _ _ _ (by rw [count_mem]; exact hk)
    · rename_i x hc
      have hk : Memory.wf x.mem = true := by
        have := checkLine_mem (countBw d (homeOf e line) k) (homeOf e line) line
        rw [hc, countBw_mem] at this; rw [this]; exact h
      exact missAccess_wf _ _ _ _ _ _ (by rw [noteMiss_mem]; exact hk)

/-- The line operations of the maintenance engine keep it too. -/
theorem pinPresent_wf (s : Nat) (e : D64) (c : CLine) (h : Memory.wf d.mem = true) :
    Memory.wf (pinPresent d s e c).2.mem = true := by
  simp only [pinPresent]
  split
  · exact h
  · split
    · rw [putLine_mem]; exact h
    · split
      · rw [putLine_mem]; exact h
      · split
        · rename_i hp; exact placePinned_wf _ _ _ _ _ _ (by rw [dropLine_mem]; exact h) hp
        · rw [putLine_mem]; exact h
theorem pinAbsent_wf (s line : Nat) (e : D64) (h : Memory.wf d.mem = true) :
    Memory.wf (pinAbsent d s line e).2.mem = true := by
  have hy : Memory.wf (readMemLine d 1 (pteFrame e) (lineIdx line) (line * 128)).2.mem = true := by
    rw [readMemLine_mem]; exact h
  simp only [pinAbsent]
  split
  · split
    · rename_i hp; rw [injectLine_mem]; exact placePinned_wf _ _ _ _ _ _ hy hp
    · exact allocate_wf _ _ _ _ _ _ hy
  · exact poisonNew_wf _ _ _ _ _ hy
theorem pinLine_wf (e : D64) (line : Nat) (h : Memory.wf d.mem = true) : Memory.wf (pinLine d e line).2.mem = true := by
  simp only [pinLine]
  split
  · rw [countBw_mem]; exact h
  · have hc := checkLine_mem (countBw d (homeOf e line) 1) (homeOf e line) line
    split
    · rename_i c x hx
      have hk : Memory.wf x.mem = true := by rw [hx, countBw_mem] at hc; rw [hc]; exact h
      exact pinPresent_wf _ _ _ _ (by split <;> simpa only [count_mem] using hk)
    · rename_i x hx
      have hk : Memory.wf x.mem = true := by rw [hx, countBw_mem] at hc; rw [hc]; exact h
      exact pinAbsent_wf _ _ _ _ (by rw [noteMiss_mem]; exact hk)
@[simp] theorem unpinLine_mem (e : D64) (line : Nat) : (unpinLine d e line).mem = d.mem := by
  simp only [unpinLine]
  split
  · rw [countBw_mem]
  · split
    · split
      · rw [putLine_mem, count_mem, count_mem, countBw_mem]
      · rw [count_mem, countBw_mem]
    · rw [count_mem, countBw_mem]
@[simp] theorem addTomb_mem (s line : Nat) (b : Bool) : (addTomb d s line b).mem = d.mem := by
  unfold addTomb; exact putSlice_mem _ _ _
@[simp] theorem dropDead_mem (k : Nat) (e : D64) (line : Nat) : (dropDead d k e line).mem = d.mem := by
  simp only [dropDead]
  split
  · split
    · rfl
    · rw [count_mem, addTomb_mem, dropLine_mem]
  · rfl
@[simp] theorem deadMark_mem (k : Nat) (e : D64) (line : Nat) : (deadMark d k e line).mem = d.mem := by
  simp only [deadMark]
  split
  · rw [countBw_mem]
  · split
    · exact countBw_mem d (homeOf e line) k
    · rw [dropDead_mem, countBw_mem]
theorem prefLine_wf (e : D64) (line : Nat) (h : Memory.wf d.mem = true) : Memory.wf (prefLine d e line).mem = true := by
  simp only [prefLine]
  split
  · rw [countBw_mem]; exact h
  · have hc := checkLine_mem (countBw d (homeOf e line) 0) (homeOf e line) line
    split
    · rename_i c x hx
      rw [count_mem, putLine_mem]; rw [hx, countBw_mem] at hc; rw [hc]; exact h
    · rename_i x hx
      refine missAccess_wf _ _ _ _ _ _ ?_
      rw [noteMiss_mem]; rw [hx, countBw_mem] at hc; rw [hc]; exact h

/-! ## Accesses of many lines (Machine/Home.lean) -/

@[simp] theorem noteUnreach_mem (a b : Nat) : (noteUnreach d a b).mem = d.mem := by
  unfold noteUnreach; split
  · rfl
  · rw [event_mem]
@[simp] theorem noteStop_mem (who : Option Nat) (e : D64) (line st : Nat) : (noteStop d who e line st).mem = d.mem := by
  simp only [noteStop]
  split
  · rfl
  · split
    · split <;> rw [noteUnreach_mem]
    · rw [noteUnreach_mem]

@[simp] theorem spendWho_mem (who : Option Nat) (k : Nat) : (spendWho d who k).mem = d.mem := by
  unfold spendWho; split
  · rfl
  · split <;> rfl

/-- A master's read of bytes, with a translation that keeps the form. -/
theorem readBytesWith_wf (who : Option Nat) (tx : Dev → Nat → Tx × Dev)
    (ht : ∀ x p, Memory.wf x.mem = true → Memory.wf (tx x p).2.mem = true) (k fuel addr n : Nat)
    (h : Memory.wf d.mem = true) : Memory.wf (readBytesWith who tx k fuel d addr n).2.mem = true := by
  induction fuel generalizing d addr n with
  | zero => exact h
  | succ m ih =>
    simp only [readBytesWith]
    split
    · exact h
    · have hx := ht d (addr / 2 ^ 20) h
      split
      · rename_i hp; rw [hp] at hx; exact hx
      · rename_i hp; rw [hp] at hx; exact hx
      · rename_i e x hp
        rw [hp] at hx
        split
        · rw [noteStop_mem]; exact hx
        · have ha := accessHome_wf (spendWho x who k) k e (addr / 128) .read (by rw [spendWho_mem]; exact hx)
          split
          · exact ha
          · exact ih _ _ _ ha

/-- A master's write of bytes. -/
theorem writeBytesWith_wf (who : Option Nat) (tx : Dev → Nat → Tx × Dev)
    (ht : ∀ x p, Memory.wf x.mem = true → Memory.wf (tx x p).2.mem = true) (k fuel addr : Nat) (bs : List Byte)
    (h : Memory.wf d.mem = true) : Memory.wf (writeBytesWith who tx k fuel d addr bs).2.mem = true := by
  induction fuel generalizing d addr bs with
  | zero => exact h
  | succ m ih =>
    simp only [writeBytesWith]
    split
    · exact h
    · have hx := ht d (addr / 2 ^ 20) h
      split
      · rename_i hp; rw [hp] at hx; exact hx
      · rename_i hp; rw [hp] at hx; exact hx
      · rename_i e x hp
        rw [hp] at hx
        split
        · exact hx
        · split
          · rw [noteStop_mem]; exact hx
          · exact ih _ _ _ (accessHome_wf _ k e (addr / 128) _ (by rw [spendWho_mem]; exact hx))

/-! ## Translation and the accesses of masters and engines -/

@[simp] theorem readPage_mem (p : Nat) : (readPage d p).2.mem = d.mem := by
  have go (x : Dev) : (if !pteMaps x (pmapEntry x p) then (Tx.invalid, x)
      else if pteRetired (pmapEntry x p) then (.retired, x) else (.entry (pmapEntry x p), x)).2.mem = x.mem := by
    split
    · rfl
    · split <;> rfl
  simp only [readPage]
  split
  · exact go d
  · split
    · rw [memRecord_mem]
    · rw [go, memRecord_mem, clearMark_mem]
theorem coreTx_mem (n p : Nat) : (coreTx d n p).2.mem = d.mem := by
  have hr := readPage_mem d p
  simp only [coreTx]
  split
  · rw [putCore_mem]
  · generalize readPage d p = q at hr ⊢
    obtain ⟨r, x⟩ := q
    cases r with
    | entry e => simp only [putCore_mem]; exact hr
    | invalid => exact hr
    | retired => exact hr
theorem baseTx_mem (p : Nat) : (baseTx d p).2.mem = d.mem := by
  have hr := readPage_mem d p
  simp only [baseTx]
  split
  · rfl
  · generalize readPage d p = q at hr ⊢
    obtain ⟨r, x⟩ := q
    cases r <;> exact hr
theorem readDev_wf (k addr n : Nat) (h : Memory.wf d.mem = true) : Memory.wf (readDev d k addr n).2.mem = true := by
  rw [readDev]; exact readBytesWith_wf _ _ _ (fun x p hx => by rw [baseTx_mem]; exact hx) _ _ _ _ h
theorem writeDev_wf (k addr : Nat) (bs : List Byte) (h : Memory.wf d.mem = true) :
    Memory.wf (writeDev d k addr bs).2.mem = true := by
  rw [writeDev]; exact writeBytesWith_wf _ _ _ (fun x p hx => by rw [baseTx_mem]; exact hx) _ _ _ _ h
theorem readCoreMem_wf (core k addr n : Nat) (h : Memory.wf d.mem = true) :
    Memory.wf (readCoreMem d core k addr n).2.mem = true := by
  rw [readCoreMem]; exact readBytesWith_wf _ _ _ (fun x p hx => by rw [coreTx_mem]; exact hx) _ _ _ _ h
theorem writeCoreMem_wf (core k addr : Nat) (bs : List Byte) (h : Memory.wf d.mem = true) :
    Memory.wf (writeCoreMem d core k addr bs).2.mem = true := by
  rw [writeCoreMem]; exact writeBytesWith_wf _ _ _ (fun x p hx => by rw [coreTx_mem]; exact hx) _ _ _ _ h

end Sys2Proof.Machine
end

