-- ==== Sys2Proof/Laws/Shared.lean ====
section
/-! SUPPORT. What the operations that many commands share can do: an SCI command's frame, a response, a core fault. -/

namespace Sys2Proof.Machine

variable (d : Dev)

/-! ## SCI commands (12 R373 to R380) -/

/-- An SCI command runs just when it may begin and its request is there; it then answers its header's status, has its
own effect, or fans out. -/
theorem sci_some_iff (opcode : Nat) (ord : Bool) (q : SciReq) (f : Resp → Dev → Dev) (e : Dev) :
    sci opcode ord q f d = some e ↔ mayBegin d q opcode ord = true ∧ ∃ r x, admitReq d q opcode ord = some (r, x) ∧
      e = match headerStatus x q opcode r with
        | some c => respond x r c []
        | none => if q.target = 0 ∨ (opcode = 0x03 ∧ q.target = 2) then f r x else startFan x q opcode r := by
  unfold sci
  by_cases hm : mayBegin d q opcode ord = true
  · simp only [hm, Bool.not_true, Bool.false_eq_true, if_false, true_and]
    cases admitReq d q opcode ord with
    | none => simp
    | some p =>
      obtain ⟨r, x⟩ := p
      simp only [Option.some.injEq, Prod.mk.injEq]
      constructor
      · intro h
        refine ⟨r, x, ⟨rfl, rfl⟩, ?_⟩
        cases hh : headerStatus x q opcode r with
        | some c => rw [hh] at h; exact (Option.some.inj h).symm
        | none =>
          rw [hh] at h
          by_cases ht : q.target = 0 ∨ (opcode = 0x03 ∧ q.target = 2)
          · simp only [if_pos ht] at h ⊢; exact (Option.some.inj h).symm
          · simp only [if_neg ht] at h ⊢; exact (Option.some.inj h).symm
      · rintro ⟨r', x', ⟨rfl, rfl⟩, rfl⟩
        cases headerStatus x q opcode r with
        | some c => rfl
        | none => simp only; split <;> rfl
  · simp [hm]

/-! ## Core faults (03 R106 to R108) -/

/-- A core fault changes the faulting core, the core's record queue and that core's requests, and nothing else of the
device but, where a queue of the funnel is full, its count of lost records. -/
theorem takeFault_only (core slot uid : Nat) (pos : Bool) (id code pc addr mask : Nat) :
    takeFault d core slot uid pos id code pc addr mask =
      { d with
        cores := (takeFault d core slot uid pos id code pc addr mask).cores
        reqs := (takeFault d core slot uid pos id code pc addr mask).reqs
        regs := (takeFault d core slot uid pos id code pc addr mask).regs
        funnel := (takeFault d core slot uid pos id code pc addr mask).funnel } := by
  simp only [takeFault, dropLater, putCore]
  have h := post_only d (faultRecord core slot code pc addr mask pos (getTask (getCore d core) pos))
  generalize post d (faultRecord core slot code pc addr mask pos (getTask (getCore d core) pos)) = x at h ⊢
  generalize mapPut _ x.cores core _ = cs
  rw [h]

theorem takeFault_mem (core slot uid : Nat) (pos : Bool) (id code pc addr mask : Nat) :
    (takeFault d core slot uid pos id code pc addr mask).mem = d.mem := by
  rw [takeFault_only]

theorem takeFault_pmap (core slot uid : Nat) (pos : Bool) (id code pc addr mask : Nat) :
    (takeFault d core slot uid pos id code pc addr mask).pmap = d.pmap := by
  rw [takeFault_only]

end Sys2Proof.Machine
end

