-- ==== Sys2Proof/Tests/Slice0.lean ====
section
/-! SUPPORT. Tests: terms that `Instr.wf` refuses; for every statement a state and operands that meet the hypotheses
of each of its clauses; and one-step runs whose results are worked out by hand from the rules of spec/ named there. -/

namespace Sys2Proof.Tests

open Sys2Proof Sys2Proof.Machine
set_option Elab.async false

/-! ## Small states -/

/-- 32 ACTIVE threads at address 0 in slot 0, in a task of one group. -/
def tLane : Lane := { pc := 0, st := .active, yld := false, preds := 0 }
def tGroup : Group :=
  { uid := 1, pos := false, index := 0, base := 0, alloc := 64, nregs := 64, lanes := List.replicate 32 tLane,
    x := [], u := [], hold := none, stall := 0 }
def tTask : Task :=
  { queue := 0, item := 0, entry := 0, nregs := 64, ngroups := 1, threads := 32, admitted := 1, endGroup := false,
    idem := false, usesMx := true, usesFfx := true, wstage := true, handle := 0, banks := 0, resident := 0, keep := 0,
    owner := 0, args := [], fault := none, aborted := false, started := true, redisp := 0 }
def tCore : Core := { freshCore with groups := [(0, some tGroup)], task0 := some tTask }
/-- Core 0 of an AWAKE cluster as `c`. -/
def devOf (c : Core) : Dev :=
  { Dev.reset with cores := [(0, c)], clusters := [(0, { freshCluster with st := .awake })], nextId := 10 }
def stOf (d : Dev) : State := { dev := d, pending := [] }
def tDev : Dev := devOf tCore
def tState : State := stOf tDev
def tAt : At := { core := 0, slot := 0 }
def tLead : Lead :=
  { core := 0, slot := 0, g := tGroup, pc := 0, act := List.replicate 32 true, run := List.replicate 32 true, rr := 1,
    pair := none }
/-- The device with the words of form `f` at address 0 in the instruction cache of core 0. -/
def spelled (f : Form) (d : Dev) : Dev := putCore d 0 { getCore d 0 with ic := [(0, BitVec.ofNat 1024 f.code)] }
/-- A lead of an issue of `f` in slot 0 of a core cycle. -/
def opening (f : Form) (d : Dev) (l : Lead) : Lead := { l with pair := some (pairOf d l f) }
/-- The instruction of form `f` issues in `d` with the lead `l`, once its words stand in the instruction cache. -/
def IssuesIn (d : Dev) (f : Form) (l : Lead) : Prop :=
  Issues (stOf (spelled f d)) tAt f (opening f (spelled f d) l)

/-- Format R with FUNC and MOD, registers d, a, b and c. -/
def fR (func : Nat) (mod : Byte) (d a b c : Byte) : FmtR :=
  { guard := 0, d := d, a := a, b := b, c := c, bsel := 0, func := BitVec.ofNat 9 func, mod := mod }
def fI (d a : Byte) (imm : Word) : FmtI := { guard := 0, d := d, a := a, imm := imm, func3 := 0 }
def fM (d a : Byte) (size : BitVec 3) (hint : BitVec 4) (off : BitVec 21) : FmtM :=
  { guard := 0, d := d, a := a, ub := 0, ube := 0, size := size, hint := hint, off := off }
def bare : FmtR := fR 0 0 0 0 0 0

/-! ## Witnesses: core instructions -/

/-- `tDev` with another group in slot 0. -/
def devWith (g : Group) : Dev := devOf { tCore with groups := [(0, some g)] }
def stWith (g : Group) : State := stOf (devWith g)
/-- 31 threads at PC 0 and one, in lane 31, as `ln`. -/
def gMix (ln : Lane) : Group := { tGroup with lanes := List.replicate 31 tLane ++ [ln] }
def leadMix (ln : Lane) : Lead :=
  { tLead with g := gMix ln, act := List.replicate 31 true ++ [false], run := List.replicate 31 true ++ [false] }
/-- The lead of `tState` when the guard P0 is false everywhere. -/
def tNone : Lead := { tLead with run := List.replicate 32 false }

theorem witness_IntegerResultsWrapOrClamp :
    IssuesIn tDev ((form2 (fR 0 0x80 63 1 2 0) allInt 0xF8).op 0x10 .fb) tLead ∧
    IssuesIn tDev ((form2 (fR 192 0x80 62 0 2 0) allInt 0xF8).op 0x11 .fb) tLead ∧
    IssuesIn tDev ((form2 (fR 64 0 255 1 2 0) allInt 0x78).op 0x12 .fb) tLead ∧
    IssuesIn tDev ((form2 (fR 0 0 3 1 2 0) [0, 1] 0x78).op 0x13 .fb) tLead ∧
    IssuesIn tDev ((form3 (fR 64 0x80 3 1 2 4) allInt 0xFC).op 0x14 .fb) tLead ∧
    IssuesIn tDev ((form1 (fR 64 0x80 3 1 0 0) allInt 0x80).op 0x17 .fb) tLead ∧
    IssuesIn tDev ((iaddiForm (fI 63 1 0xFFFFFFFF)).op 0x23 .fb) tLead ∧
    IssuesIn tDev ((dotForm (fR 64 0x80 3 1 2 4) [0, 1] 0x80 0).op 0x50 .fb) tLead := by
  unfold IssuesIn Issues; and_intros <;> decide +kernel

theorem witness_BitInstructionsAct :
    IssuesIn tDev ((form2 (fR 128 0 62 60 2 0) allInt 0).op 0x19 .fb) tLead ∧
    IssuesIn tDev ((form1 (fR 0 0 63 1 0 0) unsInt 0).op 0x1D .fb) tLead ∧
    IssuesIn tDev ((form3 (fR 0 0xFF 63 1 2 3) unsInt 0xFF).op 0x18 .fb) tLead ∧
    IssuesIn tDev ((form3 (fR 128 0 62 60 2 4) unsInt 0).op 0x1C .fb) tLead := by
  unfold IssuesIn Issues; and_intros <;> decide +kernel

theorem witness_MovesAndPredicatesAct :
    IssuesIn tDev ((ipredForm (fR 192 3 6 0 2 7)).op 0x20 .fb) tLead ∧
    IssuesIn tDev ((fpredForm (fR 256 3 6 1 2 7)).op 0x35 .fab) tLead ∧
    IssuesIn tDev ((selForm (fR 128 0 62 0 2 7)).op 0x21 .fb) tLead ∧
    IssuesIn tDev ((movForm (fR 128 0 255 0 2 0)).op 0x22 .fb) tLead ∧
    IssuesIn tDev ((moviForm (fI 63 0 0xFFFFFFFF)).op 0x24 .fb) tLead ∧
    IssuesIn tDev ((movlForm { guard := 0, d := 62, rsv := 0, imm := 0xFFFFFFFFFFFFFFFF }).op 0x25 .fb) tLead ∧
    IssuesIn tDev ((shflForm (fR 3 0 63 1 2 0)).op 0x26 .fb) tLead ∧
    IssuesIn tDev ((rdsysForm (fR 3 0 62 0 0 0)).op 0x27 .fb) tLead ∧
    IssuesIn tDev ((plmuxForm (fR 0 0xFF 7 1 2 3)).op 0x48 .fb) tLead ∧
    IssuesIn tDev ((ppackForm (fR 0 0 63 0 0 0)).op 0x4A .fb) tLead := by
  unfold IssuesIn Issues; and_intros <;> decide +kernel

theorem witness_FloatingPointResults :
    IssuesIn tDev ((fpForm (fR 256 0xF8 63 1 2 0) 0xF8 false).op 0x30 .fab) tLead ∧
    IssuesIn tDev ((fpForm (fR 384 0xFC 63 1 2 3) 0xFC true).op 0x32 .fab) tLead ∧
    IssuesIn tDev ((f2iForm (fR 0x1B 0 62 1 0 0)).op 0x40 .fb) tLead ∧
    IssuesIn tDev ((i2fForm (fR 0xD8 0 63 2 0 0)).op 0x41 .fb) tLead ∧
    IssuesIn tDev ((cvtForm (fR 0x1B 0x83 63 1 0 0) 1 1 (f2fLegal (fR 0x1B 0x83 63 1 0 0))).op 0x42 .fb) tLead ∧
    IssuesIn tDev ((packForm (fR 0x158 0 63 1 2 0)).op 0x43 .fb) tLead ∧
    IssuesIn tDev ((unpackForm (fR 0x141 0 63 1 0 0)).op 0x44 .fb) tLead ∧
    IssuesIn tDev ((dotForm (fR 0 0 63 1 2 3) [0] 0 0).op 0x52 .fb) tLead ∧
    IssuesIn tDev ((dotForm (fR 3 0 63 1 2 3) [0] 0 3).op 0x54 .fb) tLead := by
  unfold IssuesIn Issues; and_intros <;> decide +kernel

theorem witness_SeedsAreFixedFunctions :
    IssuesIn tDev ((cvtForm (fR 256 0 63 1 0 0) 1 1 (seedLegal (fR 256 0 63 1 0 0))).op 0x36 .fb) tLead ∧
    ofF32 0x7FC00001#32 = .nan ∧ ofF32 0xFF800000#32 = .inf true ∧
    ∃ m e, ofF32 0x80000001#32 = .fin true m e ∧ m ≠ 0 := by
  refine ⟨by unfold IssuesIn Issues; and_intros <;> decide +kernel, by decide, by decide, 1, -149, by decide⟩

theorem witness_VotesAndUniformRegisters :
    (IssuesIn tDev ((voteForm (fR 2 0 63 7 0 0)).op 0x49 .fb) tLead ∧ subOf (fR 2 0 63 7 0 0) = 2) ∧
    (IssuesIn tDev ((voteForm (fR 0 0 6 7 0 0)).op 0x49 .fb) tLead ∧ subOf (fR 0 0 6 7 0 0) = 0) ∧
    (IssuesIn tDev ((voteForm (fR 1 0 6 7 0 0)).op 0x49 .fb) tLead ∧ subOf (fR 1 0 6 7 0 0) = 1) ∧
    IssuesIn tDev ((punpackForm (fR 0 0 0 63 0 0)).op 0x4B .fb) tLead ∧
    IssuesIn tDev ((ualuForm (fR 7 0 63 62 61 0)).op 0x6A .ctl) tLead ∧
    IssuesIn tDev ((umoviForm (fI 63 0 0xFFFFFFFF)).op 0x6B .ctl) tLead ∧
    IssuesIn tDev ((umovlForm { guard := 0, d := 62, rsv := 0, imm := 0xFFFFFFFFFFFFFFFF }).op 0x6C .ctl) tLead ∧
    (IssuesIn tDev ((urdlForm (fR 0 0 63 63 0 0)).op 0x6D .ctl) tLead ∧ onLane tLead.act 0 = true) := by
  unfold IssuesIn Issues; and_intros <;> decide +kernel

/-- The second instruction of a pair, a MOVI behind a MOV in one cache line: it issues in slot 1 for the pair's
active set and leaves the rotation. -/
def pairCore : Core :=
  let f := (movForm (fR 128 0 2 0 4 0)).op 0x22 .fb
  let g := (moviForm (fI 63 0 1)).op 0x24 .fab
  let c := { tCore with ic := [(0, BitVec.ofNat 1024 (f.code + g.code * 2 ^ 64))], rr := 5 }
  { c with pair := some (pairOf (devOf c) tLead f),
           groups := [(0, some { tGroup with lanes := List.replicate 32 { tLane with pc := 8 } })] }
theorem witness_second_of_a_pair : ∃ l, Issues (stOf (devOf pairCore)) tAt ((moviForm (fI 63 0 1)).op 0x24 .fab) l ∧
    l.rr = 5 ∧ l.pair = none :=
  ⟨{ tLead with g := { tGroup with lanes := List.replicate 32 { tLane with pc := 8 } }, pc := 8, rr := 5, pair := none },
    by unfold Issues; and_intros <;> decide +kernel⟩

theorem witness_ControlFlowMovesPcs :
    IssuesIn tDev ((braForm { guard := 0, l := 0, off := 0x7FFFFFFFFFF }).op 0x60 .ctl) tLead ∧
    IssuesIn tDev ((brxForm { guard := 0, l := 62, off := 0 }).op 0x61 .ctl) tLead ∧
    IssuesIn tDev ((callForm { guard := 0, l := 255, off := 0x40000000000 }).op 0x62 .ctl) tLead ∧
    IssuesIn tDev ((callxForm { guard := 0, l := 60, off := 0 }).op 0x63 .ctl) tLead ∧
    IssuesIn tDev ((bareForm bare).op 0x64 .ctl) tLead ∧ IssuesIn tDev ((bareForm bare).op 0x69 .ctl) tLead := by
  unfold IssuesIn Issues; and_intros <;> decide +kernel

/-- A second group of the task, PARKED at BAR.CORE 7. -/
def gPark : Group :=
  { tGroup with uid := 2, index := 1, lanes := List.replicate 32 { tLane with st := .parked (some 7) } }
theorem witness_BarriersParkAndRelease :
    (IssuesIn (devWith (gMix { tLane with pc := 8 })) ((bareForm bare).op 0x65 .ctl) (leadMix { tLane with pc := 8 }) ∧
      isLive (laneOf (gMix { tLane with pc := 8 }) 31) = true ∧
      onLane (leadMix { tLane with pc := 8 }).run 31 = false ∧
      (laneOf (gMix { tLane with pc := 8 }) 31).st ≠ .parked none) ∧
    (IssuesIn (devWith (gMix { tLane with pc := 8, st := .parked none })) ((bareForm bare).op 0x65 .ctl)
        (leadMix { tLane with pc := 8, st := .parked none }) ∧
      onLane (leadMix { tLane with pc := 8, st := .parked none }).run 0 = true ∧
      ∀ t, t < 32 → isLive (laneOf (gMix { tLane with pc := 8, st := .parked none }) t) = true →
        onLane (leadMix { tLane with pc := 8, st := .parked none }).run t = true ∨
        (laneOf (gMix { tLane with pc := 8, st := .parked none }) t).st = .parked none) ∧
    (IssuesIn (devOf { tCore with task0 := some { tTask with ngroups := 2 } }) ((barCoreForm (fI 0 0 0)).op 0x66 .ctl)
        tLead ∧
      getTask { tCore with task0 := some { tTask with ngroups := 2 } } tGroup.pos =
        some { tTask with ngroups := 2 }) ∧
    (IssuesIn (devOf { tCore with groups := [(0, some tGroup), (31, some gPark)] })
        ((barCoreForm { fI 0 0 0 with func3 := 7 }).op 0x66 .ctl) tLead ∧
      gPark.pos = tGroup.pos ∧ ∀ t, t < 32 → (laneOf gPark t).st = .parked (some 7)) ∧
    (isLive (laneOf tGroup 0) = true ∧ (laneOf tGroup 0).st ≠ .parked (some 7)) := by
  unfold IssuesIn Issues; and_intros <;> decide +kernel

theorem witness_ControlFlowMovesPcs_exit :
    (IssuesIn (devWith (gMix { tLane with pc := 8 })) ((bareForm bare).op 0x67 .ctl) (leadMix { tLane with pc := 8 }) ∧
      isActive (laneOf (gMix { tLane with pc := 8 }) 31) = true ∧
      onLane (leadMix { tLane with pc := 8 }).run 31 = false) ∧
    IssuesIn (devWith (gMix { tLane with st := .exited })) ((bareForm bare).op 0x67 .ctl)
      (leadMix { tLane with st := .exited }) ∧
    ∀ t, t < 32 → isLive (laneOf (gMix { tLane with st := .exited }) t) = true →
      onLane (leadMix { tLane with st := .exited }).run t = true := by
  unfold IssuesIn Issues; and_intros <;> decide +kernel

/-- `tGroup` with every thread at `pc`, and its lead. -/
def gAt (pc : BitVec 47) : Group := { tGroup with lanes := List.replicate 32 { tLane with pc := pc } }
/-- NOP with its unused D field 1 and an undefined guard. -/
def badNop : Form := (bareForm { bare with d := 1, guard := 0x0F }).op 0x69 .ctl
theorem witness_IssueFaultsInTableOrder :
    (∀ pc, pc = 0x8000000000 ∨ pc = 4 → leadFor tAt badNop (devWith (gAt pc)) =
      some (opening badNop (devWith (gAt pc)) { tLead with g := gAt pc, pc := pc })) ∧
    (let f : Form := (bareForm bare).op 0xFF .ctl
     leadFor tAt f (spelled f tDev) = some (opening f (spelled f tDev) tLead) ∧
      icWord (getCore (spelled f tDev) 0) 0 = some (0xFF * 2 ^ 56) ∧ opAssigned (0xFF * 2 ^ 56 / 2 ^ 56) = false) ∧
    (let d := spelled badNop tDev
     leadFor tAt badNop d = some (opening badNop d tLead) ∧ opAssigned (badNop.code % 2 ^ 64 / 2 ^ 56) = true ∧
      spells (getCore d 0) 0 badNop = true ∧ hasRoom (roomOf d 0) badNop = true ∧ badNop.legal = false ∧
      guardOk badNop.guard = false) ∧
    (let f := (movForm (fR 128 0 1 0 64 0)).op 0x22 .fb
     spells (getCore (spelled f tDev) 0) 0 f = true ∧ guardOk f.guard = true ∧ f.legal = true ∧
      hasUnits (getCore (spelled f tDev) 0) false f = true ∧ ∃ r ∈ f.regs, regOk 64 r = false) := by
  refine ⟨fun pc h => by rcases h with rfl | rfl <;> decide +kernel, ?_, ?_, ?_⟩ <;> decide +kernel

theorem witness_TrapsAndStalledBarriersFault :
    (IssuesIn tDev ((trapForm (fI 0 0 0xFFFFFFFF)).op 0x68 .ctl) tLead ∧ onLane tLead.run 0 = true) ∧
    (IssuesIn tDev ((trapForm { fI 0 0 7 with guard := 0x10 }).op 0x68 .ctl) tNone ∧
      ∀ i, i < 32 → onLane tNone.run i = false) ∧
    (coreUp { devOf { tCore with groups := [(0, some { gMix { tLane with st := .parked none } with stall := 4096 })] } with
        regs := [(aBarLimit 0, 4096)] } 0 = true ∧
      regField { tDev with regs := [(aBarLimit 0, 4096)] } (aBarLimit 0) 0 32 = 4096 ∧
      (laneOf (gMix { tLane with st := .parked none }) 31).st = .parked none ∧
      ∀ j, j < 31 → (laneOf (gMix { tLane with st := .parked none }) j).st = .active) := by
  unfold IssuesIn Issues; and_intros <;> decide +kernel

/-! ## Witnesses: memory -/

/-- A valid, encoded, cacheable entry and an uncached one, both of frame 5. -/
def pteC : D64 := 0xC800000000000005
def pteU : D64 := 0xC000000000000005
/-- A device whose halves serve requests and whose page 0 maps `e`, with core 0 as `c`. -/
def memDev (c : Core) (e : D64) : Dev :=
  regPut (regPut { devOf c with pmap := [(0, e)] } (aCdcStatus 0) 0x8000000000000000) (aCdcStatus 1) 0x8000000000000000
def tLine : Line := 0x0102030405
def tReq : Req :=
  { id := 3, ins := 2, core := 0, uid := 1, slot := 0, pos := false, pc := 0, lanes := 0x80000001, addr := 0, cls := 0,
    line := 0, pte := pteC, op := .read, st := .waiting, status := .ok, ret := true, rel := false, alloc := true,
    mark := false, spent := false, back := false, result := 0, olds := [] }
def tLoad : PendLoad :=
  { id := 2, uid := 1, slot := 0, pos := false, pc := 0, kind := .ld, dreg := 62, dcnt := 2, bytes := 8, sext := false,
    addrs := [(0, 0), (31, 8)], hits := [], reqs := [3], ended := false }
def tCLine : CLine :=
  { line := 0, data := tLine, way := 0, sect := 0xF, enc := 0, dirty := false, age := 2, pinned := false, cls := 0,
    poison := false, pte := pteC }
/-- A load of 4 bytes at address 124 into register 63. -/
def ldLast4 : FmtM := fM 63 255 2 0 124

theorem witness_LoadsReadOrRequestLines :
    (let f := (ldForm ldLast4 (ldHintOk ldLast4)).op 0x80 .mem
     let d := spelled f (memDev { tCore with l1 := [(0, tLine)] } pteC)
     IssuesIn (memDev { tCore with l1 := [(0, tLine)] } pteC) f tLead ∧
      (memFault d 0 (laneAddrs tLead (eaM tGroup ldLast4)) 4 false).1 = none ∧
      inFlight d 0 + (lineSet (laneAddrs tLead (eaM tGroup ldLast4))).length ≤ 256 ∧
      ldWaits d 0 1 4 (laneAddrs tLead (eaM tGroup ldLast4)) = false ∧
      ∀ n ∈ lineSet (laneAddrs tLead (eaM tGroup ldLast4)), cacheHit d 0 .ld n ≠ none) ∧
    (let f := (ldForm ldLast4 (decide (ldLast4.hint = 0))).op 0x82 .mem
     IssuesIn (memDev tCore pteC) f tLead ∧
      (memFault (spelled f (memDev tCore pteC)) 0 (laneAddrs tLead (eaM tGroup ldLast4)) 4 false).1 = none ∧
      ∀ n ∈ lineSet (laneAddrs tLead (eaM tGroup ldLast4)), cacheHit (spelled f (memDev tCore pteC)) 0 .ldc n = none) := by
  unfold IssuesIn Issues; and_intros <;> decide +kernel

theorem witness_StoresEnterTheWriteBuffer :
    let f := (stForm ldLast4).op 0x81 .mem
    let d := spelled f (memDev tCore pteC)
    IssuesIn (memDev tCore pteC) f tLead ∧
    (memFault d 0 (laneAddrs tLead (eaM tGroup ldLast4)) 4 true).1 = none ∧
    inFlight d 0 + (lineSet (laneAddrs tLead (eaM tGroup ldLast4))).length ≤ 256 ∧
    (onLane tLead.run 31 = true ∧ 3 < sizeBytes ldLast4.size) := by
  unfold IssuesIn Issues; and_intros <;> decide +kernel

/-- ATOM.CAS of 64 bits with ORD .AR at address 0. -/
def cas64 : FmtA := { guard := 0, d := 62, a := 255, b := 0, c := 2, ty := 2, ord := 3, off := 0 }
theorem witness_AtomicsFormCombinedOperations :
    let f := (atomForm .cas cas64).op (atomOp .cas) .mem
    let d := spelled f (memDev tCore pteU)
    IssuesIn (memDev tCore pteU) f tLead ∧
    IssuesIn (memDev tCore pteU) ((atomForm .add { cas64 with d := 255, c := 0, ord := 0 }).op (atomOp .add) .mem) tLead ∧
    (memFault d 0 (laneAddrs tLead (eaA tGroup cas64)) (atomBytes cas64.ty.toNat) true).1 = none ∧
    inFlight d 0 + (distinct ((laneAddrs tLead (eaA tGroup cas64)).map (·.2))).length ≤ 256 := by
  unfold IssuesIn Issues; and_intros <;> decide +kernel

def gFence (k : FenceKind) : Group := { tGroup with hold := some (.fence k 9) }
theorem witness_FencesHoldAndInvalidate :
    IssuesIn tDev ((fenceForm bare).op (fenceOp .sc) .mem) tLead ∧
    (getGroup (getCore (stWith (gFence .sc)).dev 0) 0 = some (gFence .sc) ∧ (gFence .sc).hold = some (.fence .sc 9) ∧
      coreUp (stWith (gFence .sc)).dev 0 = true ∧ fenceReady (stWith (gFence .sc)).dev 0 1 9 .sc = true) ∧
    (let r : Req := { tReq with op := .write 0 fullMask }
     r.core = tAt.core.toNat ∧ r.uid = (gFence .rel).uid ∧ r.ins < 9 ∧ isWrite r = true) ∧
    tLoad.uid = (gFence .acq).uid ∧ tLoad.id < 9 := by
  unfold IssuesIn Issues; and_intros <;> decide +kernel

/-- A device with a core's load or atomic `p` and the request `r`. -/
def retDev (p : PendLoad) (r : Req) : Dev := { devOf { tCore with loads := [p] } with reqs := [r] }
def tDone : Req := { tReq with st := .performed, result := tLine }
theorem witness_ReturnsWriteTheirRegisters :
    (getLoad (getCore (retDev tLoad tDone) 0) 2 = some tLoad ∧ tLoad.kind ≠ .atom ∧
      (∀ r ∈ (retDev tLoad tDone).reqs, r.id ∈ tLoad.reqs → r.st = .performed ∧ r.status = .ok) ∧
      getGroup (getCore (retDev tLoad tDone) 0) tLoad.slot = some tGroup ∧ tGroup.uid = tLoad.uid ∧
      tLoad.ended = false) ∧
    (let p := { tLoad with kind := .atom }
     let r : Req := { tDone with olds := [(0, 5), (31, 6)] }
     getLoad (getCore (retDev p r) 0) 2 = some p ∧ p.kind = .atom ∧ r.id ∈ p.reqs ∧ r.st = .performed ∧ r.status = .ok ∧
      getGroup (getCore (retDev p r) 0) p.slot = some tGroup ∧ tGroup.uid = p.uid ∧ p.ended = false) ∧
    (let r : Req := { tDone with op := .write 0 fullMask, ret := false }
     getReq (retDev tLoad r) 3 = some r ∧ r.core = 0 ∧ isWrite r = true ∧ r.ret = false) := by
  and_intros <;> decide +kernel

def tAdd : Combined := { op := .add, ty := 2, off := 120, lanes := [(0, 1, 0), (31, 2, 0)] }
theorem witness_HomeUpdatesMemoryUncached :
    let r : Req := { tReq with pte := pteU }
    let d := { memDev tCore pteU with reqs := [r] }
    getReq d 3 = some r ∧ mayArrive d r = true ∧ BankFree d r ∧ reaches d r.core (reqHome r) = true ∧
    baseReaches d (reqHome r) = true ∧ halfReady d (halfOf (reqHome r)) = true ∧
    bit (regGet d (aCdcStatus (halfOf (reqHome r)))) 62 = false ∧ d.miss = [] ∧ pteCacheable r.pte = false ∧
    CleanLine d (pteFrame r.pte) (lineIdx r.line) ∧ r.op = .read ∧ r.ret = true ∧
    ({ r with op := .write tLine 1 } : Req).op = .write tLine 1 ∧
    ({ r with op := .atomic tAdd } : Req).op = .atomic tAdd ∧ tAdd.off + atomBytes tAdd.ty ≤ 128 := by
  unfold CleanLine BankFree
  refine ⟨by decide +kernel, by decide +kernel, fun b _ => ⟨rfl, rfl⟩, ?_⟩
  and_intros <;> decide +kernel

theorem witness_MissesTakeSlotsOrRetry :
    (let d := { memDev tCore pteC with reqs := [tReq] }
     getReq d 3 = some tReq ∧ tReq.op = .read ∧ mayArrive d tReq = true ∧
      reaches d tReq.core (reqHome tReq) = true ∧ halfReady d (halfOf (reqHome tReq)) = true ∧ d.miss = [] ∧
      baseReaches d (reqHome tReq) = true ∧ pteCacheable tReq.pte = true ∧ findLine d (reqHome tReq) tReq.line = none ∧
      bit (regGet d (aCdcStatus (halfOf (reqHome tReq)))) 62 = false ∧
      mayMiss d (halfOf (reqHome tReq)) tReq.cls = true ∧
      mayMiss (regPut d (aMissShare 0) 0) (halfOf (reqHome tReq)) tReq.cls = false) ∧
    (let h : Req := { tReq with id := 2, st := .retried }
     h.core = tReq.core ∧ h.cls = tReq.cls ∧ reqHalf h = reqHalf tReq ∧ h.id < tReq.id ∧ tReq.st = .waiting ∧
      mayMiss { tDev with reqs := [h] } (reqHalf h) h.cls = true) := by
  and_intros <;> decide +kernel

theorem witness_HitsReadAndMergeAtTheHome :
    (let d := { putSet (memDev tCore pteC) (reqHome tReq) 0 [tCLine] with reqs := [tReq] }
     getReq d 3 = some tReq ∧ mayArrive d tReq = true ∧ BankFree d tReq ∧ reaches d tReq.core (reqHome tReq) = true ∧
      halfReady d (halfOf (reqHome tReq)) = true ∧ d.miss = [] ∧ pteCacheable tReq.pte = true ∧ tReq.mark = false ∧
      findLine d (reqHome tReq) 0 = some tCLine ∧ tCLine.poison = false ∧ d.errs = [] ∧
      (storeEnc d (reqHome tReq) pteC (merge tLine 0xFF 1)).2 ≤ sectCount tCLine.sect) ∧
    (let m : Miss := { id := 4, half := 0, cls := 0, home := 0, line := 0, pte := pteC, sent := false, cmd := false,
                       reqs := [3], marks := [] }
     let d := { memDev tCore pteC with reqs := [{ tReq with st := .missed }], miss := [m] }
     m ∈ d.miss ∧ m.id = 4 ∧ bit (regGet d (aCdcStatus m.half)) 62 = false ∧
      mayCommand d (controllerOf m.pte m.line) m.cls = true) := by
  refine ⟨⟨by decide +kernel, by decide +kernel, fun b _ => ⟨rfl, rfl⟩, ?_⟩, ?_⟩ <;> and_intros <;> decide +kernel

/-- CACHE of kind `k` from address 0 with the length in register 1. -/
def cacheF (k : BitVec 4) : FmtM := fM 1 255 0 k 0
/-- `tGroup` with `v` in register 1 of every lane, and its lead. -/
def gX1 (v : Word) : Group := writeX tGroup 1 (List.replicate 32 true) fun _ => v
def tRange (k : Nat) : RangeOp :=
  { id := 8, uid := 1, slot := 0, kind := k, next := 0, stop := 2, left := false, dreg := 1, lanes := [0] }
/-- The device with a range operation, page 0 in the TLB and line 0 at its home. -/
def rangeDev (k : Nat) (pin : Bool) : Dev :=
  putSet (memDev { tCore with ranges := [tRange k], tlb := [(0, pteC)] } pteC) (homeOf pteC 0) 0
    [{ tCLine with pinned := pin }]
theorem witness_CacheRangesRunLineByLine :
    (∀ k : Fin 4, (cacheForm k.val (cacheF (BitVec.ofNat 4 k.val))).legal = true) ∧
    (let f := (cacheForm 2 (cacheF 2)).op 0x84 .mem
     let d := spelled f (memDev { tCore with groups := [(0, some (gX1 256))] } pteC)
     let l := opening f d { tLead with g := gX1 256 }
     IssuesIn (memDev { tCore with groups := [(0, some (gX1 256))] } pteC) f { tLead with g := gX1 256 } ∧
      readX (gX1 256) 1 0 = 256 ∧ eaM (gX1 256) (cacheF 2) 0 = 0 ∧ (rangeLines 2 0 256).1 < (rangeLines 2 0 256).2 ∧
      loadsOut d l = false ∧
      (memFault d 0 ((List.range ((0 + 256 - 1) / 2 ^ 20 + 1 -
        0 / 2 ^ 20)).map fun p => (0, (0 / 2 ^ 20 + p) * 2 ^ 20)) 1 true).1 = none) ∧
    (let f := (cacheForm 1 (cacheF 1)).op 0x84 .mem
     IssuesIn tDev f tLead ∧ readX tGroup 1 0 = 0 ∧ loadsOut (spelled f tDev) tLead = false) ∧
    (rangeLines 1 64 126).2 ≤ (rangeLines 1 64 126).1 ∧
    (findRange (rangeDev 3 true) 8 = some (0, tRange 3) ∧ (rangeDev 3 true).miss = [] ∧
      budgetOk (rangeDev 3 true) 0 = true ∧ rangeHeld (rangeDev 3 true) 0 (tRange 3) 3 = false ∧
      tlbEntry (rangeDev 3 true) 0 (pageOfLine 0) = pteC ∧ pteCacheable pteC = true ∧
      (∃ x ∈ (getCore (rangeDev 3 true) 0).tlb, x.1 = pageOfLine 0) ∧
      halfReady (rangeDev 3 true) (halfOf (homeOf pteC 0)) = true ∧
      findLine (rangeDev 3 true) (homeOf pteC 0) 0 = some { tCLine with pinned := true }) ∧
    findRange (rangeDev 1 false) 8 = some (0, tRange 1) ∧
    findLine (rangeDev 1 false) (homeOf pteC 0) 0 = some tCLine := by
  unfold IssuesIn Issues; and_intros <;> decide +kernel

theorem witness_FillsBringLinesAndEntries :
    (let d := memDev { tCore with ic := [] } pteC
     leadOf tAt 0 d = some tLead ∧ pcBad tLead.pc = false ∧ (getCore d 0).ic = [] ∧
      fetchAddr (getCore d 0) tLead.pc / 128 = 0 ∧ fetchAddr (getCore d 0) tLead.pc < 2 ^ 39 ∧
      (coreTx d 0 (fetchAddr (getCore d 0) tLead.pc / 2 ^ 20)).1 = .entry pteC ∧
      serveStop (coreTx d 0 0).2 (some 0) pteC 0 .read = 0 ∧ budgetOk (coreTx d 0 0).2 0 = true ∧
      bit (regGet (coreTx d 0 0).2 (aCdcStatus (halfOf (homeOf pteC 0)))) 62 = false ∧
      (accessHome (spend (coreTx d 0 0).2 0) 5 pteC 0 .read).1.status = .ok) ∧
    (coreUp (memDev tCore pteC) 0 = true ∧ (getCore (memDev tCore pteC) 0).tlb = [] ∧
      pteMaps (memDev tCore pteC) (pmapEntry (memDev tCore pteC) 0) = true) ∧
    (memDev tCore pteC).btc = [] ∧ (memDev tCore pteC).errs = [] := by
  and_intros <;> decide +kernel

/-! ## Witnesses: the scratchpad -/

/-- A core whose task holds all sixteen banks, ON and owned by `w` in every field. -/
def spadCore (w : Word) : Core :=
  { tCore with task0 := some { tTask with banks := 0xFFFF },
               spx := { resetSpx with bstate := 0xAAAAAAAA, owner := w, queued := w } }
/-- A core of the thread lanes, and one of the tile mover. -/
def laneCore : Core := spadCore 0x55555555
def moverCore : Core := spadCore 0xAAAAAAAA
/-- Eight bytes at the last offset of the scratchpad, by register 1, which holds 2^19 - 8. -/
def spLast : FmtM := fM 62 1 3 0 0
def gEnd : Group := gX1 0x7FFF8
def lEnd : Lead := { tLead with g := gEnd }

theorem witness_LanesReachTheScratchpad :
    let d := devOf { laneCore with groups := [(0, some gEnd)] }
    let c := getCore d 0
    IssuesIn d ((spxLdForm spLast).op 0x85 .mem) lEnd ∧ IssuesIn d ((spxForm spLast).op 0x86 .mem) lEnd ∧
    spxLaneFault c false 8 (laneAddrs lEnd (spxOff gEnd spLast)) = none ∧
    committed c.spx portLanes d.nextId ((laneAddrs lEnd (spxOff gEnd spLast)).map fun a => a.2 / 32768) = true ∧
    d.errs = [] ∧ loadsOut (spelled ((spxForm spLast).op 0x86 .mem) d) lEnd = false ∧ onLane lEnd.run 31 = true ∧
    spxOff gEnd spLast 31 = 0x7FFF8 ∧ sizeBytes spLast.size = 8 := by
  unfold IssuesIn Issues; and_intros <;> decide +kernel

/-- Registers 1, 2 and 3 of every lane. -/
def gABC (a b c : Word) : Group :=
  let m := List.replicate 32 true
  writeX (writeX (writeX tGroup 1 m fun _ => a) 2 m fun _ => b) 3 m fun _ => c
def fill : FmtR := fR 0 0 0 1 2 3
theorem witness_ScratchpadOperationsAndHandovers :
    (let c := { moverCore with groups := [(0, some (gABC 0x7FFF0 16 7))] }
     let l := { tLead with g := gABC 0x7FFF0 16 7 }
     IssuesIn (devOf c) ((spxQueueForm fill).op 0x87 .mem) l ∧ IssuesIn (devOf c) ((spxQueueForm fill).op 0x88 .mem) l ∧
      ((spxRanges false 0x7FFF0 16 7).map fun r => r.2).headD 0 = 16 ∧
      readX l.g 1 0 = 0x7FFF0 ∧ bVal l.g fill 1 0 = 16 ∧ readX l.g 3 0 = 7 ∧
      rangesFault c false portMover (spxRanges false 0x7FFF0 16 7) = none ∧
      rangesFault c false portMover (spxRanges true 0x7FFF0 0 16) = none ∧
      loadsOut (devOf c) l = false) ∧
    (let f := { fill with guard := 0x10 }
     IssuesIn (devOf moverCore) ((spxQueueForm f).op 0x87 .mem) tNone ∧ ∀ i, i < 32 → onLane tNone.run i = false) ∧
    (((spxRanges false 0 0 0).map fun r => r.2).headD 0 = 0) ∧
    (let o : SpxOp := { id := 5, uid := 1, slot := 0, pos := false, pc := 0, copy := false, a := 0, b := 1, c := 0 }
     let c := { moverCore with spx := { moverCore.spx with q := [o] } }
     IssuesIn (devOf c) ({ bareForm bare with holds := true }.op 0x8A .mem) tLead ∧ o ∈ c.spx.q ∧ o.uid = tGroup.uid ∧
      o.id < (devOf c).nextId) ∧
    (IssuesIn tDev ({ bareForm bare with holds := true }.op 0x8A .mem) tLead ∧ tCore.spx.q = [] ∧
      tCore.mx.deferred = []) ∧
    (let f : FmtR := fR 2 0 0 1 0 0
     let c := { laneCore with groups := [(0, some (gX1 0x8001))] }
     let l := { tLead with g := gX1 0x8001 }
     IssuesIn (devOf c) ((handoverForm f).op 0x89 .mem) l ∧ (readX l.g 1 0).toNat = 0x8001 ∧
      banksFault c false false c.spx.queued 2 (maskBanks 0x8001) = none ∧ loadsOut (devOf c) l = false ∧
      (15 < 16 ∧ Nat.testBit 0x8001 15 = true ∧ bankField c.spx.queued 15 ≠ 2) ∧
      ∀ b, b < 16 → Nat.testBit 0x8001 b = true → bankField moverCore.spx.queued b = 2) ∧
    (let h : Hand := { id := 4, uid := 1, slot := 0, target := 2, banks := [(0, 1), (15, 1)] }
     let c := { laneCore with spx := { laneCore.spx with hands := [h] },
                              groups := [(0, some { tGroup with hold := some (.handover 4) })] }
     h ∈ c.spx.hands ∧ (15, 1) ∈ h.banks ∧ (∀ p ∈ h.banks, p.1 = 15 → p.2 = 1) ∧ h.target < 4 ∧
      coreUp (devOf c) 0 = true ∧ drained c 4 15 1 = true ∧ (∃ p ∈ h.banks, p.1 ≠ 15) ∧
      getGroup c h.slot = some { tGroup with hold := some (.handover 4) }) := by
  unfold IssuesIn Issues; and_intros <;> decide +kernel

theorem witness_BanksWakeAndTurnOff :
    (let c := { tCore with spx := { resetSpx with bstate := 0xC0000000, initing := 0x8000 } }
     coreUp (devOf c) 0 = true ∧ bankState c.spx 15 = bankWaking) ∧
    (let c := { tCore with spx := { resetSpx with bstate := 0x40000000 } }
     coreFenced (devOf c) 0 = false ∧ bits (0 : BitVec 64) 30 2 = 0 ∧ bankState c.spx 15 = bankRetain ∧
      inAnySet c 15 = false) ∧
    coreFenced { tDev with regs := [(aCoreFence 0, 1)] } 0 = true ∧
    (let m : ErrMark := { mem := 5, unit := 0, index := 0x7FFFF, dbl := false, inj := false, seen := true }
     markOf { tDev with errs := [m] } 0x05 0 0x7FFFF = some m ∧ m.seen = true ∧ m.dbl = false) := by
  and_intros <;> decide +kernel

theorem witness_WindowReachesMoverBanks :
    (let a : WinAccess := { write := false, off := 0x7FFFC, len := 4, data := [] }
     a.off.toNat + a.len ≤ 0x80000 ∧ windowStatus (devOf moverCore) 0 a.off.toNat a.len = 0 ∧
      windowStatus (devOf laneCore) 0 a.off.toNat a.len ≠ 0 ∧ (devOf moverCore).errs = [] ∧
      (∃ m : ErrMark, markOf { devOf moverCore with errs := [m] } 0x05 0 0x7FFFF = some m ∧ m.dbl = true) ∧
      windowStatus (devOf moverCore) 0 0x7FFFC (min (32768 * (0x7FFFF / 32768 + 1)) (0x7FFFC + 4) - 0x7FFFC) = 0) ∧
    (let a : WinAccess := { write := true, off := 0x7FFFC, len := 0, data := [1, 2, 3, 4] }
     a.write = true ∧ a.off.toNat + a.data.length ≤ 0x80000 ∧ windowBank (devOf moverCore) 0 15 = 0) := by
  refine ⟨⟨by decide, by decide +kernel, by decide +kernel, rfl,
    ⟨{ mem := 5, unit := 0, index := 0x7FFFF, dbl := true, inj := false, seen := false }, by decide +kernel, rfl⟩, by decide +kernel⟩,
    by decide, by decide, by decide +kernel⟩

/-! ## Witnesses: the matrix arrays, the row unit and the fabric -/

/-- `tGroup` with a descriptor in uniform registers 0 to 3, and its lead. -/
def gDesc (d : BitVec 128) : Group :=
  { tGroup with u := (List.range 4).map fun i => (i, BitVec.ofNat 32 (d.toNat / 2 ^ (32 * i))) }
def lDesc (d : BitVec 128) : Lead := { tLead with g := gDesc d }
def tTile : Tile := { empty := false, int := false, scale := oneF, poison := false, el := List.replicate 256 oneF }
/-- Array 3: tile 3 of FP class, bank 0 VALID with signed bytes; sets 0 and 1 in SMAX and STAT; every scratchpad bank
ON and of owner `w`; with the MX queue `q`. -/
def mxCore (w : Word) (d : BitVec 128) (q : List MxOp) : Core :=
  { spadCore w with
      groups := [(0, some (gDesc d))], ru := [(0, { emptySet with mode := .smax }), (1, { emptySet with mode := .stat })],
      mx := { resetMx with tiles := [(15, tTile)], banks := [(6, { valid := true, fmt := 3, wscale := oneF })], q := q } }
def mxOp (k : MxKind) (d : BitVec 128) : MxOp :=
  { id := 5, uid := 1, slot := 0, pos := false, pc := 0, kind := k, desc := d, started := false, wfmt := 3,
    factor := [oneF] }
/-- Tile 3 of array 3, every row and column, scale 1.0; the last feed line; two elements of K. -/
def dMma : BitVec 128 := BitVec.ofNat 128 (0x1FFF + 2 * 2 ^ 13 + 3 * 2 ^ 48 + 2 ^ 53 + 3 * 2 ^ 54 + 8 * 2 ^ 56 +
  0xFFFFFFFF * 2 ^ 64 + 0x3F800000 * 2 ^ 96)
def dWld : BitVec 128 := BitVec.ofNat 128 (2 ^ 58 + 2 * 2 ^ 59 + 3 * 2 ^ 84 + 8 * 2 ^ 88 + 0x3F800000 * 2 ^ 96)
def dSld : BitVec 128 := BitVec.ofNat 128 (1023 * 2 ^ 39 + 2 ^ 58 + 16 * 2 ^ 59)
def dDrain : BitVec 128 := BitVec.ofNat 128 (2 ^ 58 + 3 * 2 ^ 70 + 8 * 2 ^ 72 + 64 * 2 ^ 80 + 0xFFFFFFFF * 2 ^ 96)
/-- A row unit descriptor: rows and columns all, source tile 3, destination tile 2, array 3, of FUNC `f` and set `s`. -/
def dRu (f s : Nat) : BitVec 128 := BitVec.ofNat 128 (0xFFFFFFFF * 2 ^ 6 + s * 2 ^ 46 + 2 * 2 ^ 52 + 3 * 2 ^ 54 +
  8 * 2 ^ 56 + f * 2 ^ 60 + 0x3F800000 * 2 ^ 96)
def dRow (s : Nat) : BitVec 128 := BitVec.ofNat 128 (0xFFFF * 2 ^ 22 + s * 2 ^ 46 + 2 * 2 ^ 52 + 8 * 2 ^ 56 + s * 2 ^ 60)
def desc0 : FmtR := fR 0 0 0 0 0 0

/-- The descriptor issues in `mxCore` without a fault. -/
def Queues (k : MxKind) (d : BitVec 128) (w : Word) : Prop :=
  readUQuad (gDesc d) 0 = d ∧ taskMx (mxCore w d []) false = true ∧ mxCheck k (mxCore w d []) false 0 d = none
theorem witness_MatrixInstructionsQueueOperations :
    Queues .mma dMma 0 ∧ Queues .wld dWld 0xAAAAAAAA ∧ Queues .sld dSld 0xAAAAAAAA ∧ Queues .drain dDrain 0xAAAAAAAA ∧
    Queues .ruMap (dRu 10 0) 0 ∧ Queues .ruSmax1 (dRu 0 0 - BitVec.ofNat 128 (2 * 2 ^ 52)) 0 ∧
    Queues .ruSmax2 (dRu 0 0) 0 ∧ Queues .ruStat (dRu 0 1 - BitVec.ofNat 128 (2 * 2 ^ 52)) 0 ∧
    Queues .ruNorm (dRu 1 1) 0 ∧ Queues .ruRowout (dRow 1) 0 ∧
    (IssuesIn (devOf (mxCore 0 dMma [])) (queueForm .mma (descForm desc0)) (lDesc dMma) ∧
      loadsOut (devOf (mxCore 0 dMma [])) (lDesc dMma) = false) ∧
    (mxCheck .mma (mxCore 0x55555555 dMma []) false 0 dMma = some (0x0B, 0x7FFC0) ∧
      mxCheck .ruMap (mxCore 0 0 []) false 0 (dRu 11 0) = some (0x03, 0)) ∧
    (let f := queueForm .mma (descForm desc0)
     let d := spelled f (devOf { tCore with task0 := some { tTask with usesMx := false } })
     leadFor tAt f d = some (opening f d tLead) ∧ pcBad 0 = false ∧ spells (getCore d 0) 0 f = true ∧
      (getMx d 0).q.length < 16 ∧ taskMx (getCore d 0) false = false) := by
  unfold IssuesIn Issues Queues; and_intros <;> decide +kernel

theorem witness_MatrixWaitsEndWithTheirOperations :
    (IssuesIn tDev (queueForm .tzero (tzeroForm { bare with a := 0x0F })) tLead ∧
      loadsOut tDev tLead = false ∧ (getMx tDev 0).q = []) ∧
    (let c := mxCore 0 dMma [mxOp .mma dMma]
     IssuesIn (devOf c) ((mxWaitForm bare).op 0xA5 .mx) (lDesc dMma) ∧
      ∃ o ∈ (getMx (devOf c) 0).q, o.uid = (gDesc dMma).uid ∧ o.id < (devOf c).nextId) ∧
    (IssuesIn tDev ((mxWaitForm bare).op 0xA5 .mx) tLead ∧ (getMx tDev 0).deferred = []) ∧
    (let c := { mxCore 0 dMma [{ mxOp .mma dMma with started := true }, { mxOp .ruMap (dRu 10 0) with
                  id := 6, started := true }] with spx := { resetSpx with mover := some 7 } }
     coreUp (devOf c) 0 = true ∧ (getMx (devOf c) 0).deferred = [] ∧
      (∀ o ∈ (getMx (devOf c) 0).q, o.kind ≠ .tzero) ∧
      ((getMx (devOf c) 0).q.find? fun p => decide (p.kind = .mma) && p.started).map (fun o => o.id) = some 5 ∧
      ((getMx (devOf c) 0).q.find? fun p => isRu p.kind && p.started).map (fun o => o.id) = some 6 ∧
      (getCore (devOf c) 0).spx.mover = some 7) := by
  unfold IssuesIn Issues; and_intros <;> decide +kernel

/-- The oldest MX.MMA of `mxCore` may start. -/
def StreamMayStart (d : BitVec 128) (int sat : Bool) : Prop :=
  let o := { mxOp .mma d with wfmt := mmaFmt d }
  let c := mxCore 0 d [o]
  ((getMx (devOf c) 0).q.find? fun q => decide (q.kind = .mma) && !q.started) = some o ∧ coreUp (devOf c) 0 = true ∧
  mayStart c o = true ∧ noticeHeld (devOf c) 0 false = false ∧ committed c.spx portFeed o.id (mxBanks o) = true ∧
  (getCluster (devOf c) 0).droop = none ∧ (devOf c).errs = [] ∧ streamArrays o = [(3, oneF)] ∧
  streamInt o.desc o.wfmt = int ∧ mmaSat o.desc = sat ∧ fmtBlock o.wfmt = 0 ∧ mmaRow o.desc + mmaKlen o.desc ≤ classRows (fmtClass o.wfmt) ∧
  (colsOf (mmaArrays o.desc) (mmaCols o.desc) 3).testBit 15 = true ∧ (mmaRows o.desc).testBit 15 = true
theorem witness_StreamsAccumulateIntoTiles :
    StreamMayStart dMma true false ∧ StreamMayStart (BitVec.ofNat 128 (dMma.toNat + 2 ^ 52)) true true ∧
    StreamMayStart (BitVec.ofNat 128 (dMma.toNat + 6 * 2 ^ 48)) false false ∧
    (mmaAfb dMma = false ∧ 64 * mmaLine dMma ≤ 0x7FFFF ∧ 0x7FFFF < 64 * (mmaLine dMma + mmaLines dMma)) ∧
    (let m : ErrMark := { mem := 5, unit := 0, index := 0x7FFFF, dbl := true, inj := false, seen := false }
     markOf { devOf (mxCore 0 dMma []) with errs := [m] } 0x05 0 0x7FFFF = some m ∧ m.dbl = true) := by
  unfold StreamMayStart; and_intros <;> decide +kernel

/-- A fill of the last 16 bytes and a copy of them, as queued. -/
def spxOp (copy : Bool) : SpxOp :=
  { id := 5, uid := 1, slot := 0, pos := false, pc := 0, copy := copy, a := 0x7FFF0,
    b := if copy then 0 else 16, c := 16 }
/-- The mover may take the operation of `mxCore`. -/
def MoverMayStart (k : MxKind) (d : BitVec 128) : Prop :=
  let o := mxOp k d
  let c := mxCore 0xAAAAAAAA d [o]
  coreUp (devOf c) 0 = true ∧ c.spx.mover = none ∧ nextMover c = some (.mx o) ∧ mayStart c o = true ∧
  committed c.spx portMover o.id (mxBanks o) = true ∧ budgetOk (devOf c) 0 = true ∧ (devOf c).errs = [] ∧
  ∀ i ∈ readsTiles o, (getTile c.mx i).poison = false
/-- The mover may take the fill or copy. -/
def SpxMayStart (b : Bool) : Prop :=
  let c := { moverCore with spx := { moverCore.spx with q := [spxOp b] } }
  nextMover c = some (.spx (spxOp b)) ∧ committed c.spx portMover (spxOp b).id (spxBanks (spxOp b)) = true
/-- The weight load with the block format 4. -/
def dWldB : BitVec 128 := BitVec.ofNat 128 (dWld.toNat + 2 ^ 84)
theorem witness_MoverRunsLoadsDrainsAndFills :
    MoverMayStart .wld dWld ∧ MoverMayStart .sld dSld ∧ MoverMayStart .drain dDrain ∧ MoverMayStart .wld dWldB ∧
    SpxMayStart false ∧ SpxMayStart true ∧
    (ldSpad dWld = true ∧ wldRow dWld + wldRows dWld ≤ classRows (fmtClass (wldFmt dWld)) ∧ fmtBlock (wldFmt dWldB) ≠ 0 ∧
      ldSpad dWldB = true ∧ ldSpad dSld = true ∧ drSpad dDrain = true) ∧
    (let c := { mxCore 0xAAAAAAAA dDrain [mxOp .drain dDrain] with mx :=
        { resetMx with tiles := [(15, { tTile with poison := true })], q := [mxOp .drain dDrain] } }
     nextMover c = some (.mx (mxOp .drain dDrain)) ∧
      ∃ i ∈ readsTiles (mxOp .drain dDrain), (getTile c.mx i).poison = true) := by
  unfold MoverMayStart SpxMayStart; and_intros <;> decide +kernel

/-- The oldest row unit operation of `mxCore` may start. -/
def RuMayStart (k : MxKind) (d : BitVec 128) : Prop :=
  let o := mxOp k d
  let c := mxCore 0 d [o]
  ((getMx (devOf c) 0).q.find? fun q => isRu q.kind && !q.started) = some o ∧ coreUp (devOf c) 0 = true ∧
  mayStart c o = true ∧ ruAfb o.desc = false ∧ (∀ i ∈ readsTiles o, (getTile c.mx i).poison = false) ∧
  (getRs c (ruSet o.desc)).poison = false ∧ (getRs c (ruSet o.desc)).mode ≠ .empty ∧ ruInit o.desc = false ∧
  (arraysOf (ruArrays o.desc))[0]? = some 3
theorem witness_RowUnitOperationsWriteTheirResults :
    RuMayStart .ruMap (dRu 10 0) ∧ RuMayStart .ruSmax1 (dRu 0 0) ∧ RuMayStart .ruSmax2 (dRu 0 0) ∧
    RuMayStart .ruStat (dRu 0 1) ∧ RuMayStart .ruNorm (dRu 1 1) ∧ RuMayStart .ruRowout (dRow 1) ∧
    (included .ruMap (dRu 10 0) 0 15 15 = true ∧ included .ruMap (BitVec.ofNat 128 ((dRu 10 0).toNat - 2 ^ 21)) 0 15 15 =
      false) ∧
    ruInit (BitVec.ofNat 128 ((dRu 0 0).toNat + 2 ^ 45)) = true ∧
    (let c := { mxCore 0 (dRu 0 0) [mxOp .ruSmax2 (dRu 0 0)] with ru := [(0, { emptySet with mode := .smax, poison := true })] }
     (getRs c (ruSet (dRu 0 0))).poison = true ∧ mayStart c (mxOp .ruSmax2 (dRu 0 0)) = true) := by
  unfold RuMayStart; and_intros <;> decide +kernel

theorem witness_Exp2AndLog2SpecialValues :
    (-126 : Int) ≤ -1 ∧ isNaN (ofF32 0x7FC00001) = true ∧
    (isNaN (ofF32 0xC2FC0001) = false ∧ fvLt (ofF32 0xC2FC0001) (fvOfInt (-126)) = true) ∧
    (isNaN (ofF32 0x43000000) = false ∧ fvLt (ofF32 0x43000000) (fvOfInt 128) = false) ∧
    (fvLt (ofF32 0xC2FC0000) (fvOfInt (-126)) = false ∧ fvLt (ofF32 0xC2FC0000) (fvOfInt 128) = true ∧
      fvEq (ofF32 0xC2FC0000) (fvOfInt (-126)) = true) ∧
    bits (0x007FFFFF : Word) 23 8 = 0 ∧
    (isNaN (ofF32 0x80800000) = false ∧ bits (0x80800000 : Word) 23 8 ≠ 0 ∧ bit (0x80800000 : Word) 31 = true) := by
  and_intros <;> decide +kernel

/-! A configuration image of one copy with eight inputs, four outputs, no lookup cell and a body of 64 zero bytes; its
CRC-32C is worked out outside the model. -/
def ffxImage : List Host.Cell :=
  [(5242880, 70), (5242881, 67), (5242882, 88), (5242883, 49), (5242884, 1), (5242886, 1), (5242887, 1), (5242888, 9),
   (5242896, 4), (5242897, 8), (5242898, 4), (5242904, 64), (5242940, 9), (5242941, 27), (5242942, 112), (5242943, 149)]
def dLds : BitVec 128 := BitVec.ofNat 128 (3 * 2 ^ 40 + 9 * 2 ^ 64)
/-- The header of the image without its CRC, and with it. -/
def ffxHead : List Byte :=
  [70, 67, 88, 49, 1, 0, 1, 1, 9, 0, 0, 0, 0, 0, 0, 0, 4, 8, 4, 0, 0, 0, 0, 0, 64] ++ List.replicate 35 0
def ffxHeadC : List Byte := ffxHead ++ [9, 27, 112, 149]
def ffxOp (lds started : Bool) (slot : Nat) : FfxOp :=
  { id := 5, uid := 1, slot := 0, pos := false, pc := 0, lds := lds, target := slot, desc := dLds, started := started,
    head := if started then ffxHeadC else [], bad := none, dreg := 60, nres := 4,
    args := [(31, [1, 2, 3, 4, 5, 6, 7, 8])] }
def vSlot : FfxSlot := { emptySlot with valid := true, config := 9, copies := 1, ii := 1, lat := 4, nIn := 8, nOut := 4,
                                        cfgBytes := 64 }
/-- Slot 3 holds `v`; the queue is `q`; slot `a` is active. -/
def ffxDev (v : FfxSlot) (a : Nat) (q : List FfxOp) : Dev :=
  { memDev { tCore with ffx := { slots := [(3, v)], active := a, q := q, fails := [] },
                        groups := [(0, some (gDesc dLds))] } pteU with mem := ffxImage }
/-- An image whose bodies are read and whose CRC is good passes. -/
theorem fetchBody_ok (d : Dev) (n : Nat) (desc : BitVec 128) (h b : List Byte)
    (h3 : (readCoreMem d n 5 (ldsSrc desc + 64) (fieldAt h 0x18 4 + fieldAt h 0x1C 4)).1 = (0, b))
    (h4 : (crc32c (h.take 0x3C ++ [0, 0, 0, 0] ++ b)).toNat = fieldAt h 0x3C 4) :
    (fetchBody d n desc h).1 = .inr (slotOf h b) := by
  unfold fetchBody
  simp only [h3, h4, ne_eq, not_true_eq_false, if_false]

theorem crc_image : crc32c (ffxHead ++ [0, 0, 0, 0] ++ List.replicate 64 0) = 0x95701B09 := by
  simp [crc32c, crcByte, ffxHead, List.replicate, List.range, List.range.loop, bit]

/-- FFX of slot 3 from registers 0 to 7 into 60 to 63. -/
def ffxF : FmtR := fR 3 0xF8 60 0 0 0

/-- The words of `form` stand at the PC of a group of a task without USES_FFX. -/
def NoFabric (form : Form) : Prop :=
  let d := spelled form (devOf { tCore with task0 := some { tTask with usesFfx := false } })
  leadFor tAt form d = some (opening form d tLead) ∧ pcBad 0 = false ∧ spells (getCore d 0) 0 form = true ∧
  hasRoom (roomOf d 0) form = true ∧ taskFfx (getCore d 0) false = false
theorem witness_FabricQueuesLoadsAndResults :
    (let d := ffxDev vSlot 3 []
     IssuesIn d ((ffxForm ffxF).op 0xB0 .mx) (lDesc dLds) ∧ onLane (lDesc dLds).run 31 = true ∧
      failOf (getCore d 0).ffx 1 3 10 = none ∧ getSlot (queuedFfx d (getCore d 0).ffx) 3 = vSlot ∧
      ffxNo ffxF ≤ vSlot.nIn ∧ ffxNr ffxF ≤ vSlot.nOut ∧ ({ vSlot with nIn := 7 } : FfxSlot).nIn < ffxNo ffxF ∧
      (getSlot (queuedFfx (ffxDev emptySlot 3 []) (getCore (ffxDev emptySlot 3 []) 0).ffx) 3).valid = false ∧
      (failOf { (getCore d 0).ffx with fails := [FfxFail.mk 9 1 false 3 0x0E 0] } 1 3 10).isSome = true) ∧
    NoFabric ((ffxForm ffxF).op 0xB0 .mx) ∧ NoFabric ((ffxLdsForm desc0).op 0xB1 .mx) ∧
    (IssuesIn tDev ((ffxForm { ffxF with guard := 0x10 }).op 0xB0 .mx) tNone ∧ ∀ i, i < 32 → onLane tNone.run i = false) ∧
    (IssuesIn (ffxDev vSlot 3 []) ((ffxLdsForm desc0).op 0xB1 .mx) (lDesc dLds) ∧ dLds = readUQuad (gDesc dLds) 0 ∧
      bits dLds 42 22 = 0 ∧ ldsSrc dLds % 64 = 0 ∧ bits (dLds + 2 ^ 42) 42 22 ≠ 0 ∧ ldsSrc (dLds + 32) % 64 ≠ 0) ∧
    (let D := ffxDev vSlot 3 [ffxOp true false 3]
     let F := (getCore D 0).ffx
     coreUp D 0 = true ∧ (F.q.find? fun p => p.lds) = some (ffxOp true false 3) ∧ budgetOk D 0 = true ∧
      (∀ p ∈ F.q, p.lds = true) ∧ (getSlot F 3).valid = true ∧ (getSlot F 3).config = ldsConfig dLds ∧
      ldsForce dLds = false ∧ (getSlot (getCore (ffxDev emptySlot 3 [ffxOp true false 3]) 0).ffx 3).valid = false) ∧
    (let D := ffxDev { emptySlot with loading := true } 3 [ffxOp true true 3]
     ((getCore D 0).ffx.q.find? fun p => p.lds && p.started) = some (ffxOp true true 3) ∧ budgetOk D 0 = true ∧
      ffxAhead (getCore D 0).ffx 5 (claimants (getCore D 0).ffx 3 (slotOf ffxHeadC []).lutMask) = false ∧
      (fetchBody { D with pmap := [] } 0 dLds ffxHeadC).1.isLeft = true) ∧
    (let F := (getCore (ffxDev vSlot 0 [ffxOp false false 3]) 0).ffx
     nextFfx F = some (ffxOp false false 3) ∧ (ffxOp false false 3).target ≠ F.active ∧
      ffxLoading F (ffxOp false false 3) = false) ∧
    (let o := ffxOp false false 3
     let D := ffxDev vSlot 3 [o]
     let F := (getCore D 0).ffx
     nextFfx F = some o ∧ o.target = F.active ∧ ffxLoading F o = false ∧ (getCore D 0).spx.hands = [] ∧
      failOf F 1 3 5 = none ∧ runsOn (getSlot F 3) 5 = true ∧ (∀ a ∈ o.args, a.2.length ≤ (getSlot F 3).nIn) ∧
      o.nres ≤ (getSlot F 3).nOut ∧ D.errs = [] ∧ (invoke D 0 { o with args := [] } vSlot).1 = [] ∧
      getGroup (getCore D 0) o.slot = some (gDesc dLds)) := by
  unfold IssuesIn Issues NoFabric; and_intros <;> decide +kernel

/-- With a lane: where the image spells no cell, as it may, its one invocation reads nothing and does not fault. -/
theorem witness_FabricLaneWithoutReads (h : Config.fabricNet (List.replicate 64 0) = [])
    (hs : Config.shippedAs vSlot.config = none) :
    (invoke (ffxDev vSlot 3 [ffxOp false false 3]) 0 (ffxOp false false 3)
      { vSlot with body := List.replicate 64 0 }).1 = [] := by
  have e : slotNet { vSlot with body := List.replicate 64 0 } = [] := by
    have : (List.replicate 64 (0 : Byte)).take vSlot.cfgBytes = List.replicate 64 0 := by decide
    simp only [slotNet, this, h]; rfl
  have e2 : shippedOf { vSlot with body := List.replicate 64 0 } = none := by simp only [shippedOf, hs]
  unfold invoke invocation
  simp only [e, e2]
  decide +kernel

/-- The header of `ffxImage` is read and good, and with it the image loads. -/
theorem witness_FabricImageLoads :
    (fetchHead (ffxDev emptySlot 3 [ffxOp true false 3]) 0 dLds).1 = .inr ffxHeadC ∧
    (fetchBody (ffxDev { emptySlot with loading := true } 3 [ffxOp true true 3]) 0 dLds ffxHeadC).1 =
      .inr { vSlot with body := List.replicate 64 0 } := by
  refine ⟨by decide +kernel, ?_⟩
  rw [fetchBody_ok _ 0 dLds ffxHeadC (List.replicate 64 0) (by decide +kernel) ?_]
  · decide +kernel
  · have e : ffxHeadC.take 0x3C = ffxHead := by decide +kernel
    rw [e, crc_image]; decide +kernel

/-! ## Witnesses: cache, page map, network, clusters -/

/-- `tDev` with a register at a value. -/
def regDev (a : Nat) (v : D64) : Dev := regPut tDev a v
theorem witness_CacheMaintenanceCountersAndSweeps :
    (cnt tDev 1 7 0 = 0 ∧ (0 + 0) % 2 ^ 48 = cnt tDev 1 7 0 ∧ (getThrash tDev 1 7).hits0 = 0 ∧
      (getThrash tDev 1 7).miss0 = 0) ∧
    (2 ^ bits (regGet (regDev (aThrashCfg 1 7) 0x80000001) (aThrashCfg 1 7)) 24 4 ≤ 0 + 1 ∧
      bit (regGet (regDev (aThrashCfg 1 7) 0x80000001) (aThrashCfg 1 7)) 31 = true) ∧
    (bit (1 : D64) 0 = true ∧ bit (regGet tDev (aWbStatus 1)) 63 = false) ∧
    bit (regGet (regDev (aWbStatus 1) 0x8000000000000000) (aWbStatus 1)) 63 = true ∧
    (tDev.errs = [] ∧ ∀ f o c, ¬ DirtyAt tDev 0 0 f o c) ∧
    (let c := { tCLine with dirty := true }
     let d := { tDev with slices := [(0, { freshSlice with sets := [(0, [c])] })] }
     DirtyAt d 0 0 5 127 c ∧ ∀ k, DirtyAt d 0 0 5 127 k → k = c) := by
  refine ⟨by decide +kernel, by decide +kernel, by decide +kernel, by decide +kernel, ⟨rfl, ?_⟩, ⟨0, 0, rfl, by decide, by decide,
    ?_, rfl, rfl, by decide +kernel, by decide +kernel⟩, ?_⟩
  · rintro f o c ⟨sl, i, -, -, -, h, -⟩
    simp [getSet, getSlice, tDev, devOf, Dev.reset, freshSlice, mapGet] at h
  · decide +kernel
  · rintro k ⟨sl, i, -, -, -, h, -⟩
    by_cases hs : 0 = sl
    · by_cases hi : 0 = i
      · subst hs; subst hi; simpa [getSet, getSlice, mapGet] using h
      · simp [getSet, getSlice, mapGet, hs] at h
        omega
    · simp [getSet, getSlice, freshSlice, mapGet, hs] at h

theorem witness_BanksRetireIntoTheSpare :
    (bit (0 : D64) 5 = false ∧ bit (0x31 : D64) 5 = true) ∧
    (16 < bits (0x31 : D64) 0 5 ∧ bits (0x2F : D64) 0 5 = 15 ∧ bits (0x30 : D64) 0 5 = 16) ∧
    ((getSlice tDev 2047).spareFor = 31 ∧ bit (getSlice tDev 2047).retired 16 = false ∧
      bit (getSlice tDev 2047).retired 15 = false ∧ 8 < waysOf (getSlice tDev 2047)) ∧
    (let V : Slice := { freshSlice with spareFor := 3, retired := 8 }
     bit V.retired 16 = false ∧ V.spareFor ≠ 31 ∧ 8 < waysOf V) ∧
    (let V : Slice := { freshSlice with retired := 0x100FF, out := 0xFF }
     bit V.retired 16 = true ∧ bit V.retired 15 = false ∧ waysOf V ≤ 8) := by
  and_intros <;> decide +kernel

theorem witness_PageMapWritesAndShootdowns :
    (8 : BitVec 4) ≠ 4 ∧ (bit (0x4000007FF : D64) 34 = true ∧ bit (regGet tDev aShoot) 63 = false ∧
      tDev.boot.quiesce = false) ∧
    bit (regGet (regDev aShoot 0x8000000000000000) aShoot) 63 = true ∧
    (∀ r, getReq { tDev with reqs := [tDone] } 3 = some r → r.st = .performed) ∧
    (let k : Shoot := { page := 0, all := false, flush := true, waits := [3] }
     { tDev with shoot := some k }.shoot = some k ∧ k.flush = true ∧ k.all = false) := by
  refine ⟨by decide, by decide +kernel, by decide +kernel, ?_, rfl, rfl, rfl⟩
  intro r h; cases h; rfl

/-- A READY device. -/
def readyDev : Dev := regDev aSecBoot 0x8000000000000000
theorem witness_ControllersScrubberPortsAndShares :
    bit (regGet (regDev (aChan 31) 0x8000000000000000) (aChan 31)) 63 = true ∧
    (1 ≤ (4 : BitVec 3).toNat ∧ (4 : BitVec 3).toNat ≤ 4) ∧
    (bit (regGet readyDev aSecBoot) 63 = true ∧ readyDev.scrub.running = false ∧ budgetOk readyDev 2122 = true) ∧
    (let d := { readyDev with scrub := { resetScrub with running := true, cacheDone := false, memDone := false } }
     bit (regGet d aSecBoot) 63 = true ∧ d.scrub.running = true ∧ d.scrub.cachePos + 1 < cacheSteps ∧
      d.scrub.memPos + 1 < 32 * unitsPerChan) ∧
    ((0x10 : BitVec 5).toNat ≤ 16 ∧ (5 : BitVec 3).toNat ≤ 5 ∧ getPort tDev 2047 16 = { idlePort with
      rot := (getPort tDev 2047 16).rot, ended := (getPort tDev 2047 16).ended }) ∧
    (resourceOk 0x17FF0004 = true ∧ resourceOk 0x30000000 = true ∧ (0x30000000 : Nat) ∉ tDev.fencedRes ∧
      noReqHolds tDev 0x30000000 = true ∧
      resourceOk 0x40000000 = false) ∧
    (regField (regDev aWdogCfg 0x100000000) aWdogCfg 32 4 ≠ 0 ∧
      regField (regDev aWdogCfg 0x100000000) aWdogCfg 32 4 ≤ mapGet 0 tDev.expiry 0x30000000 + 1) ∧
    ((0x84B : BitVec 12).toNat ≤ 2123 ∧ (regGet tDev aUsec).toNat % windowUs (budgetOf tDev 2123) = 0) ∧
    (((List.range 8).map fun k => if k = 7 then bits (0 : D64) 32 17 else regField tDev (aMissShare k) 32 17).sum ≤ 65536 ∧
      65536 < ((List.range 8).map fun k => if k = 7 then bits (0x1FFFF00000000 : D64) 32 17
        else regField tDev (aMissShare k) 32 17).sum ∧
      ((List.range 8).map fun k => if k = 0 then bits (0 : D64) 32 9 else regField tDev (aMcqShare k) 32 9).sum ≤ 256) := by
  and_intros <;> decide +kernel

/-- A cluster notice frame of a kind, with its CRC-16. -/
def upFrame (kind : Nat) : D64 := seal16 (BitVec.ofNat 64 (kind * 2 ^ 60 + 4 * 2 ^ 44 + 7 * 2 ^ 29))
def tUp : Notice := { seq := 7, step := 4, queue := 0, item := 0 }
theorem witness_NoticesAddAcknowledgeAndExpire :
    (bits (upFrame 1) 0 16 = crc16 (upFrame 1) ∧ bits (upFrame 1) 60 4 = 1 ∧ bits (upFrame 1) 29 8 = 7) ∧
    (bits (upFrame 2) 0 16 = crc16 (upFrame 2) ∧ bits (upFrame 2) 60 4 = 2) ∧
    (bits (ackFrame 63 7) 0 8 = crc8 (ackFrame 63 7) ∧ bits (ackFrame 63 7) 28 4 = 3 ∧
      bits (ackFrame 63 7) 14 8 = tUp.seq) ∧
    (∃ u ∈ ({ freshCluster with ups := [tUp] } : Cluster).ups, u.seq = (7 : Byte).toNat) ∧
    ({ freshCluster with noAck := 15 } : Cluster).noAck = 15 ∧
    ({ freshCluster with phases := [(7, 4)] } : Cluster).phases ≠ [] := by
  and_intros <;> decide +kernel

/-- The device with cluster 63 in a state. -/
def clDev (st : ClSt) : Dev := { tDev with clusters := [(63, { freshCluster with st := st })] }
theorem witness_ClustersSleepAndWake :
    ((getCluster (clDev .awake) 63).st = .awake ∧ clusterIdle (clDev .awake) 63 = true) ∧
    ((getCluster tDev 0).st = .awake ∧ clusterIdle tDev 0 = false) ∧
    (getCluster tDev 63).st = .off ∧ (getCluster (clDev .sleep) 63).st = .sleep ∧
    ((getCluster (clDev .entering) 63).st = .entering ∧ (getCluster (clDev .entering) 63).wakeReq = false) ∧
    ((getCluster (clDev .waking) 63).st = .waking ∧ (getCluster (clDev .waking) 63).sleepReq = false) ∧
    bit (regGet (regPut (clDev .awake) (aCluster 63) 0x2000000000000000) (aCluster 63)) 61 = true ∧
    (let c : Core := { freshCore with spx := { resetSpx with bstate := 0x40000000 } }
     bankState c.spx 15 = bankRetain ∧ bankState c.spx 0 ≠ bankRetain) := by
  and_intros <;> decide +kernel

/-! ## Witnesses: tasks -/

/-- A launch of one group of 32 threads on logical core 0, with every flag of `flags`. -/
def tLaunch (flags : BitVec 16) : Launch :=
  { module := 7, entry := 8, queue := 0, lflags := flags, regs := 64, ftzExp := 0x82, rsv := true, coreFirst := 0,
    coreCount := 1, threads := 32, banks := 0x8001, resident := 1, keep := 0x8000, owner := 0x40000001, gate := 0xFFFF,
    done := 0xFFFF, gateVal := 0, tag := 9, args := List.replicate 16 3 }
def tPart (st : PartSt) : Part := { index := 0, core := 0, st := st, redisp := 0 }
def tItem (st : PartSt) (flags : BitVec 16) : WorkItem :=
  { item := 0, launch := tLaunch flags, begun := true, parts := [tPart st], session := none, fault := none,
    faulted := 0, redisp := 0, abort := none }
def tQueue (ws : List WorkItem) : Queue :=
  { entries := 16, itemRing := 0x100000, compRing := 0x200000, nextItem := 1, comps := 0, items := ws }
/-- A READY device with core 0 as `c`, module 7 and queue 0 with the items `ws`. -/
def taskDev (c : Core) (ws : List WorkItem) : Dev :=
  { regPut (devOf c) aSecBoot 0x8000000000000000 with
      disp := { resetDisp with modules := [(7, some { addr := 0x1000, len := 64 })], queues := [(0, some (tQueue ws))] } }

/-- With the flags USES_MX, BANK_DECL and CORE_BAR. -/
theorem witness_TasksStartOnFreePositions :
    let w := tItem .waiting 0xFFFF
    let d := taskDev freshCore [w]
    let T := newTask w.launch 0 0 (0x1000 + w.launch.entry.toNat) 0
    getItem d 0 0 = some w ∧ waitingPart w 0 = some (tPart .waiting) ∧ w.begun = true ∧
    mapGet none d.disp.modules w.launch.module.toNat = some { addr := 0x1000, len := 64 } ∧ coreUp d 0 = true ∧
    bit (regGet d aSecBoot) 63 = true ∧ getTask (getCore d 0) false = none ∧ getTask (getCore d 0) true = none ∧
    T.ngroups ≤ roomFor (8 * ceilDiv T.nregs 8) T.ngroups (getCore d 0) ∧ T.usesMx = true ∧
    (newTask (tLaunch 0) 0 0 0 0).usesMx = false ∧ bit T.banks 15 = true ∧ bit T.banks 14 = false := by
  and_intros <;> decide +kernel

theorem witness_GroupsAreAdmittedInOrder :
    let T := { tTask with admitted := 1, ngroups := 2, threads := 40 }
    let c := { tCore with task0 := some T }
    let d := taskDev c []
    getTask (getCore d 0) false = some T ∧ coreUp d 0 = true ∧ bit (regGet d aSecBoot) 63 = true ∧ T.started = true ∧
    T.aborted = false ∧ T.admitted < T.ngroups ∧ getGroup (getCore d 0) 1 = none ∧
    (∀ j, j < 1 → getGroup (getCore d 0) j ≠ none) ∧ rangeFree (getCore d 0) (8 * 8) (8 * ceilDiv T.nregs 8) = true ∧
    (∀ b, b < 8 → rangeFree (getCore d 0) (8 * b) (8 * ceilDiv T.nregs 8) = false) ∧
    32 * T.admitted + 7 < T.threads ∧ T.threads ≤ 32 * T.admitted + 8 := by
  and_intros <;> decide +kernel

theorem witness_TasksReleaseTheirCore :
    (let T := { tTask with banks := 0x8001, keep := 0x8000, fault := some 3 }
     let c := { freshCore with task0 := some T, spx := { resetSpx with bstate := 0x80000002 } }
     let d := taskDev c [tItem .resident 0]
     coreUp d 0 = true ∧ releaseBusy d 0 false = false ∧ leftFaults (getCore d 0) false = [] ∧
      getTask (getCore d 0) false = some T ∧ bit T.banks 15 = true ∧ bit T.keep 15 = true ∧
      bankState (getCore d 0).spx 15 = bankOn ∧ getItem d T.queue T.item = some (tItem .resident 0) ∧
      T.fault = some 3) ∧
    tTask.fault = none := by
  and_intros <;> decide +kernel

/-! ## Witnesses: fabric, Lovage, copy engines, manager -/

/-- Port 7 as `v`, in a device of bring-up step 15 with the ID 131,071. -/
def linkDev (v : FabPort) : Dev :=
  regPut (regPut { tDev with fab := { resetFab with ports := [(7, v)] } } aSecBoot 0x800F000000000000) aFabId 0x800000000001FFFF
def portIn (st : Nat) : FabPort := { downPort with st := st, peer := 5, rxSeq := 9 }
def tMsg (typ : Nat) : Msg :=
  { blankMsg with typ := BitVec.ofNat 4 typ, dst := 0x1FFFF, src := 5, ttl := 2, len := 16, addr := 0, tag := 3, seq := 1,
                  data := List.replicate 16 1 }
def tFlit : Flit :=
  { ftype := 0, epoch := 0, ackValid := false, seq := 9, ack := 0, credLane := 0, cred := 0, nonce := 1, fecUe := false, ues := 0,
    tagOk := true, msgs := [tMsg 0] }
theorem witness_FabricPortsFollowTheirStates :
    (∀ st : Fin 4, (getLink (linkDev (portIn st.val)) 7).st = st.val) ∧ debugOn (linkDev downPort) = false ∧
    4 ≤ bootStep (linkDev downPort) ∧
    (bits (setBits (0 : Byte) 7 1 1) 0 4 = 0 ∧ bits (setBits (8 : Byte) 7 1 1) 0 4 ≠ 0 ∧
      bits (setBits (8 : Byte) 7 1 1) 4 4 ≠ 0) ∧
    (badFlit (portIn 3) tFlit = false ∧ tFlit.ftype = 0 ∧ tFlit.seq.toNat = (portIn 3).rxSeq ∧
      badFlit (portIn 3) { tFlit with tagOk := false } = true ∧ (linkDev downPort).boot.quiesce = false) ∧
    (let v := { portIn 3 with reqSeq := 65535, reqRun := 7 }
     let w := ackUpTo v ((65535 + 2 ^ 16 - 1) % 2 ^ 16)
     w.reqSeq = (65535 : BitVec 16).toNat ∧ 7 ≤ w.reqRun ∧ v.nonce + 1 < 2 ^ 40) ∧
    (let d := { linkDev (portIn 3) with fab := { (linkDev (portIn 3)).fab with routes := [(9, 0xF0000001)] } }
     hasId d = true ∧ ({ tMsg 0 with dst := 9 } : Msg).dst.toNat ≠ devId d ∧ inTurn d 7 { tMsg 0 with dst := 9 } = true ∧
      1 < (tMsg 0).ttl.toNat ∧ routePort d 9 = some 7) := by
  and_intros <;> decide +kernel

/-- `linkDev` with page 0 mapped to an uncached frame. -/
def memLink : Dev :=
  regPut (regPut { linkDev (portIn 3) with pmap := [(0, pteU)] } (aCdcStatus 0) 0x8000000000000000) (aCdcStatus 1)
    0x8000000000000000
/-- ATOMIC ADD of 64 bits at address 8. -/
def tAtomic : Msg := { tMsg 2 with addr := 8, len := 32, data := 2 :: List.replicate 31 0 }
theorem witness_FabricRequestsArePerformedOnce :
    (mayPerform 0 memLink 7 (tMsg 0) = true ∧ dupOf memLink (tMsg 0) = .fresh ∧ (tMsg 0).data.length ≤ 512 ∧
      oneRegion (tMsg 0).addr.toNat (tMsg 0).data.length = true ∧
      (localWrite (takeRx memLink 7 (tMsg 0)) 2119 3 0 (tMsg 0).data).1 = 0) ∧
    dupOf (recordSeq memLink 5 (chanIx (tMsg 0)) 1) (tMsg 0) = .duplicate ∧
    (mayPerform 1 memLink 7 (tMsg 1) = true ∧ dupOf memLink (tMsg 1) ≠ .old ∧ (tMsg 1).len ≠ 0 ∧ (tMsg 1).len.toNat ≤ 512 ∧
      oneRegion (tMsg 1).addr.toNat (tMsg 1).len.toNat = true) ∧
    (mayPerform 2 memLink 7 tAtomic = true ∧ dupOf memLink tAtomic = .fresh ∧ atomOpOf tAtomic.op.toNat = some .add ∧
      (atomTypes .add).contains (fieldAt tAtomic.data 0 1) = true ∧ tAtomic.data.length = 32 ∧
      tAtomic.addr.toNat % atomBytes 2 = 0 ∧ oneRegion tAtomic.addr.toNat (atomBytes 2) = true) ∧
    ((tMsg 3).typ = 3 ∧ forMe memLink (tMsg 3) = true ∧ inTurn memLink 7 (tMsg 3) = true ∧ dupOf memLink (tMsg 3) = .fresh ∧ (tMsg 3).addr.toNat % 64 = 0 ∧
      (let d := regPut memLink aFabRole 0x6000000000000005
       mgrValid d = true ∧ managerId d = (tMsg 3).src.toNat ∧ forMe d (tMsg 3) = true)) ∧
    (∀ k ∈ [8, 9, 10, 4, 5], forMe memLink (tMsg k) = true ∧ inTurn memLink 7 (tMsg k) = true ∧ (tMsg k).typ = BitVec.ofNat 4 k) ∧
    findOut memLink 3 = none ∧
    (let o : Out := { tag := 3, port := 7, use := .notice, msg := tMsg 3 }
     findOut { memLink with fab := { memLink.fab with outs := [o] } } 3 = some o) := by
  and_intros <;> decide +kernel

/-- A Lovage context in a state with the child on port 7, one chunk of four INT32 elements, window 1, timeout 1. -/
def tCtx (st : Nat) : LovCtx :=
  { freeCtx with image := BitVec.ofNat 512 (st * 2 ^ 509 + 2 ^ 416 + 2 ^ (372 + 7) + 2 ^ 368 * 2 + 2 ^ 353 + 4 * 2 ^ 321) }
def tEngine (status off : Nat) (halted : Bool) : Engine :=
  { descs := [{ resp := { origin := .fabric 0 0, port := 0, source := 0, opcode := 0, seq := 0, tag := 0, order := false },
                src := 0, dst := 0, len := 16, cls := 4, off := off, tag := none, status := status }], halted := halted }
/-- A READY manager whose member 6 is not lost. -/
def mgrDev : Dev :=
  regPut { linkDev (portIn 3) with fab := { (linkDev (portIn 3)).fab with
      members := [{ id := 6, lost := false, summary := [] }] } } aFabRole 0xA00000000001FFFF
def tFan : Fan :=
  { id := 2, resp := { origin := .fabric 0 0, port := 0, source := 0, opcode := 0, seq := 0, tag := 0, order := false },
    waiting := [{ member := 6, self := false, devices := 1 }], okCount := 0, fail := none, noAnswer := 0 }
theorem witness_LovageEnginesAndMembersAct :
    (∀ st : Fin 5, lcState (tCtx st.val) = st.val) ∧
    (lcType (tCtx 0) < 3 ∧ lcOp (tCtx 0) < 3 ∧ lcWindow (tCtx 0) = 1 ∧ lcSrc (tCtx 0) % 128 = 0 ∧
      lcDst (tCtx 0) % 128 = 0 ∧ storeUsed tDev + lcWindow (tCtx 0) * ((lcChildren (tCtx 0)).length + 1) * 512 ≤ 2 ^ 24) ∧
    lcWindow freeCtx = 0 ∧ (isBarrier (tCtx 1) = false ∧ lcTimeout (tCtx 2) ≠ 0) ∧
    (let x := { tCtx 2 with chunks := [(0, { emptyChunk with kids := [(7, [1, 2, 3, 4])] })] }
     chunkReady x 0 = true ∧ lcLocal x = false ∧ lcHasParent x = false ∧ lcChildren x = [7] ∧
      lovFold x [[1, 2, 3, 4]] = some [1, 2, 3, 4]) ∧
    (let x := { tCtx 1 with armed := true }
     x.armed = true ∧ x.auto = false ∧ signalReached tDev x.startSig x.startVal = true ∧ isBarrier x = false) ∧
    ((tEngine 0 16 false).halted = false ∧ (∀ c ∈ (tEngine 0 16 false).descs, c.len ≤ c.off) ∧
      ∀ c ∈ (tEngine 5 0 false).descs, c.status ≠ 0) ∧
    ({ idleEngine with halted := true } : Engine).halted = true ∧
    (mgrValid mgrDev = true ∧ isManager mgrDev = true ∧ isReady mgrDev = true ∧
      (∀ x ∈ mgrDev.fab.members, x.id = (6 : BitVec 17).toNat ∧ x.lost = false)) ∧
    getFan { tDev with fab := { resetFab with fans := [tFan] } } 2 = some tFan := by
  and_intros <;> decide +kernel

/-! ## Witnesses: host interface, work queues, funnel, check units -/

/-- Session 1 on port 0. -/
def tSes : Session :=
  { h2d := 0, d2h := 0, idleS := 60, high := none, seen := 0, txCnt := 0, evSeq := 0, port := 0, source := 3, subs := [],
    streams := [] }
/-- A READY, powered device: module 7, queue 0 with `ws`, session 1 on port 0, whose link is up. -/
def hostDevOf (c : Core) (ws : List WorkItem) : Dev :=
  { regPut (regPut (taskDev c ws) (aCdcStatus 0) 0x8000000000000000) (aCdcStatus 1) 0x8000000000000000 with
      sor := { resetSorrel with rails := true }, pmap := [(0, pteU), (1, pteU), (2, pteU)],
      hpt := { resetHpt with ports := [(0, { idleHost with link := true })], sessions := [(1, some tSes)] } }
def hostDev (ws : List WorkItem) : Dev := hostDevOf tCore ws
def tSci : SciReq :=
  { origin := .host 1 0, seq := 1, tag := 7, target := 0, fence := false, reserved := true, count := 0, targetId := 0,
    body := [] }
def tResp (op : Nat) (o : Bool) : Resp :=
  { origin := .host 1 0, port := 0, source := 3, opcode := op, seq := 1, tag := 7, order := o }
/-- A pending WAIT on signal 5. -/
def tWait (id : Nat) : PendWait := { id := id, resp := tResp 0x22 false, index := 5, value := 1 }
/-- The command of opcode `op` is accepted in `hostDev`. -/
def Taken (ws : List WorkItem) (op : Nat) (o : Bool) : Prop :=
  Accepted (stOf (hostDev ws)) tSci op o (tResp op o) (hostDev ws)

theorem witness_CommandsAreAdmittedAndAnswered :
    (admitReq (hostDev []) tSci 0x20 false).isSome = true ∧ mayBegin (hostDev []) tSci 0x20 false = true ∧
    mayBegin { hostDev [] with disp := { (hostDev []).disp with waits := [tWait 0] } } { tSci with fence := true } 0x20 false = false ∧
    headerStatus (hostDev []) tSci 0x20 (tResp 0x20 false) = none ∧
    headerStatus (hostDev []) { tSci with reserved := false } 0x20 (tResp 0x20 false) = some 3 ∧
    (let d := regPut { hostDev [] with fab := mgrDev.fab } aFabRole 0xA00000000001FFFF
     let q := { tSci with target := 2 }
     headerStatus d q 0x20 (tResp 0x20 false) = none ∧ q.target ≠ 0 ∧ mayBegin d q 0x20 false = true) ∧
    getSession (hostDev []) 1 = some tSes ∧
    tSes.txCnt + (responseFrames (hostDev []) (tResp 0x20 false) 0 0 (selfHeader (hostDev []) 0 ++ [1])).length ≤ lastCount := by
  and_intros <;> decide +kernel

def tFrame : Frame :=
  { fcs := true, mac := true, vlans := [], carried := .raw 0x88B5, header := spaoloHeader 7 1 128 0 1 0x20 0 0 63 1,
    payload := 128, bytes := 256, tagOk := true, source := 3 }
def tHello : Hello := { version := 1, nonce := 0, encaps := 0, keyId := 5, idleS := 3600, source := 3 }
def tShake : Handshake := { id := 4, port := 0, source := 3, keyId := 5, idleS := 60, t1 := 0, sign := [], secret := 0 }
theorem witness_HostPortsAndSessionsAct :
    (let d := hostDev []
     d.boot.quiesce = false ∧ listening d 0 = false ∧ (getHost d 0).link = true ∧ (getHost d 0).rxbuf = [] ∧
      (getHost d 0).xfers.length < 64 ∧ tFrame.bytes ≤ 2 * 2 ^ 20 ∧ askedAddr d 0 tFrame = none ∧
      wireOk d 0 tFrame = true ∧ wireOk d 0 { tFrame with fcs := false } = false ∧ tFrame.version = 1 ∧
      tFrame.reserved = true ∧ tFrame.clear = false ∧ tFrame.mailbox.toNat = 63 ∧ getSession d tFrame.session.toNat = some tSes ∧
      tFrame.length.toNat = tFrame.payload ∧ tFrame.payload ≤ 8192 ∧ 0 ≤ rebuild tSes.high tFrame.alive.toNat ∧
      (rebuild tSes.high tFrame.alive.toNat).toNat ≤ lastCount ∧
      repeated tSes (rebuild tSes.high tFrame.alive.toNat).toNat = false ∧
      tFrame.seq.toNat = (hostStream tSes 63).next ∧ tFrame.opcode.toNat ∈ opcodes ∧ (getHmb d 63).length < 16 ∧
      getSession d 2 = none ∧ repeated { tSes with high := some 5, seen := 1 } 5 = true) ∧
    (listening tDev 0 = true ∧ hpWakeEn tDev 0 = true ∧ hpPfcEn tDev 0 = false) ∧
    ((1 : Byte) ≠ 2 ∧ debugOn (hostDev []) = false ∧ debugOn (regPut (hostDev []) aSecBoot 0xC000000000000000) = true ∧
      tHello.idleS ≠ 0 ∧ tHello.idleS.toNat ≤ 3600 ∧ 3600 < ({ tHello with idleS := 3601 } : Hello).idleS.toNat ∧
      (hostDev []).hpt.shakes.length < 4 ∧ 4 ≤ (List.replicate 4 tShake).length) ∧
    (([tShake].find? fun x => decide (x.id = 4)) = some tShake ∧ tShake.keyId = 5 ∧
      (hostDev []).hpt.sessions.length < 16) ∧
    (tShake ∈ [tShake] ∧ tShake.id = 4) ∧ (∃ x : Session, x.txCnt = lastCount) ∧
    Taken [] 0x01 true ∧ (getHost tDev 0).link = false ∧ listening { hostDev [] with hpt := resetHpt } 0 = false := by
  unfold Taken Accepted; and_intros <;> first | exact ⟨{ tSes with txCnt := lastCount }, rfl⟩ | decide +kernel

/-- A SETTING of session 1 in mailbox `m`, and a device in which two of them wait, that of mailbox 1 first. -/
def tSetting (m : Nat) : Frame := { tFrame with header := spaoloHeader 7 1 128 0 1 0x04 0 0 (BitVec.ofNat 6 m) 1 }
def twoHeads : Dev :=
  { hostDev [] with hpt := { (hostDev []).hpt with boxes := [(0, [(0, tSetting 0)]), (1, [(0, tSetting 1)])],
                                                   heads := [(1, 1), (1, 0)] } }

theorem witness_CommandsAreAdmittedAndAnswered_order :
    (tSci.origin = .host 1 0 ∧ twoHeads.hpt.heads = [(1, 1), (1, 0)] ∧ serialHead twoHeads (1, 1) = true ∧
      mayBegin twoHeads tSci 0x04 true = false ∧ mayBegin twoHeads { tSci with origin := .host 1 1 } 0x04 true = true) ∧
    (let d := { hostDev [] with disp := { (hostDev []).disp with waits := [{ tWait 0 with resp := tResp 0x04 true }] } }
     ∃ r ∈ outstanding d, r.order = true) ∧
    (takeFrame (acceptFrame twoHeads 0 { tSetting 2 with header := spaoloHeader 7 1 128 0 1 0x04 0 0 2 1 }) 1
      (0, tSetting 1)).hpt.heads = [(1, 0), (1, 2)] := by
  refine ⟨by decide +kernel, ⟨tResp 0x04 true, by decide +kernel, rfl⟩, by decide +kernel⟩

theorem witness_WorkQueuesLaunchAndComplete :
    Taken [] 0x1A true ∧ Taken [] 0x20 false ∧ Taken [] 0x21 false ∧ Taken [] 0x22 false ∧
    ((16 : Word).toNat = 2 ^ 4 ∧ (0x100000 : D64).toNat % 128 = 0 ∧
      overlap 0x110000 (16 * 128) 0x210000 (16 * 32) = false ∧ overlap 0x110000 2048 0x110400 512 = true ∧
      (∀ x ∈ ringsOf (tQueue []), overlap 0x110000 (16 * 128) x.1 x.2 = false ∧
        overlap 0x210000 (16 * 32) x.1 x.2 = false) ∧ (getQueue (hostDev []) 0).isSome = true ∧
      getQueue (hostDev []) 4095 = none ∧ inDevice 0x110000 (16 * 128) = true ∧ inDevice 0x210000 (16 * 32) = true ∧
      inDevice (2 ^ 39) 2048 = false ∧
      (checkPages (hostDev []) (pagesOf 0x110000 (16 * 128) ++ pagesOf 0x210000 (16 * 32))).1 = 0) ∧
    (getQueue (hostDev [tItem .ended 0]) 0 = some (tQueue [tItem .ended 0]) ∧ (tQueue []).items = []) ∧
    (mapGet none (hostDev []).disp.modules 7 = some { addr := 0x1000, len := 64 } ∧
      mapGet none (hostDev []).disp.modules 8 = none ∧ (tQueue []).items.length < (tQueue []).entries ∧
      (tQueue (List.replicate 16 (tItem .ended 0))).entries ≤ (tQueue (List.replicate 16 (tItem .ended 0))).items.length ∧
      (writeDev (hostDev []) 7 ((tQueue []).itemRing + 128 * ((tQueue []).nextItem % 16)) (launchBytes (tLaunch 0))).1 = 0) ∧
    ((0xFFFE : BitVec 16).toNat ≠ 0xFFFF ∧ (0 : D64).toNat ≤ (getSignal (hostDev []) 5).toNat ∧
      (getSignal (hostDev []) 5).toNat < (1 : D64).toNat ∧ (hostDev []).disp.waits.length < 4096) ∧
    (([tWait 2].find? fun x => decide (x.id = 2)) = some (tWait 2)) ∧
    (let w := { tItem .waiting 0 with begun := false, parts := [] }
     let d := hostDev [w]
     isReady d = true ∧ nextQueue d = some 0 ∧ (tQueue [w]).items = [] ++ w :: [] ∧ w.begun = false ∧
      w.launch.gate.toNat = 0xFFFF ∧ lfAllCores w.launch = false ∧
      ((enabledCores d).drop 0).take 1 = [0]) ∧
    (let w := tItem .ended 0
     isReady (hostDev [w]) = true ∧ getItem (hostDev [w]) 0 0 = some w ∧ w.begun = true ∧ ∀ p ∈ w.parts, p.st = .ended) := by
  unfold Taken Accepted; and_intros <;> decide +kernel

/-- The launch descriptor of these tests is in order with BANK_DECL and without. -/
theorem witness_GoodLaunch : GoodLaunch (hostDev []) { tLaunch 0x20 with banks := 0xFFFF } { addr := 0x1000, len := 64 } ∨
    GoodLaunch (hostDev []) { tLaunch 0 with banks := 0, resident := 0, keep := 0, owner := 0 } { addr := 0x1000, len := 64 } := by
  right; unfold GoodLaunch; and_intros <;> decide +kernel

def tRec : ErrRec := mkRec (src 8 1) 5 2 2 0 0 0 0
/-- Slot 0 of core 0 after a fault. -/
def gHeld : Group := { endGroupThreads tGroup with hold := some .record }
def heldRec : ErrRec := faultRecord 0 0 0x10 0 0 1 false (some tTask)
theorem witness_RecordsReachTheFunnelAndFlash :
    ({ tDev with funnel := { tDev.funnel with srcq := [(0, [tRec])] } }.funnel.srcq = [(0, [tRec])] ∧
      regField tDev aErrCfg 52 2 ≤ recSeverity (mkRec (src 8 1) 5 2 3 0 0 0 0) ∧
      recSeverity (mkRec (src 8 1) 5 2 0 0 0 0 0) < regField tDev aErrCfg 56 2) ∧
    (let d := { devOf { tCore with groups := [(0, some gHeld)] } with funnel := { resetFunnel with srcq := [(0, [heldRec])] } }
     d.funnel.srcq = [(0, [heldRec])] ∧ heldRec.cls = 1 ∧ heldRec.source.toNat = 0 ∧
      getGroup (getCore d 0) (bits heldRec.loc2 27 5) = some gHeld ∧ gHeld.hold = some .record ∧
      (∀ i, i < 32 → (laneOf gHeld i).st = .exited)) ∧
    ({ tDev.funnel with flashq := [tRec] }.flashq = [tRec] ∧ tDev.flash.log.length ≤ 512) ∧
    bit (regGet (regDev aErrInject 0x4000000000000000) aErrInject) 62 = true ∧
    (bit (regGet tDev aErrInject) 62 = false ∧ bit (0x8000000000000000 : D64) 63 = true ∧
      bits (0x8600000000000000 : D64) 56 4 = 6 ∧ 7 ≤ bits (0x8700000000000000 : D64) 56 4 ∧
      bits (0x8400002000000000 : D64) 56 4 = 4 ∧ bits (0x840000200000000 : D64) 32 11 ≤ 31 ∧
      31 < bits (0x8400002000000000 : D64) 32 11) := by
  and_intros <;> decide +kernel

/-- Core 0 as it is being fenced, with a resident task of queue 0. -/
def fenceDev (k : Task) : Dev :=
  hostDevOf { tCore with fencing := true, task0 := some k } [tItem .resident 0]
/-- Check unit 31 with a CTRL word; the stream is the frames of host port 0 with the header's ALIVE. -/
def cvuDev (c : D64) : Dev := regPut tDev (cvCtrl 31) c
def tBlock : CvuBlock :=
  { attach := 4, index := 1, typ := 0, peer := 0, session := 1, mailbox := 63, counter := 65535, data := [1, 2, 3] }
theorem witness_CoresAreFencedAndCheckUnitsCount :
    (coreFenced (regDev (aCoreFence 31) 0x8000000000000000) 2047 = true ∧ coreFenced tDev 2047 = false ∧
      (getCore tDev 0).fencing = false) ∧
    (let d := fenceDev { tTask with idem := true }
     (getCore d 0).fencing = true ∧ d.reqs = [] ∧ tReq.st ∉ [.crossing, .moving, .missed] ∧ d.disp.queues = [(0, some (tQueue [tItem .resident 0]))] ∧
      getTask (getCore d 0) false = some { tTask with idem := true } ∧ getTask (getCore d 0) true = none ∧
      coreFenced d 1 = false ∧ (∀ b, b < 1 → b ≠ 0 → coreFenced d b = true)) ∧
    ((getTask (getCore (fenceDev tTask) 0) false) = some tTask ∧ tTask.idem = false) ∧
    (cvStopped (cvuDev 0) 31 = false ∧ cvFields 0x0100000000000000 ≠ cvFields (regGet (cvuDev 0) (cvCtrl 31))) ∧
    (cvStopped (cvuDev 0x4000000000000000) 31 = true ∧ cvFilterOk (cvuDev 0x4000000000000000) 31 0x8000000000000000 = true ∧
      cvFilterOk (cvuDev 0) 31 0x8400001000000000 = false) ∧
    (getCvu { tDev with cvus := [(31, { freshCvu with pausing := true })] } 31).pausing = true ∧
    (let c : D64 := 0x8404001000000000
     let d := cvuDev c
     regGet d (cvCtrl 31) = c ∧ cvStopped d 31 = false ∧ bits c 56 4 = tBlock.attach.toNat ∧
      bits c 50 6 = tBlock.index.toNat ∧ cvPasses d 31 tBlock = true ∧ cvCounter c tBlock = some (65535, 16) ∧
      cvCounter 0x8404000000000000 tBlock = none) := by
  and_intros <;> decide +kernel

/-! ## Witnesses: Sorrel, power, bring-up, resets -/

/-- A device whose Sorrel runs and is as `f` makes it, core 0's cluster AWAKE. -/
def sorDev (f : Sorrel → Sorrel) : Dev := { tDev with sor := f { resetSorrel with running := true, rails := true, p54Ok := true } }
/-- The same with one sensor. -/
def sensDev (x : Sensor) : Dev := sorDev fun s => { s with sensors := [(2223, x)] }
/-- Rule 63 with words `lo` and `hi` and its element 0 due. -/
def ruleDev (hi : D64) (fired : Bool) (f : Sorrel → Sorrel) : Dev :=
  regPut (sorDev fun s => f { s with els := [(64 * 63, { freshEl with due := true, fired := fired })] }) (aRuleHi 63) hi
def tSample : Sample :=
  { temps := [(2223, .openDiode), (5, .value 700), (6, .shortDiode)], coolant := 400, p54Mv := 54000, p12Mv := 12000, p54Ma := 9, optical := [] }

theorem witness_SorrelRulesAndProtectionsAct :
    ((sorDev id).sor.running = true ∧ nothingDue (sorDev id) = true ∧
      readingFor tSample (getSensor (sorDev id) 2223) 2223 = .openDiode ∧
      readingFor tSample (getSensor (sorDev id) 6) 6 = .shortDiode ∧
      readingFor tSample (getSensor (sorDev id) 5) 5 = .value 700 ∧ isMasked (sorDev id) 2223 = false ∧
      (getSensor (sorDev id) 2223).kind = 0 ∧ (getSensor (sorDev id) 2223).found = 0) ∧
    (let d := ruleDev 0x100700000000 false id
     ruAction (ruleHi d 63) = 1 ∧ ruArg (ruleHi d 63) = 7 ∧ (getEl d 63 0).due = true ∧ (getEl d 63 0).fired = false ∧
      (∀ j, j < 64 → ∀ c, c < 64 → ruleHolds d j c = false) ∧ bits (ruleHi d 63) 42 2 = 0) ∧
    (let d := { ruleDev 0x203F00000000 false id with clusters := [(63, { freshCluster with st := .sleep })] }
     ruAction (ruleHi d 63) = 2 ∧ ruArg (ruleHi d 63) = 63 ∧ (getCluster d 63).st = .sleep) ∧
    (let d := ruleDev 0x300000000000 false id
     ruAction (ruleHi d 63) = 3 ∧ ruArg (ruleHi d 63) = 0 ∧ wakeDue d = false ∧ d.sor.down = false) ∧
    ruArg (ruleHi (ruleDev 0x300100000000 false id) 63) = 1 ∧
    (let d := ruleDev 0x300000000000 true id
     (getEl d 63 0).due = true ∧ (getEl d 63 0).fired = true) ∧
    (sorDev fun s => { s with orderly := true }).sor.orderly = true := by
  and_intros <;> decide +kernel

theorem witness_SorrelRulesAndProtectionsAct_sensors :
    ((getSensor (sensDev { freshSensor with limit := true, limCnt := 100 }) 2223).limit = true ∧
      100 ≤ (getSensor (sensDev { freshSensor with limit := true, limCnt := 100 }) 2223).limCnt) ∧
    ((getSensor (sensDev { freshSensor with rate := true, rateCnt := 100 }) 2223).rate = true ∧
      100 ≤ (getSensor (sensDev { freshSensor with rate := true, rateCnt := 100 }) 2223).rateCnt) ∧
    (3 ≤ (getSensor (sensDev { freshSensor with trip := 3 }) 2223).trip ∧
      (getSensor (sensDev { freshSensor with trip := 3 }) 2223).kind = 0 ∧
      (sorDev fun s => { s with down := true }).sor.down = true) ∧
    ((getSensor (sensDev { freshSensor with found := 6 }) 2223).found = (6 : BitVec 3).toNat ∧ (6 : BitVec 3) ≠ 0) ∧
    (bits (2223 : D64) 0 12 = 2223 ∧ bit (0x1000 : D64) 12 = true) ∧
    ((getSensor (sorDev id) 2176).kind = 0 ∧ (getSensor (sorDev id) 2176).found = 0) ∧
    (bit (regGet (regDev aEnv 0x8000000000000000) aEnv) 63 = true ∧ bits (0x3000000000000 : D64) 48 2 = 3 ∧
      bit (regGet tDev aEnv) 63 = false ∧ bits (0x2000000000000 : D64) 48 2 = 2 ∧
      regField (regDev aEnv 0x8002000000000000) aEnv 48 2 ≠ 3) := by
  and_intros <;> decide +kernel

theorem witness_PowerClocksAndDroopAct :
    ((41999 : BitVec 16).toNat < 42000 ∧ 60000 < (60001 : BitVec 16).toNat ∧ (sorDev id).sor.rails = true ∧
      (sorDev fun s => { s with rails := false }).sor.running = true) ∧
    (let d := sorDev fun s => { s with p54Ok := false, stopped := true }
     d.sor.running = true ∧ d.sor.p54Ok = false ∧ d.sor.stopped = true ∧ d.sor.down = false ∧
      (sorDev fun s => { s with p54Ok := false }).sor.stopped = false) ∧
    ((71 : BitVec 7).toNat < 72 ∧ bit (regGet (sorDev id) (aRail 71)) 62 = false) ∧
    (bit (regGet (sorDev id) aClkStatus) 63 = false ∧
      bit (regGet (regPut (sorDev id) aClkStatus 0x4000000000000000) aClkStatus) 62 = true) ∧
    (let d := { tDev with boot := { resetBoot with waitRef := true } }
     let d := regSet d aSecBoot 48 4 1
     d.boot.waitRef = true ∧ bootStep d = 1) ∧
    (let d := railSet (sorDev id) 71 1800
     comparatorOn d 71 = true ∧ 1715 + warnMv d < droopBase d 71 ∧ droopBase d 71 ≤ 1715 + resetMv d) ∧
    (let d := railSet (sorDev id) 0 800
     comparatorOn d 0 = true ∧ 715 + warnMv d < droopBase d 0 ∧ droopBase d 0 ≤ 715 + resetMv d ∧
      (getCluster d 0).droop = none ∧ runningResets d = [] ∧ d.boot.queued = []) ∧
    (let d := { sorDev id with clusters := [(63, { freshCluster with droop := some 700 })] }
     (getCluster d 63).droop = some 700 ∧ regField d aDroopCfg 16 16 ≤ (0xFFFFFFFF : Word).toNat) ∧
    (69 : BitVec 7).toNat = 69 := by
  and_intros <;> decide +kernel

/-- Bring-up in step `n`, Sorrel running and the rails on, boot as given. -/
def stepDev (n : Nat) (b : Boot) : Dev := { regSet (sorDev id) aSecBoot 48 4 n with boot := b }
def tImage : ImageInfo :=
  { magic := 0x50554B57, component := 0, rollback := 64, version := 7, bodyLen := 33546240, reserved := true,
    digestOk := true, sigOk := true, readBack := true }
def chansUp (d : Dev) (v : D64) : Dev := (List.range 32).foldl (fun d c => regPut d (aChan c) v) d
/-- Step 8 with every condition of READY met. -/
def readyAt (b : Boot) : Dev :=
  let d := regPut (chansUp (stepDev 8 b) 0x8000000000000000) aPgmMode 0x80
  regPut (regPut d (aCdcStatus 0) 0x8000000000000000) (aCdcStatus 1) 0x8000000000000000
def verifiedBoot : Boot := { resetBoot with verified := true }

theorem witness_BringUpRunsItsSteps :
    tDev.sor.running = false ∧
    (let d := regSet (sorDev id) aSecBoot 48 4 1
     d.sor.running = true ∧ d.sor.p54Ok = true ∧ d.sor.down = false ∧ bootStep d = 1 ∧ d.boot.waitRef = false) ∧
    (let d := stepDev 1 { resetBoot with waitRef := true }
     d.boot.waitRef = true ∧ bootStep d = 1 ∧ d.sor.p54Ok = true) ∧
    (let d := stepDev 2 resetBoot
     bootStep d = 2 ∧ d.sor.rails = true ∧ regField d aSecBoot 40 8 = 0 ∧ commitMain d = 0 ∧
      (fwSlot d 0 0).whole = true ∧ d.fuses.rollback ≤ (fwSlot d 0 0).rollback ∧ bit (1 : BitVec 4) 0 = true ∧
      bit (0 : BitVec 4) 0 = false) ∧
    (let d := putFwSlot (stepDev 2 resetBoot) 0 1 { whole := true, part := false, rollback := 0, version := 3 }
     commitMain d = 0 ∧ (fwSlot d 0 1).whole = true ∧ bit (2 : BitVec 4) 1 = true ∧ bit (2 : BitVec 4) 0 = false ∧
      (mapGet [] d.funnel.srcq (src 8 0).toNat).length < 4) ∧
    (let d := regSet (stepDev 2 resetBoot) aSecBoot 40 8 1
     bootStep d = 2 ∧ regField d aSecBoot 40 8 = 1 ∧ imageVerified tImage = true ∧ d.fuses.rollback ≤ 64 ∧
      imageVerified { tImage with sigOk := false } = false) ∧
    (let d := stepDev 3 resetBoot
     bootStep d = 3 ∧ d.flash.envelope < 3 ∧ (∀ e ∈ d.flash.ports, aHptCfg 0 ≤ e.1 ∧ e.1 < aHptCfg 2) ∧
      (stepDev 3 { resetBoot with base := true }).boot.base = true) := by
  and_intros <;> decide +kernel

theorem witness_BringUpRunsItsSteps_last :
    (bootStep (stepDev 4 { resetBoot with base := true }) = 4 ∧ (let d := stepDev 4 resetBoot
     bootStep d = 4 ∧ d.boot.base = false ∧ initDone d = false ∧ ∀ c, c < 32 → bit (regGet d (aChan c)) 63 = false)) ∧
    (let d := chansUp (stepDev 4 resetBoot) 0x8000000000000000
     bootStep d = 4 ∧ initDone d = false ∧ ∀ c, c < 32 → bit (regGet d (aChan c)) 63 = true) ∧
    bootStep (stepDev 5 resetBoot) = 5 ∧
    (let d := regPut { hostDev [] with sor := resetSorrel } (aCdcStatus 1) 0
     let d := regSet (regSet d aSecBoot 63 1 1) aSecBoot 48 4 8
     bootStep d ≠ 5 ∧ isReady d = true ∧ halfReady d 1 = false ∧ halfReady d 0 = true) ∧
    bootStep (stepDev 6 resetBoot) = 6 ∧ bootStep (stepDev 7 resetBoot) = 7 ∧
    (∃ n ∈ coresOf 0, coreFenced (stepDev 7 resetBoot) n = false) ∧
    (let d := readyAt verifiedBoot
     bootStep d = 8 ∧ isReady d = false ∧ regField d aSecBoot 40 8 = 0 ∧ d.boot.verified = true ∧
      (∀ c, c < 32 → bit (regGet d (aChan c)) 62 = false) ∧ initDone d = true ∧ halfReady d 0 = true ∧
      halfReady d 1 = true ∧ d.boot.selfFail = false ∧ (∃ n, n < 2048 ∧ coreFenced d n = false)) := by
  and_intros
  all_goals first
    | decide +kernel
    | exact ⟨0, by decide +kernel, by decide +kernel⟩

theorem witness_BringUpRunsItsSteps_reasons :
    readyReason (readyAt resetBoot) = 1 ∧
    readyReason (regPut (readyAt verifiedBoot) (aChan 31) 0x4000000000000000) = 2 ∧
    readyReason (regPut (readyAt verifiedBoot) aPgmMode 0) = 3 ∧
    readyReason (regPut (readyAt verifiedBoot) (aCdcStatus 1) 0) = 4 ∧
    readyReason (readyAt { verifiedBoot with selfFail := true }) = 5 ∧
    readyReason ((List.range 64).foldl (fun d c => regPut d (aCoreFence (c / 2)) 0xFFFFFFFFFFFFFFFF) (readyAt verifiedBoot)) = 6 ∧
    (readyAt { verifiedBoot with base := true }).boot.base = true := by
  and_intros <;> decide +kernel

/-- A reset of `kind` on `index` with trigger `g` is the first that waits. -/
def turnDev (n kind index g : Nat) : Dev := stepDev n { resetBoot with queued := [(kind, index, g)] }
theorem witness_ResetsClearTheirScope :
    ((3 : BitVec 4).toNat = 3 ∧ (8 : BitVec 4).toNat = 8 ∧ (9 : BitVec 4).toNat ∈ [0, 1, 2, 4, 5, 9] ∧
      (sorDev id).sor.running = true ∧ (10 : BitVec 4).toNat ∈ [0, 3, 6, 7, 10] ∧ (sorDev id).sor.rails = true) ∧
    (let d := turnDev 8 3 0 15
     d.boot.queued = (3, 0, (15 : BitVec 4).toNat) :: [] ∧ runningResets d = [] ∧ isReady d = false ∧
      isReady (regSet d aSecBoot 63 1 1) = true) ∧
    ({ resetBoot with quiesce := true } : Boot).quiesce = true ∧
    (let d := turnDev 8 4 1 0
     d.boot.queued = (4, (1 : BitVec 1).toNat, (0 : BitVec 4).toNat) :: [] ∧ runningResets d = []) ∧
    (let d := turnDev 8 5 63 3
     d.boot.queued = (5, (63 : BitVec 6).toNat, (3 : BitVec 4).toNat) :: [] ∧ runningResets d = [] ∧ 7 ≤ bootStep d ∧
      bootStep (turnDev 6 5 63 3) < 7 ∧ coreFenced d 2047 = false) ∧
    ((getCluster (turnDev 8 5 0 3) 0).st ≠ .off ∧ 0 ∈ coresOf 0) ∧
    (let d := turnDev 8 6 2047 0
     d.boot.queued = (6, (2047 : BitVec 11).toNat, (0 : BitVec 4).toNat) :: [] ∧ runningResets d = [] ∧
      coreFenced d 2047 = false ∧ bootStep (turnDev 6 6 2047 0) < 7) := by
  and_intros <;> decide +kernel

/-! ## Witnesses: commands of the host, registers, the whole block -/

theorem witness_QueriesPagesAndDataCommandsAnswer :
    Taken [] 0x02 false ∧ Taken [] 0x03 false ∧ Taken [] 0x08 true ∧ Taken [] 0x09 true ∧ Taken [] 0x0A false ∧
    Taken [] 0x0B false ∧ Taken [] 0x0C true ∧ Taken [] 0x10 false ∧ Taken [] 0x11 false ∧ Taken [] 0x12 false ∧
    (mayShoot (hostDev []) ((List.range 4).map (5 + ·)) = true ∧ budgetOk (hostDev []) 2123 = true ∧
      portHeld (hostDev []) tSci 0x10 = false ∧ portHeld (hostDev []) tSci 0x11 = false ∧ tSes.txCnt < lastCount) ∧
    (tSci.origin = .host (1 : BitVec 16) 0 ∧ getSession (hostDev []) 1 = some tSes ∧ tSes.subs.length < 4 ∧
      4 ≤ ({ tSes with subs := [1, 2, 3, 60000] } : Session).subs.length ∧
      (0 : Nat) < ({ tSes with subs := [60000] } : Session).subs.length ∧
      (∃ m f, Origin.fabric 2 3 = .fabric m f)) ∧
    (let d := hostDev []
     524288 < (524287 : Word).toNat + (2 : Word).toNat ∧ (524287 : Word).toNat + (1 : Word).toNat ≤ 524288 ∧
      ((0x8000000000 : D64) &&& ~~~0x1FFFF80000000000 ≠ 0) ∧ ((0x1FFFF80000000000 : D64) &&& ~~~0x1FFFF80000000000 = 0) ∧
      frameCount d ≤ (393215 : Word).toNat + (2 : Word).toNat - 1 ∧
      (393215 : Word).toNat + (1 : Word).toNat ≤ frameCount d ∧ pteMaps d (pmapEntry d (2 + 0)) = true ∧
      pteMaps d (pmapEntry d (524287 + 0)) = false ∧ 393215 ∉ usedFrames d ∧ 393215 ∉ d.flash.frames ∧
      393215 ∈ { d with flash := { d.flash with frames := [393215] } }.flash.frames) := by
  unfold Taken Accepted
  and_intros
  all_goals first
    | exact ⟨_, _, rfl⟩
    | decide +kernel

theorem witness_QueriesPagesAndDataCommandsAnswer_ranges :
    (let d := hostDev []
     inDevice (2 ^ 39) 1 = false ∧ inDevice 0x100000 256 = true ∧ (pinRange d 0x100000 256).1.status = 0 ∧
      (pinRange d 0x300000 1).1.status ≠ 0) ∧
    (let d := hostDev []
     524288 ≤ (524288 : Word).toNat ∧ (2 : Word).toNat < 524288 ∧ markOf d 0x0C 0 2 = none ∧
      pteMaps d (pmapEntry d 2) = true ∧ pteMaps d (pmapEntry d 524287) = false ∧ d.flash.frames.length < 1024 ∧
      pteFrame (pmapEntry d 2) ∈ ({ d.flash with frames := [5] } : Flash).frames) ∧
    (2048 ≤ (2048 : BitVec 16).toNat ∧ 16 < (17 : Byte).toNat ∧ (2047 : BitVec 16).toNat < 2048 ∧
      (retireBank (hostDev []) 2047 15).1 = true ∧
      (retireBank (hostDev []) 2047 16).1 = (retireBank (hostDev []) 2047 16).1) ∧
    (let d := hostDev []
     rangeOpen (2 ^ 46) 1 = false ∧ rangeOpen 0xFFFFF 2 = true ∧ oneRegion 0xFFFFF 2 = false ∧
      oneRegion 0xFFFFF 1 = true ∧ maxPay d 0 < (8177 : Word).toNat + 16 ∧ (8176 : Word).toNat + 16 ≤ maxPay d 0 ∧
      (localWrite d 2120 4 0 [1, 2]).1 = 0 ∧ (localRead d 2120 4 0 2).1.1 = 0) ∧
    (let d := hostDev []
     (63 : Byte).toNat ≤ 63 ∧ (7 : Byte).toNat ≤ 7 ∧ 63 < (64 : Byte).toNat ∧ (64 : Byte) ≠ 0xFF ∧ (8 : Byte) ≠ 0xFF ∧
      (getEngine d 63).descs.length < 64 ∧
      (let c := { resp := tResp 0x12 false, src := 0, dst := 0, len := 0, cls := 4, off := 0, tag := none, status := 0 }
       let e : Engine := { descs := List.replicate 64 c, halted := false }
       let D := { d with disp := { d.disp with engines := (List.range 64).map fun i => (i, e) } }
       ∀ i, i < 64 → 64 ≤ (getEngine D i).descs.length)) := by
  and_intros <;> decide +kernel

/-- `hostDev` with the image of `ffxImage` at address 0. -/
def imageDev : Dev := { hostDev [] with mem := ffxImage }
/-- `hostDev` whose Lovage context 1023 is `x`. -/
def treeDev (x : LovCtx) : Dev := { hostDev [] with lov := [(1023, x)] }
theorem witness_ModulesTreesAndAdministrationAct :
    Taken [] 0x18 true ∧ Taken [] 0x19 true ∧ Taken [] 0x28 false ∧ Taken [] 0x30 true ∧ Taken [] 0x04 true ∧
    Taken [] 0x31 true ∧ Taken [] 0x32 true ∧ Taken [] 0x33 true ∧
    ((0x100008 : D64).toNat % 8 = 0 ∧ inDevice 0x100008 64 = true ∧ (hostDev []).disp.modules.length < 1024 ∧
      (pinRange (hostDev []) 0x100008 64).1.status = 0 ∧ (pinRange (hostDev []) 0x100008 64).2.disp.modules = (hostDev []).disp.modules ∧
      mapGet none (hostDev []).disp.modules 7 ≠ none ∧ moduleBusy (hostDev []) 7 = false ∧
      moduleBusy (hostDev [tItem .ended 0]) 7 = true ∧ mapGet none (hostDev []).disp.modules 0xFFFFFFFF = none) ∧
    ((checkImage (hostDev []) 64).1.1 ≠ 0 ∧ (pinRange imageDev 0 128).1.status = 0 ∧ (pinRange imageDev 0x300000 128).1.status ≠ 0) ∧
    (1024 ≤ (1024 : BitVec 16).toNat ∧ 1 < (2 : Byte).toNat ∧ lcState (getCtx (treeDev (tCtx 1)) 1023) ≠ lcFree ∧
      lcState (getCtx (hostDev []) 1023) = lcFree ∧ lcLive (getCtx (treeDev (tCtx 1)) 1023) = true ∧
      lcLive (getCtx (hostDev []) 1023) = false ∧ { tCtx 1 with startSig := 0xFFFE }.startSig ≠ 0xFFFF ∧
      { tCtx 1 with startSig := 0xFFFF }.startSig = 0xFFFF ∧ lcState (tCtx 1) = lcOpen ∧ isBarrier (tCtx 1) = false ∧
      lcState (tCtx 2) ≠ lcOpen ∧ lcState (tCtx 2) ≠ lcDone) ∧
    ((let e := ctxOpen (putCtx (hostDev []) 1023 { getCtx (hostDev []) 1023 with
          image := ((getCtx (hostDev []) 1023).image &&& ~~~lcRwMask) ||| ((tCtx 0).image &&& lcRwMask) }) 1023
      e.1 = 0) ∧
      (ctxOpen (hostDev []) 1023).1 ≠ 0) := by
  unfold Taken Accepted; and_intros <;> decide +kernel

/-- An image whose two reads, header and CRC are good passes its checks. -/
theorem checkImage_ok (d : Dev) (a : Nat) (h b : List Byte) (h1 : (readDev d 7 a 64).1 = (0, h))
    (h2 : headerOk h (fieldAt h 8 8) = true)
    (h3 : (readDev (readDev d 7 a 64).2 7 (a + 64) (fieldAt h 0x18 4 + fieldAt h 0x1C 4)).1 = (0, b))
    (h4 : (crc32c (h.take 0x3C ++ [0, 0, 0, 0] ++ b)).toNat = fieldAt h 0x3C 4) :
    (checkImage d a).1 = (0, fieldAt h 8 8, 64 + (fieldAt h 0x18 4 + fieldAt h 0x1C 4)) := by
  unfold checkImage
  rcases e : readDev d 7 a 64 with ⟨⟨s, l⟩, d1⟩
  rw [e] at h1 h3; cases h1
  simp only [h2, Bool.not_true, Bool.false_eq_true, if_false]
  rcases e' : readDev d1 7 (a + 64) (fieldAt h 0x18 4 + fieldAt h 0x1C 4) with ⟨⟨s, l⟩, d2⟩
  rw [e'] at h3; cases h3
  simp only [h4, ne_eq, not_true_eq_false, if_false]

/-- The image at `imageDev`'s address 0 passes its checks. -/
theorem witness_ModulesTreesAndAdministrationAct_image : (checkImage imageDev 0).1 = (0, 9, 128) := by
  rw [checkImage_ok _ 0 (ffxHead ++ [9, 27, 112, 149]) (List.replicate 64 0) (by decide +kernel) (by decide +kernel)
    (by decide +kernel) ?_]
  · decide +kernel
  · have e : (ffxHead ++ [9, 27, 112, 149]).take 0x3C = ffxHead := by decide +kernel
    rw [e, crc_image]; decide +kernel

theorem witness_ModulesTreesAndAdministrationAct_admin :
    ((2047 : BitVec 16).toNat < 2048 ∧ coreFenced (hostDev []) 2047 = false ∧
      coreFenced (regPut (hostDev []) (aCoreFence 31) 0x8000000000000000) 2047 = true) ∧
    (let v : List Byte := 1 :: List.replicate 35 0
     v.length = 36 ∧ bytesNat v ≤ 1 ∧ fieldAt v 0 4 ≤ 1 ∧ 1 < bytesNat ((2 : Byte) :: List.replicate 35 0) ∧
      2 < bytesNat ((3 : Byte) :: List.replicate 35 0) ∧ 1 < fieldAt ((2 : Byte) :: List.replicate 35 0) 0 4 ∧
      bit (regGet (hostDev []) aEnv) 63 = false ∧ tSci.origin = .host 1 0) ∧
    (resetNamed 7 0 = false ∧ resetNamed 6 2048 = false ∧ (63 : BitVec 16).toNat < [1, 2, 64, 2048].getD (5 - 3) 0 ∧
      runningResets (hostDev []) = [] ∧ (hostDev []).boot.queued = []) ∧
    (let d := hostDev []
     let x := readDev d 7 0x100000 8193
     inDevice 0x100000 8193 = true ∧ x.1.1 = 0 ∧ x.2.fuses = d.fuses ∧ x.2.flash = d.flash ∧
      0x2000 + ({ tImage with bodyLen := 1 } : ImageInfo).bodyLen.toNat ≤ 8193 ∧
      imageVerified { tImage with bodyLen := 1 } = true ∧ d.fuses.rollback ≤ tImage.rollback.toNat ∧
      ({ tImage with rollback := 63 } : ImageInfo).rollback.toNat < ({ d.fuses with rollback := 64 } : Fuses).rollback ∧
      d.flash.commit.length = 2 ∧ bits (commitWord d) 32 32 < 2 ^ 32 - 1 ∧ tImage.readBack = true ∧
      ({ tImage with readBack := false } : ImageInfo).readBack = false ∧
      (readDev d 7 0x300000 8193).1.1 ≠ 0) ∧
    (2 < (3 : Byte).toNat ∧ (2 : Byte).toNat ≤ 2 ∧ 2 ^ 17 ≤ (131072 : Word).toNat ∧ (131071 : Word).toNat < 2 ^ 17 ∧
      (131071 : Word).toNat + ([0x80000001] : List Word).length ≤ 131072 ∧ ([0x80000001] : List Word) ≠ []) := by
  and_intros <;> decide +kernel

theorem witness_RegistersAndManagementAct :
    (inDevice (2 ^ 39) 8 = false ∧ inDevice 0x100000 8 = true ∧ budgetOk tDev 2123 = true ∧ [(5 : BitVec 512)].length ≤ 8) ∧
    ((inCcw (ccw 2047 + 0x40) = true ∧ ccwCore (ccw 2047 + 0x40) = 2047 ∧
        coreFenced (regDev (aCoreFence 31) 0x8000000000000000) 2047 = true ∧ coreFenced tDev 2047 = false ∧
        accOf 0x7FFFFFFFFFFF = none ∧ (accOf aErrCfg).isSome = true ∧ inCcw aErrCfg = false ∧
        ownBehaviour aErrCfg = false)) ∧
    (let d := { sorDev id with funnel := { resetFunnel with mgmtq := [tRec] } }
     d.sor.running = true ∧ d.funnel.mgmtq = tRec :: [] ∧ (sorDev id).funnel.mgmtq = []) ∧
    (let d := { sorDev id with flash := { resetFlash with owners := some [5] } }
     (∃ l, d.flash.owners = some l ∧ 5 ∈ l) ∧ (∃ l, d.flash.owners = some l ∧ 6 ∉ l) ∧ (sorDev id).flash.owners = none) ∧
    (let x : Token := { fusedId := 0, scope := 7, nonce := 9, sigOk := true }
     let d := { sorDev id with boot := { resetBoot with nonce := some 9 } }
     d.sor.rails = true ∧ x.fusedId = d.fuses.fusedId ∧ d.boot.nonce = some x.nonce ∧ x.sigOk = true ∧
      (1 : D64) ≠ d.fuses.fusedId ∧ d.boot.nonce ≠ some 8) := by
  and_intros
  all_goals first
    | exact ⟨_, rfl, by decide +kernel⟩
    | decide +kernel

theorem witness_StepRunsFront : ({ stOf tDev with pending := [.powerOnReset 0] } : State).pending = .powerOnReset 0 :: [] := rfl
theorem witness_EveryStepTakesOneCommandFromTheQueue :
    (∃ t, step { stOf tDev with pending := [.standbyPowerLoss, .orderlyPowerDownExpiry] } = .next t ∧
      t.pending = [.orderlyPowerDownExpiry] ∧ ∀ c ∈ t.pending, c.wf = true) ∧
    step { stOf tDev with pending := [.orderlyPowerDownExpiry] } = .refused (.notEnabled "ORDERLY_POWER_DOWN_EXPIRY") ∧
    (stOf tDev).pending = [] ∧ bit (regGet (regDev aClkStatus 0x800000000000000) aClkStatus) 59 = true ∧
    bit (regGet tDev aClkStatus) 59 = false ∧ getGroup (getCore tDev 0) 0 = some tGroup := by
  refine ⟨⟨_, rfl, rfl, ?_⟩, ?_, ?_, ?_, ?_, ?_⟩
  all_goals first
    | (intro c hc; simp only [List.mem_singleton] at hc; subst hc; rfl)
    | rfl
theorem witness_EveryStepKeepsMemoryCanonical :
    Memory.wf imageDev.mem = true ∧ ∃ t, step (stOf imageDev) = .next t := ⟨by decide +kernel, _, rfl⟩

/-! ## Ill-formed terms are refused -/

def tWin : WinAccess := { write := true, off := 0x7FFFF, len := 1, data := [5] }
theorem smoke_window : winOk tWin = true ∧ winOk { tWin with off := 0x7FFFF, len := 2, data := [5, 6] } = false ∧
    winOk { tWin with data := [] } = false ∧ winOk { tWin with len := 0, data := [] } = false ∧
    winOk { tWin with write := false } = false ∧ (Instr.spxWindowAccess 0 { tWin with len := 0 }).wf = false := by decide
theorem smoke_message : msgOk (tMsg 0) = true ∧ msgOk { tMsg 0 with len := 15 } = false ∧ msgOk (tMsg 1) = false ∧
    msgOk { tMsg 0 with len := 513, data := List.replicate 513 0 } = false ∧
    (Instr.putMessage 0 { tMsg 0 with len := 1 }).wf = false ∧
    (Instr.flitReceive 7 { tFlit with msgs := [tMsg 0, tMsg 1] }).wf = false ∧ (Instr.flitReceive 7 tFlit).wf = true := by
  decide +kernel
theorem smoke_frame : frameOk tFrame = true ∧ frameOk { tFrame with bytes := 159 } = false ∧
    (Instr.frameReceive 0 { tFrame with bytes := 0 }).wf = false := by decide +kernel
theorem smoke_sample : sampleOk { tSample with optical := List.replicate 10 0 } = true ∧ sampleOk tSample = false ∧
    sampleOk { tSample with optical := List.replicate 10 0, temps := [(2224, .openDiode)] } = false := by decide +kernel
theorem smoke_numbers : (Instr.pageMapWrite 0 3 0).wf = false ∧ (Instr.bankAccessPerform 0 17 []).wf = false ∧
    (Instr.budgetWindow 2124).wf = false ∧ (Instr.railReport 72 0 0).wf = false ∧ (Instr.senseFault 72).wf = false ∧
    (Instr.thermalLimitRelease 2224).wf = false ∧ (Instr.thermalTrip 2224).wf = false ∧
    (Instr.rateActRelease 2224).wf = false ∧ (Instr.sensorBroken 2224 1).wf = false ∧
    (Instr.droopEpisodeStart 72 0).wf = false ∧ (Instr.resetLevelCrossing 72).wf = false ∧
    (Instr.resetLevelCrossing 71).wf = true ∧
    (Instr.ownerListChange true true 0 (List.replicate 9 0)).wf = false := by decide +kernel
theorem smoke_arrivals :
    (Instr.bankAccessPerform 0 16 [{ delay := 0, who := 6, cls := 0, kind := .line, req := 0 }]).wf = false ∧
    (Instr.launch tSci { tLaunch 0 with args := [] }).wf = false ∧ (Instr.launch tSci (tLaunch 0)).wf = true := by
  decide +kernel

/-! ## Core instructions, one step each; results by hand -/

/-- Slot 0's group with each listed register the same word in all lanes. -/
def gRegs (l : List (Nat × Word)) : Group := { tGroup with x := l.map fun e => (e.1, List.replicate 32 e.2) }
/-- The instruction words `w` at address 0, written out from 03 Tables 3.2 to 3.7, with group `g` in slot 0. -/
def stWord (w : Nat) (g : Group) : State :=
  stOf (devOf { tCore with groups := [(0, some g)], ic := [(0, BitVec.ofNat 1024 w)] })
def stRegs (w : Nat) (l : List (Nat × Word)) : State := stWord w (gRegs l)
def devAfter (o : Host.Outcome State Fault Refusal) : Dev := match o with
  | .next t => t.dev
  | _ => Dev.reset
def groupAfter (o : Host.Outcome State Fault Refusal) : Group := (getGroup (getCore (devAfter o) 0) 0).getD tGroup
/-- Register `r` of lane 31 after a step. -/
def xAfter (o : Host.Outcome State Fault Refusal) (r : Nat) : Word := readX (groupAfter o) r 31
def pcAfter (o : Host.Outcome State Fault Refusal) : BitVec 47 := (laneOf (groupAfter o) 31).pc

theorem test_iadd_wraps : xAfter (exec (.iadd tAt (fR 0 0 3 1 2 0)) (stRegs 0x1000180810000000 [(1, 0xFFFFFFFF), (2, 2)])) 3 = 1 := by decide +kernel
theorem test_iadd_saturates : xAfter (exec (.iadd tAt (fR 64 0x80 1 1 2 0)) (stRegs 0x1000080810004080 [(1, 0x7FFFFFFF), (2, 2)])) 1 = 0x7FFFFFFF := by decide +kernel
theorem test_isub_saturates : xAfter (exec (.isub tAt (fR 0 0x80 3 1 2 0)) (stRegs 0x1100180810000080 [(1, 1), (2, 2)])) 3 = 0 := by decide +kernel
theorem test_isub_pair : (let o := exec (.isub tAt (fR 128 0 4 0 2 0)) (stRegs 0x1100200010008000 [(1, 1), (2, 1)]); (xAfter o 4, xAfter o 5)) = (0xFFFFFFFF, 0) := by decide +kernel
theorem test_imul : xAfter (exec (.imul tAt (fR 0 0 3 1 2 0)) (stRegs 0x1200180810000000 [(1, 0x10001), (2, 0x10001)])) 3 = 0x20001 := by decide +kernel
theorem test_imulhi_signed : xAfter (exec (.imulhi tAt (fR 64 0 3 1 2 0)) (stRegs 0x1300180810004000 [(1, 0xFFFFFFFF), (2, 2)])) 3 = 0xFFFFFFFF := by decide +kernel
theorem test_imulhi_unsigned : xAfter (exec (.imulhi tAt (fR 0 0 3 1 2 0)) (stRegs 0x1300180810000000 [(1, 0xFFFFFFFF), (2, 2)])) 3 = 1 := by decide +kernel
theorem test_imad : xAfter (exec (.imad tAt (fR 0 0 3 1 2 3)) (stRegs 0x1400180810180000 [(1, 3), (2, 5), (3, 7)])) 3 = 22 := by decide +kernel
theorem test_imin_signed : xAfter (exec (.imin tAt (fR 64 0 3 1 2 0)) (stRegs 0x1500180810004000 [(1, 0xFFFFFFFF), (2, 1)])) 3 = 0xFFFFFFFF := by decide +kernel
theorem test_imax_unsigned : xAfter (exec (.imax tAt (fR 0 0 3 1 2 0)) (stRegs 0x1600180810000000 [(1, 0xFFFFFFFF), (2, 1)])) 3 = 0xFFFFFFFF := by decide +kernel
theorem test_iabs : xAfter (exec (.iabs tAt (fR 64 0 3 1 0 0)) (stRegs 0x1700180800004000 [(1, 0x80000000)])) 3 = 0x80000000 := by decide +kernel
theorem test_iabs_saturates : xAfter (exec (.iabs tAt (fR 64 0x80 3 1 0 0)) (stRegs 0x1700180800004080 [(1, 0x80000000)])) 3 = 0x7FFFFFFF := by decide +kernel
theorem test_shl_modulo : xAfter (exec (.shl tAt (fR 0 0 3 1 2 0)) (stRegs 0x1900180810000000 [(1, 1), (2, 33)])) 3 = 2 := by decide +kernel
theorem test_shr_arithmetic : xAfter (exec (.shr tAt (fR 64 0 3 1 2 0)) (stRegs 0x1A00180810004000 [(1, 0x80000000), (2, 31)])) 3 = 0xFFFFFFFF := by decide +kernel
theorem test_popc_clz_brev :
    xAfter (exec (.popc tAt (fR 0 0 3 1 0 0)) (stRegs 0x1D00180800000000 [(1, 0xF0F0F0F1)])) 3 = 17 ∧
    xAfter (exec (.clz tAt (fR 0 0 3 1 0 0)) (stRegs 0x1E00180800000000 [(1, 0x00010000)])) 3 = 15 ∧
    xAfter (exec (.clz tAt (fR 0 0 3 1 0 0)) (stRegs 0x1E00180800000000 [])) 3 = 32 ∧
    xAfter (exec (.brev tAt (fR 0 0 3 1 0 0)) (stRegs 0x1F00180800000000 [(1, 6)])) 3 = 0x60000000 := by decide +kernel
/-- Truth table 0xAC is b where c is 1 and a where c is 0 (03 Table 3.9). -/
theorem test_lmux : xAfter (exec (.lmux tAt (fR 0 0xAC 3 1 2 3)) (stRegs 0x18001808101800AC [(1, 0xFF00FF00), (2, 0xF0F0F0F0), (3, 0xFFFF0000)])) 3 = 0xF0F0FF00 := by decide +kernel
theorem test_movl : (let o := exec (.movl tAt { guard := 0, d := 62, rsv := 0, imm := 0x123456789ABCDEF0 }) (stRegs 0x123456789ABCDEF02501F00000000000 [])
    (xAfter o 62, xAfter o 63, pcAfter o)) = (0x9ABCDEF0, 0x12345678, 16) := by decide +kernel
theorem test_iaddi : xAfter (exec (.iaddi tAt (fI 63 1 0xFFFFFFFF)) (stRegs 0x2301F80FFFFFFFF8 [(1, 5)])) 63 = 4 := by decide +kernel
theorem test_write_to_xz_discards : (groupAfter (exec (.iadd tAt (fR 0 0 255 1 1 0)) (stRegs 0x1007F80808000000 [(1, 5)]))).x = (gRegs [(1, 5)]).x := by decide +kernel
theorem test_shfl_xor : xAfter (exec (.shfl tAt (fR 3 0 3 1 2 0))
    (stWord 0x2600180810000300 { tGroup with x := [(1, List.replicate 30 0 ++ [7, 8]), (2, List.replicate 32 1)] })) 3 = 7 := by decide +kernel
theorem test_fadd : xAfter (exec (.fadd tAt (fR 256 0 3 1 2 0)) (stRegs 0x3000180810010000 [(1, 0x3F800000), (2, 0x40000000)])) 3 = 0x40400000 := by decide +kernel
/-- 1 + 2^-24 ties to even; with 2^-24 + 2^-47 it rounds up. -/
theorem test_fadd_rounds :
    xAfter (exec (.fadd tAt (fR 256 0 3 1 2 0)) (stRegs 0x3000180810010000 [(1, 0x3F800000), (2, 0x33800000)])) 3 = 0x3F800000 ∧
    xAfter (exec (.fadd tAt (fR 256 0 3 1 2 0)) (stRegs 0x3000180810010000 [(1, 0x3F800000), (2, 0x33800001)])) 3 = 0x3F800001 := by decide +kernel
theorem test_fmul_overflows : xAfter (exec (.fmul tAt (fR 256 0 3 1 2 0)) (stRegs 0x3100180810010000 [(1, 0x7F000000), (2, 0xC0000000)])) 3 = 0xFF800000 := by decide +kernel
/-- (1 + 2^-23)^2 - (1 + 2^-22) is 2^-46 exactly: one rounding keeps it. -/
theorem test_ffma_rounds_once : xAfter (exec (.ffma tAt (fR 256 0 3 1 1 2)) (stRegs 0x3200180808110000 [(1, 0x3F800001), (2, 0xBF800002)])) 3 = 0x28800000 := by decide +kernel
theorem test_fmin_zeros_and_nan :
    xAfter (exec (.fmin tAt (fR 256 0 3 1 2 0)) (stRegs 0x3300180810010000 [(1, 0), (2, 0x80000000)])) 3 = 0x80000000 := by decide +kernel
theorem test_f2i_nan_is_zero : xAfter (exec (.f2i tAt (fR 1 0 3 1 0 0)) (stRegs 0x4000180800000100 [(1, 0x7FC00000), (3, 9)])) 3 = 0 := by decide +kernel
theorem test_i2f : xAfter (exec (.i2f tAt (fR 0 0 3 1 0 0)) (stRegs 0x4100180800000000 [(1, 0xFFFFFFFF)])) 3 = 0x4F800000 := by decide +kernel
/-- Bytes 1, 2, 3, -4 with 10, 20, 30, 40 and 5: 10 + 40 + 90 - 160 + 5. -/
theorem test_dot4_i8 : xAfter (exec (.dot4I8 tAt (fR 64 0 3 1 2 3)) (stRegs 0x5000180810184000 [(1, 0xFC030201), (2, 0x281E140A), (3, 5)])) 3 = 0xFFFFFFF1 := by decide +kernel
theorem test_bra_back : pcAfter (exec (.bra tAt { guard := 0, l := 0, off := -3 })
    (stWord (0x600007FFFFFFFFFD * 2 ^ 512) { tGroup with lanes := List.replicate 32 { tLane with pc := 64 } })) = 40 := by decide +kernel
/-- The record that holds the group is accepted, and the slot frees (15 R452). -/
theorem test_record_frees_group :
    getGroup (getCore (devAfter (exec .funnelAccept (stOf { devOf { tCore with groups := [(0, some gHeld)] } with
      funnel := { resetFunnel with srcq := [(0, [heldRec])] } }))) 0) 0 = none := by decide +kernel
/-- Down-channels 0 and 1 are fenced downward: router (4, 0) is 4 rows from where channel 8 lands, 8 columns from channel 2
(10 R295, R299, Table 10.5). -/
theorem test_nearest_down_channel :
    downChannel { tDev with fencedRes := [0x30000000, 0x30000001] } 0 0 = some 8 ∧
    downChannel { tDev with fencedRes := [0x30000000] } 0 0 = some 1 ∧ downChannel tDev 1 2047 = some 127 := by decide +kernel
/-- OP 0xB2 is reserved (06 Table 6.4): whatever command carries the issue, it takes FAULT_ILLEGAL_OPCODE. -/
theorem test_unassigned_op : (let d := devAfter (exec (.nop tAt bare) (stWord 0xB200000000000000 tGroup))
    d.funnel.srcq.map fun e => (e.1, e.2.map fun r => (r.cls, r.code))) = [(0, [(1, 0x03)])] := by decide +kernel
/-- A command for another instruction than the one at the PC cannot occur. -/
theorem test_other_word : (match exec (.nop tAt bare) (stWord 0x6400000000000000 tGroup) with
    | .refused (.notEnabled n) => n
    | _ => "") = "NOP" := by decide +kernel
theorem test_exit_frees_the_slot : getGroup (getCore (devAfter (exec (.exit tAt bare) (stWord 0x6700000000000000 tGroup))) 0) 0 = none := by decide +kernel
theorem test_trap_logs : (let d := devAfter (exec (.trap tAt (fI 0 0 0x1234)) (stWord 0x68000000000091A0 tGroup))
    d.funnel.srcq.map fun e => (e.1, e.2.map fun r => (r.cls, r.code))) = [(0, [(1, 0x10)])] := by decide +kernel

/-! ## Block commands, one step each; results by hand -/

/-- The check value of CRC-32C, and CRCs worked out outside the model. -/
theorem test_crcs : crc32c [0x31, 0x32, 0x33, 0x34, 0x35, 0x36, 0x37, 0x38, 0x39] = 0xE3069283 ∧
    crc16 0x3132333435360000 = 0x2EF4 ∧ crc8 0x01020300 = 0x48 := by decide +kernel
theorem test_page_map_write : regGet (devAfter (exec (.pageMapWrite 1 8 0xC000000000000007) tState)) 0x7B0000000008 = 0 ∧
    pmapEntry (devAfter (exec (.pageMapWrite 1 8 0xC000000000000007) tState)) 1 = 0xC000000000000007 ∧
    pmapEntry (devAfter (exec (.pageMapWrite 1 4 0xC000000000000007) tState)) 1 = 0 := by decide +kernel
/-- Bit 5 of the offset's line and the frame's low bits choose the channel (09 R276): line 33 of frame 3. -/
theorem test_channel : chanOf 3 (33 * 128) = 2 ∧ chanAddr 3 (33 * 128 + 7) = 3 * 32768 + 128 + 7 := by decide
theorem test_cluster_neighbours : edgeAdjacent 0 4 = true ∧ edgeAdjacent 3 4 = false ∧ edgeAdjacent 28 32 = false := by decide
/-- The lower 16 bits of a counter against the highest seen, 65,530 (12 R369). -/
theorem test_alive_counter : rebuild none 0 = 0 ∧ rebuild (some 65530) 5 = 65541 ∧ rebuild (some 65530) 65000 = 65000 := by decide
theorem test_link_trained : (getLink (devAfter (exec (.linkTrained 7) (stOf (linkDev (portIn 1))))) 7).st = 2 := by decide +kernel
theorem test_signal_add : getSignal (devAfter (exec (.signal tSci 5 true 3)
    (stOf { hostDev [] with disp := { (hostDev []).disp with signals := [(5, 0xFFFFFFFFFFFFFFFF)] } }))) 5 = 2 := by decide +kernel
theorem test_wq_close : getQueue (devAfter (exec (.wqClose tSci 0) (stOf (hostDev [])))) 0 = none := by decide +kernel
theorem test_launch_writes_the_item_ring : (let d := devAfter (exec (.launch tSci { tLaunch 0 with banks := 0, resident := 0, keep := 0, owner := 0 }) (stOf (hostDev [])))
    (((getQueue d 0).map fun v => (v.nextItem, v.items.length)),
      (readDev d 7 0x100080 4).1)) = (some (2, 1), (0, [7, 0, 0, 0])) := by decide +kernel
theorem test_envelope_switch : regGet (devAfter (exec (.envelopeSwitch 0x2000000000000) tState)) aEnv = 0x800200000E10076C := by decide +kernel
theorem test_reserved_register : (let d := devAfter (exec (.registerWrite 0x7E0000001000 5) tState)
    (d.funnel.srcq.map fun e => (e.1, e.2.map fun r => (r.cls, r.code)))) = [((src 8 1).toNat, [(5, 1)])] := by decide +kernel
theorem test_fence_start : (getCore (devAfter (exec (.coreFenceStart 0 true) tState)) 0).fencing = true := by decide +kernel
theorem test_miss_share_ignored : (let d := devAfter (exec (.missShareWrite 7 0xFFFFFFFFFFFFFFFF) tState)
    regGet d (aMissShare 7)) = regReset (aMissShare 7) := by decide +kernel
theorem test_standby_loss : (devAfter (exec .standbyPowerLoss tState)).cores = [] := by decide +kernel
theorem test_leak : (devAfter (exec (.leakSenseSample (some 99999)) (stOf (sorDev id)))).sor.leak = 1 ∧
    (devAfter (exec (.leakSenseSample none) (stOf (sorDev id)))).sor.leak = 2 := by decide +kernel
theorem test_rail_report : regGet (devAfter (exec (.railReport 69 795 29) (stOf (railSet (sorDev id) 69 800)))) (aRail 69) =
    0xA0000320031B001D := by decide +kernel

/-! ## Witnesses: commands that are enabled -/

/-- The command of opcode `op` arrives in `hostDev`. -/
theorem arrives_of_taken {ws : List WorkItem} {op : Nat} {o : Bool} (h : Taken ws op o) :
    Arrives (stOf (hostDev ws)) tSci op o := ⟨_, _, h⟩

theorem witness_EnabledCommandsComplete_core :
    Enabled (stOf (retDev tLoad tDone)) (.loadDataReturn 0 2) ∧
    Enabled (stOf (retDev { tLoad with kind := .atom } tDone)) (.atomicReturn 0 2) ∧
    Enabled (stOf (retDev tLoad { tDone with op := .write 0 fullMask, ret := false })) (.storeAcknowledge 0 3) ∧
    Enabled (stWith (gFence .sc)) (.fenceDrained tAt) ∧ Enabled tState (.coreBarLimitWrite 0 1) := by
  refine ⟨.loadDataReturn _ _ ⟨tLoad, ?_⟩, .atomicReturn _ _ ⟨{ tLoad with kind := .atom }, ?_⟩,
    .storeAcknowledge _ _ ⟨{ tDone with op := .write 0 fullMask, ret := false }, ?_⟩,
    .fenceDrained _ ⟨gFence .sc, .sc, 9, ?_⟩, .coreBarLimitWrite _ _⟩ <;> and_intros <;> decide +kernel

theorem witness_EnabledCommandsComplete_home :
    (let r : Req := { tReq with pte := pteU }
     Enabled (stOf { memDev tCore pteU with reqs := [r] }) (.homeRead 3)) ∧
    (let r : Req := { tReq with pte := pteU, op := .write 0 fullMask }
     Enabled (stOf { memDev tCore pteU with reqs := [r] }) (.homeWrite 3)) ∧
    (let r : Req := { tReq with pte := pteU, op := .atomic tAdd }
     Enabled (stOf { memDev tCore pteU with reqs := [r] }) (.homeAtomic 3)) ∧
    Enabled (stOf (rangeDev 1 false)) (.deadMark 8) ∧ Enabled (stOf (rangeDev 2 false)) (.pinLine 8) ∧
    Enabled (stOf (rangeDev 3 false)) (.unpinLine 8) ∧ Enabled (stOf (rangeDev 0 false)) (.prefLine 8) ∧
    Enabled (stOf { tDev with reqs := [{ tReq with st := .retried }] }) (.missSlotFreed 0 0) := by
  refine ⟨.homeRead _ ⟨{ tReq with pte := pteU }, ?_, rfl⟩,
    .homeWrite _ ⟨{ tReq with pte := pteU, op := .write 0 fullMask }, 0, fullMask, ?_, rfl⟩,
    .homeAtomic _ ⟨{ tReq with pte := pteU, op := .atomic tAdd }, tAdd, ?_, rfl⟩,
    .deadMark _ ⟨0, tRange 1, ?_⟩, .pinLine _ ⟨0, tRange 2, ?_⟩, .unpinLine _ ⟨0, tRange 3, ?_⟩, .prefLine _ ⟨0, tRange 0, ?_⟩,
    .missSlotFreed _ _ ⟨?_, { tReq with st := .retried }, ?_⟩⟩
  all_goals try unfold MayBeServed BankFree
  all_goals and_intros
  all_goals decide +kernel

theorem witness_EnabledCommandsComplete_memory :
    Enabled tState (.thrashWindowEnd 1 7) ∧ Enabled tState (.writebackAll 1 1) ∧
    Enabled (stOf (regDev (aWbStatus 1) 0x8000000000000000)) (.writebackAllDone 1) ∧ Enabled tState (.cntClear 1 0x80) ∧
    Enabled tState (.bankRetire 2047 16) ∧ Enabled tState (.pageMapWrite 0 8 0) ∧ Enabled tState (.shootdownStart 0) ∧
    Enabled (stOf { tDev with shoot := some { page := 0, all := false, flush := false, waits := [] } }) .shootdownDone ∧
    Enabled tState (.tlbMissFill (.core 0) 1) ∧ Enabled tState (.tlbMissFill .base 1) ∧
    Enabled (stOf (regDev (aChan 31) 0x8000000000000000)) (.memRetrainInterval 31) ∧
    Enabled (stOf (regDev (aChan 31) 0x8000000000000000)) (.burstCrcFail 31 0 4) ∧
    Enabled (stOf readyDev) .scrubPassStart ∧
    Enabled (stOf { readyDev with scrub := { readyDev.scrub with running := true, cacheDone := false, memDone := false } }) (.scrubRead .cache) ∧
    Enabled (stOf { readyDev with scrub := { readyDev.scrub with running := true, cacheDone := false, memDone := false } }) (.scrubRead .memory) ∧
    Enabled tState (.bankAccessPerform 2047 16 [{ delay := 0, who := 5, cls := 7, kind := .fpAtomic 32, req := 0 }]) ∧
    Enabled tState (.budgetWindow 2123) := by
  refine ⟨.thrashWindowEnd _ _, .writebackAll _ _, .writebackAllDone _ ?_, .cntClear _ _, .bankRetire _ _,
    .pageMapWrite _ _ _, .shootdownStart _, .shootdownDone ⟨_, rfl, ?_, rfl⟩, .tlbMissFillCore _ _ ⟨?_, ?_⟩, .tlbMissFillBase _ ?_,
    .memRetrainInterval _ ?_, .burstCrcFail _ _ _ ?_, .scrubPassStart ?_, .scrubReadCache ?_, .scrubReadMemory ?_,
    .bankAccessPerform _ _ _ ⟨_, rfl, ?_⟩, .budgetWindow _ ?_⟩
  all_goals decide +kernel

theorem witness_EnabledCommandsComplete_fabric :
    Enabled (stOf (linkDev (portIn 1))) (.linkTrained 7) ∧ Enabled (stOf (linkDev (portIn 2))) (.linkKeyed 7 5 true) ∧
    Enabled (stOf (linkDev (portIn 0))) (.linkRetryTimer 7) ∧ Enabled (stOf (linkDev (portIn 3))) (.laneFail 7 7) ∧
    Enabled (stOf (linkDev (portIn 3))) (.linkDown 7) ∧ Enabled (stOf (linkDev (portIn 3))) (.retryReq 7 65535) ∧
    Enabled (stOf (linkDev (portIn 3))) (.flitReceive 7 tFlit) ∧
    Enabled (stOf (linkDev (portIn 3))) (.messageForward 7 { tMsg 0 with dst := 9 }) ∧
    Enabled (stOf memLink) (.putMessage 7 (tMsg 0)) ∧ Enabled (stOf memLink) (.getMessage 7 (tMsg 1)) ∧
    Enabled (stOf memLink) (.atomicMessage 7 tAtomic) ∧ Enabled (stOf memLink) (.msg 7 (tMsg 3)) ∧
    Enabled (stOf memLink) (.reduce 7 (tMsg 4)) ∧ Enabled (stOf memLink) (.barrier 7 (tMsg 5)) ∧
    Enabled (stOf memLink) (.completion 7 (tMsg 8)) ∧ Enabled (stOf memLink) (.getData 7 (tMsg 9)) ∧
    Enabled (stOf memLink) (.atomicData 7 (tMsg 10)) ∧ Enabled (stOf (linkDev (portIn 3))) (.linkKeyEpoch 7) ∧
    Enabled tState (.routeEntryWrite 0) ∧
    Enabled (stOf { tDev with lov := [(1023, { tCtx 2 with chunks := [(0, { emptyChunk with kids := [(7, [1, 2, 3, 4])] })] })] })
      (.lovageChunkComplete 1023 0) ∧
    Enabled (stOf { tDev with lov := [(1023, tCtx 2)] }) (.lovageTimeout 1023) ∧
    Enabled (stOf mgrDev) .heartbeatSend ∧ Enabled (stOf mgrDev) (.memberHeartbeatTimeout 6) ∧
    Enabled (stOf { mgrDev with fab := { mgrDev.fab with fans := [tFan] } }) (.fanoutTimeout 2) ∧
    Enabled (stOf { tDev with disp := { tDev.disp with engines := [(63, tEngine 0 16 false)] } }) (.copyDescriptorComplete 63) ∧
    Enabled (stOf { tDev with disp := { tDev.disp with engines := [(63, tEngine 0 16 true)] } }) (.copyChannelRestart 63) := by
  refine ⟨.linkTrained _ ?_, .linkKeyed _ _ _ ?_, .linkRetryTimer _ ?_, .laneFail _ _ ?_, .linkDown _ ?_, .retryReq _ _ ?_,
    .flitReceive _ _ ?_, .messageForward _ _ ?_, .putMessage _ _ ?_, .getMessage _ _ ?_, .atomicMessage _ _ ?_,
    .msg _ _ ?_, .reduce _ _ ?_, .barrier _ _ ?_, .completion _ _ ?_, .getData _ _ ?_, .atomicData _ _ ?_, .linkKeyEpoch _ ?_,
    .routeEntryWrite _, .lovageChunkComplete _ _ ?_, .lovageTimeout _ ?_, .heartbeatSend ?_,
    .memberHeartbeatTimeout _ ⟨?_, { id := 6, lost := false, summary := [] }, ?_⟩, .fanoutTimeout _ ?_,
    .copyDescriptorComplete _ ⟨?_, _, _, rfl, Or.inr (Or.inl ?_)⟩, .copyChannelRestart _ ?_⟩
  all_goals try unfold MessageTurn
  all_goals decide +kernel

theorem witness_EnabledCommandsComplete_host :
    Enabled (stOf (hostDev [])) (.frameReceive 0 tFrame) ∧ Enabled (stOf (hostDev [])) (.sessionHello 0 tHello) ∧
    Enabled (stOf (hostDev [])) (.sessionIdleTimeout 1) ∧ Enabled (stOf (hostDev [])) (.sessionClose tSci) ∧
    Enabled (stOf (hostDev [])) (.query tSci 7 []) ∧ Enabled (stOf (hostDev [])) (.telemetry tSci 0) ∧
    Enabled (stOf (hostDev [])) (.setting tSci 0 (List.replicate 36 0)) ∧
    Enabled (stOf (hostDev [])) (.unmap tSci 524287 1) ∧ Enabled (stOf (hostDev [])) (.pin tSci 0 128) ∧
    Enabled (stOf (hostDev [])) (.unpin tSci 0 128) ∧ Enabled (stOf (hostDev [])) (.retirePage tSci true 524287) ∧
    Enabled (stOf (hostDev [])) (.retireCacheBank tSci 2047 16) ∧ Enabled (stOf (hostDev [])) (.put tSci 0 [1]) ∧
    Enabled (stOf (hostDev [])) (.get tSci 0 1) ∧ Enabled (stOf (hostDev [])) (.copy tSci 0 0 1 63 7) ∧
    Enabled (stOf (hostDev [])) (.loadModule tSci true 0 64) ∧ Enabled (stOf (hostDev [])) (.unloadModule tSci 7) ∧
    Enabled (stOf (hostDev [])) (.loadConfig tSci 0 true) ∧ Enabled (stOf (hostDev [])) (.wqClose tSci 0) ∧
    Enabled (stOf (hostDev [])) (.signal tSci 65534 true 1) ∧ Enabled (stOf (hostDev [])) (.wait tSci 65534 0 0) ∧
    Enabled (stOf (hostDev [])) (.fenceCore tSci 2047) ∧ Enabled (stOf (hostDev [])) (.reset tSci 6 2047) ∧
    Enabled (stOf (hostDev [])) (.role tSci 2 true 131071) ∧ Enabled (stOf (hostDev [])) (.roleDeviceId tSci 131071) ∧
    Enabled (stOf (hostDev [])) (.roleRouteEntries tSci 131071 [1]) := by
  refine ⟨.frameReceive _ _ ?_, .sessionHello _ _ ?_, .sessionIdleTimeout _ ?_, .sessionClose _ (arrives_of_taken ?_),
    .query _ _ _ ⟨arrives_of_taken ?_, ?_⟩, .telemetry _ _ ⟨arrives_of_taken ?_, rfl⟩,
    .setting _ _ _ ⟨arrives_of_taken ?_, ?_⟩, .unmap _ _ _ ⟨arrives_of_taken ?_, ?_⟩, .pin _ _ _ ⟨arrives_of_taken ?_, ?_⟩,
    .unpin _ _ _ ⟨arrives_of_taken ?_, ?_⟩, .retirePage _ _ _ ⟨arrives_of_taken ?_, ?_⟩,
    .retireCacheBank _ _ _ ⟨arrives_of_taken ?_, ?_⟩, .put _ _ _ ⟨arrives_of_taken ?_, ?_⟩,
    .get _ _ _ ⟨arrives_of_taken ?_, ?_⟩, .copy _ _ _ _ _ _ ⟨arrives_of_taken ?_, ?_⟩,
    .loadModule _ _ _ _ ⟨arrives_of_taken ?_, ?_⟩, .unloadModule _ _ ⟨arrives_of_taken ?_, ?_⟩,
    .loadConfig _ _ _ ⟨arrives_of_taken ?_, ?_⟩, .wqClose _ _ ⟨arrives_of_taken ?_, tQueue [], ?_⟩,
    .signal _ _ _ _ ⟨arrives_of_taken ?_, ?_⟩, .wait _ _ _ _ ⟨arrives_of_taken ?_, ?_⟩,
    .fenceCore _ _ ⟨arrives_of_taken ?_, ?_⟩, .reset _ _ _ ⟨arrives_of_taken ?_, ?_⟩,
    .role _ _ _ _ ⟨arrives_of_taken ?_, ?_⟩, .roleDeviceId _ _ ⟨arrives_of_taken ?_, ?_⟩,
    .roleRouteEntries _ _ _ ⟨arrives_of_taken ?_, ?_⟩⟩
  all_goals try unfold Taken Accepted
  all_goals and_intros
  all_goals decide +kernel

theorem witness_EnabledCommandsComplete_power :
    Enabled (stOf (sorDev id)) (.managementMessage .readEvent) ∧ Enabled (stOf (sorDev id)) (.p54OutOfRange 41999) ∧
    Enabled (stOf (sorDev fun s => { s with p54Ok := false })) .p54Restart ∧ Enabled (stOf (sorDev id)) (.leakSenseSample none) ∧
    Enabled (stOf (sorDev id)) (.railReport 71 1 1) ∧ Enabled tState (.senseFault 71) ∧ Enabled (stOf (sorDev id)) .aonClockFail ∧
    Enabled (stOf (stepDev 1 { resetBoot with waitRef := true })) .refClockRetryLog ∧
    Enabled (stOf (stepDev 1 { resetBoot with waitRef := true })) .refClockRestored ∧
    Enabled (stOf (clDev .entering)) (.sleepEntryDone 63) ∧ Enabled (stOf (clDev .waking)) (.clusterWakeDone 63) ∧
    Enabled (stOf (sorDev id)) (.sorrelSample tSample) ∧ Enabled (stOf (ruleDev 0 false id)) (.ruleFire 63 0) ∧
    Enabled (stOf (ruleDev 0 true id)) (.ruleRelease 63 0) ∧ Enabled (stOf (sorDev id)) .bondWearSample ∧
    Enabled (stOf (sorDev id)) .bondWearPersist ∧ Enabled (stOf (sorDev id)) .compensationUpdate ∧
    Enabled (stOf (regDev aEnv 0x8000000000000000)) .envelopeSwitchDone ∧ Enabled (stOf (sorDev id)) (.resetLevelCrossing 69) ∧
    Enabled (stOf { tDev with funnel := { tDev.funnel with srcq := [(0, [tRec])] } }) .funnelAccept ∧
    Enabled (stOf { tDev with funnel := { tDev.funnel with flashq := [tRec] } }) .flashLogCopy ∧
    Enabled tState .sorrelStart ∧ Enabled (stOf (stepDev 3 resetBoot)) .loadFlashRecords ∧
    Enabled (stOf (stepDev 5 resetBoot)) (.cacheInit { banks := [], pageMap := true, buffers := true }) ∧
    Enabled (stOf (stepDev 6 resetBoot)) .runtimeBroadcast ∧ Enabled (stOf (stepDev 7 resetBoot)) (.knownAnswerRuns []) ∧
    Enabled (stOf (stepDev 8 resetBoot)) .ready ∧ Enabled tState (.powerOnReset 8) ∧
    Enabled (stOf (sorDev id)) (.moduleReset 9) ∧ Enabled (stOf (sorDev id)) (.deviceWarmReset 10) ∧
    Enabled (stOf (turnDev 8 3 0 15)) (.baseReset 15) ∧ Enabled (stOf (turnDev 8 4 1 0)) (.halfReset 1 0) ∧
    Enabled (stOf (turnDev 8 5 63 1)) (.clusterReset 63 1 []) ∧ Enabled (stOf (turnDev 8 6 2047 1)) (.coreReset 2047 1 true) ∧
    Enabled tState (.registerReadClear 0) ∧ Enabled tState (.registerWrite 0 0) ∧ Enabled tState (.boundaryScan false) ∧
    Enabled tState .standbyPowerLoss := by
  refine ⟨.managementMessage _ ?_, .p54OutOfRange _ ?_, .p54Restart ?_, .leakSenseSample _ ?_, .railReport _ _ _ ?_,
    .senseFault _ ?_, .aonClockFail ?_, .refClockRetryLog ?_, .refClockRestored ?_, .sleepEntryDone _ ?_, .clusterWakeDone _ ?_,
    .sorrelSample _ ?_, .ruleFire _ _ ?_, .ruleRelease _ _ ?_, .bondWearSample ?_, .bondWearPersist ?_, .compensationUpdate ?_,
    .envelopeSwitchDone ?_, .resetLevelCrossing _ ?_, .funnelAccept ⟨0, tRec, [], [], rfl⟩, .flashLogCopy ?_, .sorrelStart ?_,
    .loadFlashRecords ?_, .cacheInit _ ?_, .runtimeBroadcast ?_, .knownAnswerRuns _ ?_, .ready ?_, .powerOnReset _ ?_,
    .moduleReset _ ?_, .deviceWarmReset _ ?_, .baseReset _ ?_, .halfReset _ _ ?_, .clusterReset _ _ _ ?_, .coreReset _ _ _ ?_,
    .registerReadClear _ ?_, .registerWrite _ _ ?_, .boundaryScan _ ?_, .standbyPowerLoss⟩
  all_goals try unfold ResetTurn
  all_goals decide +kernel

theorem witness_EnabledCommandsComplete_engines :
    (let c := { mxCore 0 dMma [{ mxOp .mma dMma with started := true }, { mxOp .ruMap (dRu 10 0) with
                  id := 6, started := true }] with spx := { resetSpx with mover := some 7 } }
     Enabled (stOf (devOf c)) (.mxMmaComplete 0) ∧ Enabled (stOf (devOf c)) (.tileMoverOpComplete 0) ∧
     Enabled (stOf (devOf c)) (.ruOpComplete 0)) ∧
    Enabled (stOf (devOf (mxCore 0 (dRu 10 0) [mxOp .ruMap (dRu 10 0)]))) (.ruOpStart 0) ∧
    Enabled (stOf (ffxDev vSlot 1 [ffxOp false false 3])) (.ffxSlotSwitch 0) ∧
    Enabled (stOf (devOf { tCore with spx := { resetSpx with bstate := BitVec.ofNat 32 (bankWaking * 2 ^ 30) } }))
      (.bankWakeComplete 0 15) ∧
    Enabled tState (.spxWindowAccess 0 { off := 0x7FFFF, write := true, data := [1], len := 0 }) ∧
    (let m : ErrMark := { mem := 5, unit := 0, index := 9, dbl := false, inj := false, seen := true }
     Enabled (stOf { tDev with errs := [m] }) (.spxCorrectionWriteback 0 9)) ∧
    Enabled (stOf (devOf { tCore with groups := [] })) (.taskRelease 0 false) ∧
    (let m : Miss := { id := 4, half := 0, cls := 0, home := 0, line := 0, pte := pteC, sent := false, cmd := false,
                       reqs := [3], marks := [] }
     Enabled (stOf { memDev tCore pteC with reqs := [{ tReq with st := .missed }], miss := [m] }) (.lineFill 4)) ∧
    Enabled (stOf (chansUp (stepDev 4 resetBoot) 0x8000000000000000)) .memInitDone ∧
    Enabled tState (.grantWatchdogExpiry 0x17FF0004 none) := by
  refine ⟨⟨.mxMmaComplete _ ⟨?_, { mxOp .mma dMma with started := true }, ?_⟩, .tileMoverOpComplete _ ?_,
    .ruOpComplete _ ⟨?_, { mxOp .ruMap (dRu 10 0) with id := 6, started := true }, ?_⟩⟩,
    .ruOpStart _ ⟨?_, mxOp .ruMap (dRu 10 0), ?_⟩, .ffxSlotSwitch _ ⟨?_, ffxOp false false 3, ?_⟩, .bankWakeComplete _ _ ?_,
    .spxWindowAccess _ _ ?_, .spxCorrectionWriteback _ _ ⟨_, rfl, ?_⟩, .taskRelease _ _ ?_, .lineFill _ ⟨_, rfl, ?_⟩,
    .memInitDone ?_, .grantWatchdogExpiry _ _ ?_⟩
  all_goals and_intros
  all_goals decide +kernel

theorem witness_EnabledCommandsComplete_work :
    Enabled (stOf { linkDev (portIn 3) with fab := { (linkDev (portIn 3)).fab with
      outs := [{ tag := 3, port := 7, use := .notice, msg := tMsg 3 }] } }) (.fabRequestTimeout 3) ∧
    Enabled (stOf { hostDev [] with hpt := { (hostDev []).hpt with shakes := [tShake] } })
      (.sessionFinish 0 { handshake := 4, digest := 5, pubKey := 0, sigOk := true, source := 6 }) ∧
    Enabled (stOf { hostDev [] with hpt := { (hostDev []).hpt with shakes := [tShake] } }) (.handshakeTimeout 4) ∧
    Enabled (stOf { hostDev [] with hpt := { (hostDev []).hpt with sessions := [(1, some { tSes with txCnt := lastCount })] } })
      (.frameCounterLimit 1) ∧
    Enabled (stOf { hostDev [] with hpt := { (hostDev []).hpt with sessions := [(1, some { tSes with subs := [60000] })] } })
      (.telemetryPeriod 1 0) ∧
    Enabled (stOf (hostDev [])) (.map tSci 524287 1 393215 0x1FFFF80000000000) ∧
    Enabled (stOf (hostDev [])) (.wqOpen tSci 4095 16 0x110000 0x210000) ∧
    Enabled (stOf (hostDev [])) (.launch tSci { tLaunch 0 with banks := 0, resident := 0, keep := 0, owner := 0 }) ∧
    Enabled (stOf { hostDev [] with disp := { (hostDev []).disp with waits := [tWait 2] } }) (.waitTimeout 2) ∧
    (let w := { tItem .waiting 0 with begun := false, parts := [] }
     Enabled (stOf (hostDev [w])) (.workItemStart 0)) ∧
    Enabled (stOf (hostDev [tItem .ended 0])) (.workItemComplete 0 0) ∧
    Enabled (stOf { tDev with lov := [(1023, { tCtx 1 with armed := true })] }) (.treeGenerationStart 1023) ∧
    Enabled (stOf (hostDev [])) (.update tSci 1 0 64 tImage) ∧
    Enabled (stOf (fenceDev tTask)) (.coreFenceComplete 0) := by
  refine ⟨.fabRequestTimeout _ ?_, .sessionFinish _ _ ⟨?_, tShake, ?_⟩, .handshakeTimeout _ ⟨tShake, ?_⟩,
    .frameCounterLimit _ ⟨{ tSes with txCnt := lastCount }, ?_⟩, .telemetryPeriod _ _ ?_,
    .map _ _ _ _ _ ⟨arrives_of_taken ?_, ?_⟩, .wqOpen _ _ _ _ _ ⟨arrives_of_taken ?_, ?_⟩, .launch _ _ ⟨arrives_of_taken ?_, ?_⟩,
    .waitTimeout _ ⟨tWait 2, ?_⟩,
    .workItemStart _ ⟨?_, ?_, tQueue [{ tItem .waiting 0 with begun := false, parts := [] }],
      { tItem .waiting 0 with begun := false, parts := [] }, ?_⟩,
    .workItemComplete _ _ ⟨?_, ?_, tItem .ended 0, ?_⟩, .treeGenerationStart _ ?_, .update _ _ _ _ _ ⟨arrives_of_taken ?_, ?_⟩,
    .coreFenceComplete _ ?_⟩
  all_goals try unfold Taken Accepted
  all_goals and_intros
  all_goals decide +kernel

def tTree : TreeArgs := { auto := 1, context := 1023, startSig := 0, doneSig := 0, startValue := 0 }
theorem witness_EnabledCommandsComplete_trees :
    Enabled (stOf (hostDev [])) (.treeOpen tSci tTree 0) ∧ Enabled (stOf (treeDev (tCtx 1))) (.treeStart tSci tTree) ∧
    Enabled (stOf (treeDev (tCtx 1))) (.treeClose tSci tTree) ∧ Enabled (stOf (treeDev (tCtx 2))) (.treeAbort tSci tTree) := by
  refine ⟨.treeOpen _ _ _ ⟨⟨tResp 0x28 false, hostDev [], ?_⟩, ?_⟩,
    .treeStart _ _ ⟨⟨tResp 0x28 false, treeDev (tCtx 1), ?_⟩, ?_, Or.inl ?_⟩,
    .treeClose _ _ ⟨⟨tResp 0x28 false, treeDev (tCtx 1), ?_⟩, ?_, Or.inl ?_⟩,
    .treeAbort _ _ ⟨⟨tResp 0x28 false, treeDev (tCtx 2), ?_⟩, ?_⟩⟩
  all_goals try unfold Accepted
  all_goals and_intros
  all_goals decide +kernel

theorem witness_EnabledCommandsComplete_issue :
    (let g := { gMix { tLane with st := .parked none } with stall := 4096 }
     Enabled (stOf { devOf { tCore with groups := [(0, some g)] } with regs := [(aBarLimit 0, 4096)] })
       (.faultBarrierStall tAt)) ∧
    Enabled (stOf (memDev { tCore with ic := [] } pteC)) (.instructionCacheFill tAt) := by
  refine ⟨.faultBarrierStall _ ⟨_, 4096, (31, none), rfl, ?_⟩,
    .instructionCacheFill _ ⟨tLead, pteC, (coreTx (memDev { tCore with ic := [] } pteC) 0 0).2, ?_⟩⟩
  all_goals and_intros
  all_goals decide +kernel

theorem witness_EnabledCommandsComplete_sorrel :
    Enabled (stOf (sorDev id)) (.ownerListChange true true 0 (List.replicate 8 0)) ∧
    Enabled (stOf { tDev with clusters := [(63, { freshCluster with ups := [tUp] })] }) (.noticeLeadExpiry 63 7) ∧
    Enabled (stOf { tDev with clusters := [(63, { freshCluster with phases := [(7, 4)] })] }) (.regulatorPhaseShed 63) ∧
    Enabled (stOf (regPut (sorDev id) aClkStatus 0x4000000000000000)) .refClockFail ∧
    Enabled (stOf (regPut (clDev .awake) (aCluster 63) 0x2000000000000000)) (.clusterIdleTimeout 63) ∧
    Enabled (stOf (sorDev fun s => { s with orderly := true })) .orderlyPowerDownExpiry ∧
    Enabled (stOf (sensDev { freshSensor with limit := true, limCnt := 100 })) (.thermalLimitRelease 2223) ∧
    Enabled (stOf (sensDev { freshSensor with trip := 3 })) (.thermalTrip 2223) ∧
    Enabled (stOf (sensDev { freshSensor with rate := true, rateCnt := 100 })) (.rateActRelease 2223) ∧
    Enabled (stOf (sensDev { freshSensor with found := 6 })) (.sensorBroken 2223 6) ∧
    Enabled (stOf (railSet (sorDev id) 71 1800)) (.droopEpisodeStart 71 1715) ∧
    Enabled (stOf { sorDev id with clusters := [(63, { freshCluster with droop := some 700 })] })
      (.droopEpisodeEnd 63 700 0xFFFFFFFF) ∧
    Enabled (stOf { tDev with cvus := [(31, { freshCvu with pausing := true })] }) (.cvuPause 31) ∧
    Enabled (stOf (cvuDev 0x8404001000000000)) (.cvuTake 31 tBlock) ∧
    Enabled (stOf (stepDev 1 resetBoot)) (.bringupRails true) ∧ Enabled (stOf (stepDev 2 resetBoot)) (.bootVerify { pass := 1 }) ∧
    Enabled (stOf (regSet (stepDev 2 resetBoot) aSecBoot 40 8 1)) (.recoveryImage tImage) ∧
    Enabled (stOf (stepDev 4 resetBoot)) (.training { channels := 0, cores := [], downs := [] }) ∧
    Enabled (stOf { tDev with boot := { resetBoot with quiesce := true } }) .baseQuiesceComplete ∧
    Enabled (stOf { tDev with boot := { resetBoot with quiesce := true } }) .baseQuiesceFail ∧
    Enabled (stOf (sorDev id)) (.debugToken { fusedId := 0, nonce := 0, scope := 0, sigOk := false }) ∧
    Enabled (stOf (hostDev [])) (.hostPortLinkDown 0) ∧
    Enabled (stOf { hostDev [] with hpt := resetHpt }) (.hostPortLinkUp 0) := by
  refine ⟨.ownerListChange _ _ _ _ ?_, .noticeLeadExpiry _ _ ⟨tUp, ?_⟩, .regulatorPhaseShed _ ?_, .refClockFail ?_,
    .clusterIdleTimeout _ ?_, .orderlyPowerDownExpiry ?_, .thermalLimitRelease _ ?_, .thermalTrip _ ?_, .rateActRelease _ ?_,
    .sensorBroken _ _ ?_, .droopEpisodeStart _ _ ?_, .droopEpisodeEnd _ _ _ ?_, .cvuPause _ ?_, .cvuTake _ _ ?_,
    .bringupRails _ ?_, .bootVerify _ ?_, .recoveryImage _ ?_, .training _ ⟨?_, Or.inr (Or.inr ?_)⟩, .baseQuiesceComplete ?_,
    .baseQuiesceFail ?_, .debugToken _ ?_, .hostPortLinkDown _ ?_, .hostPortLinkUp _ ?_⟩
  all_goals decide +kernel

end Sys2Proof.Tests
end

section
/-! What one step does with the queue, and what one microsecond changes: the packets and requests of the networks,
then the sweeps, then the counters of time (00_scope.md, R14; logs 1, 61). -/

namespace Sys2Proof.Machine

/-! ## The outcome of a command -/

theorem ok_eq_gated (s : State) (d : Dev) (n : String) : ok s d = gated s n (some d) := (rfl)

/-- Every meaning is an event's: it changes the device alone, or is refused by the name of its event (log 12). -/
theorem exec_eq_gated (c : Instr) (s : State) : ∃ n r, exec c s = gated s n r := by
  cases c
  case spxBankStateWrite | thrashWindowEnd | writebackAll | cntClear | bankRetire | pageMapWrite | shootdownStart
    | missShareWrite | mcqShareWrite | regulatorNotice | noticeAck | clusterSleepRequest | clusterWakeRequest
    | coreBarLimitWrite | lovageContextWrite | lovageOpen | lovageStart | lovageClose | lovageAbort | routeEntryWrite
    | wakeFrame | pfcPause | errInjectArm | coreFenceStart | cvuCtrlWrite | cvuRestart | cvuConfigWrite | sensorClear
    | sorRuleWrite | envelopeSwitch | standbyPowerLoss => exact ⟨"", some _, ok_eq_gated _ _ _⟩
  all_goals exact ⟨_, _, rfl⟩

theorem exec_next_withDev {c : Instr} {s t : State} (h : exec c s = .next t) : ∃ d, t = s.withDev d := by
  obtain ⟨n, r, hg⟩ := exec_eq_gated c s
  obtain ⟨d, -, ht⟩ := (gated_next_iff s n r t).mp (hg ▸ h)
  exact ⟨d, ht⟩

theorem exec_ne_fault (c : Instr) (s : State) (f : Fault) : exec c s ≠ .fault f := by
  obtain ⟨n, r, hg⟩ := exec_eq_gated c s
  exact hg ▸ gated_not_fault s n r f

theorem exec_refused_notEnabled {c : Instr} {s : State} {r : Refusal} (h : exec c s = .refused r) :
    ∃ n, r = .notEnabled n := by
  obtain ⟨n, o, hg⟩ := exec_eq_gated c s
  exact ⟨n, ((gated_refused_iff s n o r).mp (hg ▸ h)).2⟩

theorem step_nil {s : State} (h : s.pending = []) : step s = .next (s.withDev (tick s.dev)) := by
  simp only [step, h, ok_eq]

theorem step_cons {s : State} {c : Instr} {cs : List Instr} (h : s.pending = c :: cs) :
    step s = exec c { s with pending := cs } := by
  simp only [step, h]

theorem step_pending {s t : State} (h : step s = .next t) : t.pending = s.pending.tail := by
  cases hp : s.pending with
  | nil =>
    rw [step_nil hp] at h
    cases h
    exact hp
  | cons c cs =>
    rw [step_cons hp] at h
    obtain ⟨d, rfl⟩ := exec_next_withDev h
    rfl

theorem step_ne_fault (s : State) (f : Fault) : step s ≠ .fault f := by
  cases hp : s.pending with
  | nil => simp [step_nil hp]
  | cons c cs => exact step_cons hp ▸ exec_ne_fault c _ f

theorem step_refused_notEnabled {s : State} {r : Refusal} (h : step s = .refused r) : ∃ n, r = .notEnabled n := by
  cases hp : s.pending with
  | nil => simp [step_nil hp] at h
  | cons c cs => exact exec_refused_notEnabled (step_cons hp ▸ h)

/-! ## A microsecond of the networks -/

/-- A request further on its way: its state, whether it is counted against a budget, and whether its answer is on its
way back have changed, nothing else. -/
def MovedFrom (r r' : Req) : Prop := r = { r' with st := r.st, spent := r.spent, back := r.back }

/-- The networks, the requests on their way, the misses and the budgets have changed, nothing else, and no request has
come or gone. -/
structure LinksOnly (d e : Dev) : Prop where
  frame : e = { d with reqs := e.reqs, net := e.net, miss := e.miss, budget := e.budget }
  ids : e.reqs.map (·.id) = d.reqs.map (·.id)
  moved : ∀ r ∈ e.reqs, ∃ r' ∈ d.reqs, MovedFrom r r'

theorem MovedFrom.refl (r : Req) : MovedFrom r r := rfl

theorem MovedFrom.of_update (r : Req) (st : ReqSt) (spent back : Bool) :
    MovedFrom { r with st := st, spent := spent, back := back } r := rfl

theorem MovedFrom.trans {r r' r'' : Req} (h : MovedFrom r r') (h' : MovedFrom r' r'') : MovedFrom r r'' := by
  unfold MovedFrom at *
  rw [h, h']

theorem LinksOnly.refl (d : Dev) : LinksOnly d d := ⟨rfl, rfl, fun r hr => ⟨r, hr, .refl r⟩⟩

theorem LinksOnly.trans {d e f : Dev} (h : LinksOnly d e) (h' : LinksOnly e f) : LinksOnly d f where
  frame := by rw [h'.frame, h.frame]
  ids := h'.ids.trans h.ids
  moved r hr := by
    obtain ⟨r', hr', m'⟩ := h'.moved r hr
    obtain ⟨r'', hr'', m''⟩ := h.moved r' hr'
    exact ⟨r'', hr'', m'.trans m''⟩

section
variable {d e : Dev} (h : LinksOnly d e)
include h

theorem LinksOnly.withNet (n : Net) : LinksOnly d { e with net := n } :=
  ⟨by rw [h.frame], h.ids, h.moved⟩

theorem LinksOnly.withNetMiss (n : Net) (m : List Miss) : LinksOnly d { e with net := n, miss := m } :=
  ⟨by rw [h.frame], h.ids, h.moved⟩

theorem LinksOnly.spendReq (r : Req) : LinksOnly d (spendReq e r) := by
  unfold Machine.spendReq
  split
  · exact h
  · exact ⟨by rw [h.frame]; rfl, h.ids, h.moved⟩

/-- A request is replaced by one further on its way. -/
theorem LinksOnly.putReq {r r' : Req} (hr : r' ∈ d.reqs) (hm : MovedFrom r r') : LinksOnly d (putReq e r) where
  frame := by rw [h.frame]; rfl
  ids := by
    rw [← h.ids]
    simp only [Machine.putReq, List.map_map]
    refine List.map_congr_left fun x _ => ?_
    simp only [Function.comp_apply]
    split
    · rename_i hx
      exact hx.symm
    · rfl
  moved x hx := by
    obtain ⟨y, hy, rfl⟩ := List.mem_map.mp hx
    split
    · exact ⟨r', hr, hm⟩
    · exact h.moved y hy

/-- A request that stands in the state reached replaces itself, further on its way. -/
theorem LinksOnly.putReq_mem {r r' : Req} (hr : r' ∈ e.reqs) (hm : MovedFrom r r') : LinksOnly d (Machine.putReq e r) := by
  obtain ⟨r'', hr'', m⟩ := h.moved r' hr
  exact h.putReq hr'' (hm.trans m)

theorem LinksOnly.foldl {α : Type} (f : Dev → α → Dev) (l : List α)
    (hf : ∀ x, LinksOnly d x → ∀ a ∈ l, LinksOnly d (f x a)) : LinksOnly d (l.foldl f e) := by
  induction l generalizing e with
  | nil => exact h
  | cons a l ih =>
    exact ih (hf e h a (by simp)) fun x hx b hb => hf x hx b (by simp [hb])

theorem LinksOnly.sendReq {r : Req} (hr : r ∈ e.reqs) : LinksOnly d (sendReq e r) := by
  obtain ⟨r', hr', m⟩ := h.moved r hr
  exact ((h.spendReq r).putReq hr' ((MovedFrom.of_update r _ _ _).trans m)).withNet _

theorem LinksOnly.sendNext (n : Nat) : LinksOnly d (sendNext e n) := by
  unfold Machine.sendNext
  split
  · rename_i r hr
    exact h.sendReq (List.mem_of_find?_eq_some hr)
  · exact h

theorem LinksOnly.crossNext (n : Nat) : LinksOnly d (crossNext e n) := by
  unfold Machine.crossNext
  split
  · exact h
  · rename_i id rest _
    split
    · exact h.withNet _
    · rename_i r hr
      have gone : LinksOnly d (putFifo (Machine.putReq e { r with st := .moving }) n rest) :=
        (h.putReq_mem (List.mem_of_find?_eq_some hr) (.of_update r _ _ _)).withNet _
      split
      · exact gone
      · split
        · exact gone
        · split
          · exact gone.withNet _
          · exact h

theorem LinksOnly.respondNext {r : Req} (hr : r ∈ d.reqs) : LinksOnly d (respondNext e r) := by
  unfold Machine.respondNext
  dsimp only
  split
  · exact h
  · split
    · exact h
    · split
      · exact (h.putReq hr (.of_update r _ _ _)).withNet _
      · exact h

theorem LinksOnly.missNext (m : Miss) : LinksOnly d (missNext e m) := by
  unfold Machine.missNext
  split
  · exact h
  · split
    · exact h
    · split
      · exact h
      · split
        · exact h.withNetMiss _ _
        · exact h

theorem LinksOnly.commandNext (m : Miss) : LinksOnly d (commandNext e m) := by
  unfold Machine.commandNext
  split
  · exact h.withNetMiss _ _
  · exact h

end

theorem linksOnly_linkStep (d : Dev) : LinksOnly d (linkStep d) := by
  have sent : LinksOnly d (((d.reqs.map (·.core)).eraseDups).foldl sendNext
      (((d.reqs.map (·.core)).eraseDups).foldl crossNext d)) :=
    ((LinksOnly.refl d).foldl _ _ fun x hx n _ => hx.crossNext n).foldl _ _ fun x hx n _ => hx.sendNext n
  unfold linkStep
  dsimp only
  generalize ((d.reqs.map (·.core)).eraseDups).foldl sendNext _ = e at sent ⊢
  have answered : LinksOnly d (e.reqs.foldl respondNext e) :=
    sent.trans ((LinksOnly.refl e).foldl _ _ fun x hx r hr => hx.respondNext hr)
  exact ((answered.foldl _ _ fun x hx m _ => hx.missNext m).foldl _ _ fun x hx m _ => hx.commandNext m).withNet _

theorem linksOnly_linkRun (n : Nat) (d : Dev) : LinksOnly d (linkRun n d) := by
  induction n generalizing d with
  | zero => exact .refl d
  | succ n ih =>
    unfold linkRun
    dsimp only
    split
    · exact .refl d
    · exact (linksOnly_linkStep d).trans (ih _)

theorem linksOnly_linkTick (d : Dev) : LinksOnly d (linkTick d) := by
  unfold linkTick
  split
  · exact .refl d
  · exact ((LinksOnly.refl d).withNet _).trans (linksOnly_linkRun _ _)

end Sys2Proof.Machine
end

section
/-! A microsecond of the sweeps of WRITEBACK_ALL (08 R256, log 17), and the whole microsecond. -/

namespace Sys2Proof.Machine

/-! ## What a sweep changes -/

/-- Not one of the two registers that the count of microseconds reads and writes (13 R419). -/
def OffClock (a : Nat) : Prop := a ≠ aClkStatus ∧ a ≠ aUsec

/-- The cache die, external memory with its marks and check caches, the funnel, and registers other than those of the
clock have changed, nothing else. -/
structure SweepOnly (d e : Dev) : Prop where
  frame : e = { d with regs := e.regs, slices := e.slices, mem := e.mem, errs := e.errs, chk := e.chk,
                       funnel := e.funnel }
  clk : regGet e aClkStatus = regGet d aClkStatus
  usec : regGet e aUsec = regGet d aUsec

theorem SweepOnly.refl (d : Dev) : SweepOnly d d := ⟨rfl, rfl, rfl⟩

theorem SweepOnly.trans {d e f : Dev} (h : SweepOnly d e) (h' : SweepOnly e f) : SweepOnly d f :=
  ⟨by rw [h'.frame, h.frame], h'.clk.trans h.clk, h'.usec.trans h.usec⟩

theorem SweepOnly.foldl {α β : Type} (p : β → Dev) (f : β → α → β) (hf : ∀ x a, SweepOnly (p x) (p (f x a)))
    (l : List α) (x : β) : SweepOnly (p x) (p (l.foldl f x)) := by
  induction l generalizing x with
  | nil => exact .refl _
  | cons a l ih => exact (hf x a).trans (ih _)

/-! ### Registers off the clock -/

theorem offClock_errStatus : OffClock aErrStatus := by unfold OffClock; decide
theorem offClock_errInject : OffClock aErrInject := by unfold OffClock; decide
theorem offClock_mbw (k : Nat) : OffClock (aMbw k) := by unfold OffClock aMbw aClkStatus aUsec; omega
theorem offClock_cdcStatus (h : Nat) : OffClock (aCdcStatus h) := by
  unfold OffClock aCdcStatus cdcw aClkStatus aUsec; omega
theorem offClock_wbStatus (h : Nat) : OffClock (aWbStatus h) := by
  unfold OffClock aWbStatus cdcw aClkStatus aUsec; omega

theorem chanOf_lt (f o : Nat) : chanOf f o < 32 :=
  Nat.xor_lt_two_pow (n := 5) (Nat.mod_lt _ (by norm_num)) (Nat.mod_lt _ (by norm_num))

theorem offClock_chan (f o : Nat) : OffClock (aChan (chanOf f o)) := by
  have := chanOf_lt f o
  unfold OffClock aChan aClkStatus aUsec
  omega

/-! ### The operations a sweep is made of -/

variable (d : Dev)

theorem sweepOnly_regSet {a : Nat} (h : OffClock a) (lo w v : Nat) : SweepOnly d (regSet d a lo w v) :=
  ⟨rfl, regGet_regSet_other d a _ lo w v h.1.symm, regGet_regSet_other d a _ lo w v h.2.symm⟩

theorem sweepOnly_regSat {a : Nat} (h : OffClock a) (lo w n : Nat) : SweepOnly d (regSat d a lo w n) :=
  sweepOnly_regSet d h _ _ _

theorem sweepOnly_post (r : ErrRec) : SweepOnly d (post d r) :=
  ⟨by rw [post_only], post_regGet d r _ offClock_errStatus.1.symm, post_regGet d r _ offClock_errStatus.2.symm⟩

theorem sweepOnly_event (s : Word) (code l0 l1 l2 det : Nat) : SweepOnly d (event d s code l0 l1 l2 det) :=
  sweepOnly_post d _

theorem sweepOnly_withFunnel (f : Funnel) : SweepOnly d { d with funnel := f } := ⟨rfl, rfl, rfl⟩

theorem sweepOnly_withMem (m : List Host.Cell) : SweepOnly d { d with mem := m } := ⟨rfl, rfl, rfl⟩

theorem sweepOnly_postMerged (k : Nat) (r : ErrRec) : SweepOnly d (postMerged d k r) := by
  unfold postMerged
  dsimp only
  split
  · exact (sweepOnly_withFunnel d _).trans (sweepOnly_post _ _)
  · exact sweepOnly_withFunnel d _

theorem sweepOnly_memRecord (s : Word) (code m u l1 l2 det : Nat) (inj : Bool) :
    SweepOnly d (memRecord d s code m u l1 l2 det inj) := by
  unfold memRecord
  dsimp only
  split
  · exact sweepOnly_postMerged d _ _
  · exact sweepOnly_post d _

theorem sweepOnly_clearMark (m u i : Nat) : SweepOnly d (clearMark d m u i) := ⟨rfl, rfl, rfl⟩

theorem sweepOnly_putSlice (s : Nat) (v : Slice) : SweepOnly d (putSlice d s v) := ⟨rfl, rfl, rfl⟩

theorem sweepOnly_putSet (s i : Nat) (ls : List CLine) : SweepOnly d (putSet d s i ls) := sweepOnly_putSlice d _ _

theorem sweepOnly_writeWord (t m u i : Nat) : SweepOnly d (writeWord d t m u i) := by
  unfold writeWord
  dsimp only
  split
  · exact ((sweepOnly_clearMark d m u i).trans (sweepOnly_regSet _ offClock_errInject _ _ _)).trans ⟨rfl, rfl, rfl⟩
  · exact sweepOnly_clearMark d m u i

theorem sweepOnly_checkTouch (c u : Nat) (w : Bool) : SweepOnly d (checkTouch d c u w) := by
  unfold checkTouch
  split
  · exact ⟨rfl, rfl, rfl⟩
  · exact .refl d

theorem sweepOnly_countMbw (k n : Nat) : SweepOnly d (countMbw d k n) := sweepOnly_regSet d (offClock_mbw k) _ _ _

theorem sweepOnly_deviceReport (f o u : Nat) : SweepOnly d (deviceReport d (chanOf f o) u) := by
  unfold deviceReport
  split
  · split
    · exact .refl d
    · exact (sweepOnly_clearMark d _ _ _).trans (sweepOnly_regSat _ (offClock_chan f o) _ _ _)
  · exact .refl d

theorem sweepOnly_readUnit (f o dev : Nat) : SweepOnly d (readUnit d f o dev).2 := by
  have looked := (sweepOnly_deviceReport d f o (unitOf f o)).trans
    (sweepOnly_checkTouch _ (chanOf f o) (unitOf f o) ((markOf d (memCode d) (chanOf f o) (unitOf f o)).any fun e => !e.dbl))
  unfold readUnit
  dsimp only
  split
  · exact looked
  · split
    · dsimp only
      exact looked.trans ((sweepOnly_regSat _ (offClock_chan f o) _ _ _).trans (sweepOnly_memRecord _ _ _ _ _ _ _ _ _))
    · dsimp only
      refine SweepOnly.trans ?_ ((sweepOnly_clearMark _ _ _ _).trans (sweepOnly_memRecord _ _ _ _ _ _ _ _ _))
      split <;> exact looked.trans (sweepOnly_regSat _ (offClock_chan f o) _ _ _)

theorem sweepOnly_writeMemLine (k f i dev : Nat) (data : Line) (mask : LMask) :
    SweepOnly d (writeMemLine d k f i dev data mask) := by
  refine SweepOnly.foldl id _ (fun x h => ?_) (List.range 2) d
  dsimp only [id]
  split
  · exact .refl x
  · have merged : SweepOnly x (if decide (bits mask (64 * h) 64 = 2 ^ 64 - 1) then (true, x) else
        ((readUnit x f (128 * i + 64 * h) dev).1, countMbw (readUnit x f (128 * i + 64 * h) dev).2 k 1)).2 := by
      split
      · exact .refl x
      · exact (sweepOnly_readUnit x _ _ _).trans (sweepOnly_countMbw _ _ _)
    generalize (if decide (bits mask (64 * h) 64 = 2 ^ 64 - 1) = true then (true, x) else _) = p at merged ⊢
    split
    · exact merged.trans ((sweepOnly_withMem p.2 _).trans ((sweepOnly_writeWord _ _ _ _ _).trans
        ((sweepOnly_checkTouch _ _ _ _).trans (sweepOnly_countMbw _ _ _))))
    · exact merged

theorem sweepOnly_pinEvicted (s l : Nat) : SweepOnly d (pinEvicted d s l) :=
  (sweepOnly_putSlice d s _).trans (sweepOnly_event ..)

theorem sweepOnly_poisonLine (s : Nat) (c : CLine) : SweepOnly d (poisonLine d s c) := by
  unfold poisonLine
  dsimp only
  split
  · exact (sweepOnly_putSet d _ _ _).trans (sweepOnly_pinEvicted _ _ _)
  · exact sweepOnly_putSet d _ _ _

theorem sweepOnly_checkData (s l : Nat) (c : CLine) : SweepOnly d (checkData d s l c).2 := by
  unfold checkData
  split
  · exact .refl d
  · dsimp only
    split
    · exact sweepOnly_clearMark d _ _ _
    · split
      · dsimp only
        exact ((sweepOnly_clearMark d _ _ _).trans (sweepOnly_poisonLine _ _ _)).trans (sweepOnly_memRecord ..)
      · dsimp only
        exact ((sweepOnly_clearMark d _ _ _).trans (sweepOnly_regSat _ (offClock_cdcStatus _) _ _ _)).trans
          (sweepOnly_memRecord ..)

theorem sweepOnly_checkLine (s l : Nat) : SweepOnly d (checkLine d s l).2 := by
  unfold checkLine
  split
  · exact .refl d
  · split
    · exact sweepOnly_checkData d _ _ _
    · dsimp only
      split
      · dsimp only
        exact (((sweepOnly_clearMark d _ _ _).trans (sweepOnly_clearMark _ _ _ _)).trans (sweepOnly_putSet _ _ _ _)).trans
          (sweepOnly_memRecord ..)
      · dsimp only
        exact (((sweepOnly_clearMark d _ _ _).trans (sweepOnly_regSat _ (offClock_cdcStatus _) _ _ _)).trans
          (sweepOnly_memRecord ..)).trans (sweepOnly_checkData _ _ _ _)

theorem sweepOnly_writeBack (k : Nat) (c : CLine) : SweepOnly d (writeBack d k c) := by
  unfold writeBack
  split
  · exact sweepOnly_writeMemLine d _ _ _ _ _ _
  · exact .refl d

theorem sweepOnly_readBack (s k : Nat) (c : CLine) : SweepOnly d (readBack d s k c).2 := by
  unfold readBack
  split
  · exact .refl d
  · split
    · exact sweepOnly_writeBack d _ _
    · have looked := sweepOnly_checkLine d s c.line
      split
      · rename_i x e hc
        rw [hc] at looked
        dsimp only
        split
        · exact looked
        · exact looked.trans (sweepOnly_writeBack _ _ _)
      · rename_i e hc
        rwa [hc] at looked

/-! ### The sweep -/

theorem sweepOnly_sweepLine (s i : Nat) (x : Nat × Dev) (c : CLine) : SweepOnly x.2 (sweepLine s i x c).2 := by
  have back := sweepOnly_readBack x.2 s 7 c
  unfold sweepLine
  split
  · rename_i y e hb
    rw [hb] at back
    split
    · exact back
    · exact back.trans (sweepOnly_putSet _ _ _ _)
  · rename_i e hb
    rwa [hb] at back

theorem sweepOnly_sweepSet (drop : Bool) (i : Nat) (x : Nat × Dev) (s : Nat) :
    SweepOnly x.2 (sweepSet drop i x s).2 := by
  have lines := SweepOnly.foldl Prod.snd (sweepLine s i) (sweepOnly_sweepLine s i)
    ((getSet x.2 s i).filter fun c => c.dirty && !c.poison) x
  unfold sweepSet
  dsimp only
  split
  · exact lines.trans (sweepOnly_putSet _ _ _ _)
  · exact lines

theorem sweepOnly_sweepHalf (h n : Nat) : SweepOnly d (sweepHalf h n d) := by
  unfold sweepHalf
  dsimp only
  refine SweepOnly.trans ?_ ((sweepOnly_regSet _ (offClock_wbStatus h) _ _ _).trans
    (sweepOnly_regSat _ (offClock_wbStatus h) _ _ _))
  exact SweepOnly.foldl Prod.snd _ (fun x i => SweepOnly.foldl Prod.snd _ (sweepOnly_sweepSet _ i) _ x) _ (0, d)

theorem sweepOnly_sweepTick : SweepOnly d (sweepTick d) := by
  refine SweepOnly.foldl id _ (fun x h => ?_) [0, 1] d
  dsimp only [id]
  split
  · exact sweepOnly_sweepHalf x h 1
  · exact .refl x

/-- With no sweep under way a microsecond of the sweeps changes nothing. -/
theorem sweepTick_idle (h0 : bit (regGet d (aWbStatus 0)) 63 = false) (h1 : bit (regGet d (aWbStatus 1)) 63 = false) :
    sweepTick d = d := by
  simp only [sweepTick, List.foldl_cons, List.foldl_nil, h0, h1, Bool.false_eq_true, if_false]

/-! ## The microsecond -/

/-- A map whose values are changed in place reads as the changed value. -/
theorem mapGet_map {α : Type} (dv : α) (f : Nat → α → α) (m : SMap α) (k : Nat) (h : f k dv = dv) :
    mapGet dv (m.map fun e => (e.1, f e.1 e.2)) k = f k (mapGet dv m k) := by
  induction m with
  | nil => exact h.symm
  | cons e m ih =>
    simp only [List.map_cons, mapGet]
    split
    · rename_i he
      rw [he]
    · exact ih

theorem getGroup_stallCore (n : Nat) (c : Core) (k : Nat) :
    getGroup (stallCore n c) k = (getGroup c k).map (stallGroup n) :=
  mapGet_map none (fun _ => Option.map (stallGroup n)) c.groups k rfl

theorem stallGroup_only (n : Nat) (g : Group) : stallGroup n g = { g with stall := (stallGroup n g).stall } := by
  unfold stallGroup
  split <;> rfl

/-- The device whose networks and sweeps have passed the microsecond. -/
def passed (d : Dev) : Dev := sweepTick (linkTick d)

theorem LinksOnly.sweep {d x e : Dev} (h : LinksOnly d x) (h' : SweepOnly x e) : e =
    { d with regs := e.regs, reqs := x.reqs, net := x.net, miss := x.miss, budget := x.budget, slices := e.slices,
             mem := e.mem, errs := e.errs, chk := e.chk, funnel := e.funnel } := by
  rw [h'.frame, h.frame]

theorem passed_frame (d : Dev) : passed d =
    { d with regs := (passed d).regs, reqs := (linkTick d).reqs, net := (linkTick d).net, miss := (linkTick d).miss,
             budget := (linkTick d).budget, slices := (passed d).slices, mem := (passed d).mem,
             errs := (passed d).errs, chk := (passed d).chk, funnel := (passed d).funnel } :=
  (linksOnly_linkTick d).sweep (sweepOnly_sweepTick _)

theorem linkTick_regs (d : Dev) : (linkTick d).regs = d.regs := by rw [(linksOnly_linkTick d).frame]

theorem regGet_of_regs {d e : Dev} (h : e.regs = d.regs) (a : Nat) : regGet e a = regGet d a := by
  unfold regGet
  rw [h]

theorem passed_clk (d : Dev) : regGet (passed d) aClkStatus = regGet d aClkStatus :=
  (sweepOnly_sweepTick _).clk.trans (regGet_of_regs (linkTick_regs d) _)

theorem passed_usec (d : Dev) : regGet (passed d) aUsec = regGet d aUsec :=
  (sweepOnly_sweepTick _).usec.trans (regGet_of_regs (linkTick_regs d) _)

theorem passed_idle (d : Dev) (h0 : bit (regGet d (aWbStatus 0)) 63 = false)
    (h1 : bit (regGet d (aWbStatus 1)) 63 = false) : passed d = linkTick d :=
  sweepTick_idle _ (by rwa [regGet_of_regs (linkTick_regs d)]) (by rwa [regGet_of_regs (linkTick_regs d)])

/-- A microsecond passes: the networks and the sweeps, and then the counters of time. -/
theorem tick_eq_passed (d : Dev) : tick d =
    { passed d with
      regs := (tick d).regs, now := (passed d).now + 1, clusters := (tick d).clusters, hpt := (tick d).hpt
      cores := (passed d).cores.map fun e => (e.1, stallCore (cyclesIn (passed d) (e.1 / 32)) e.2) } := by
  unfold tick passed
  dsimp only
  split <;> rfl

theorem tick_frame (d : Dev) : tick d =
    { d with regs := (tick d).regs, now := d.now + 1, clusters := (tick d).clusters, cores := (tick d).cores,
             hpt := (tick d).hpt, reqs := (tick d).reqs, net := (tick d).net, miss := (tick d).miss,
             budget := (tick d).budget, slices := (tick d).slices, mem := (tick d).mem, errs := (tick d).errs,
             chk := (tick d).chk, funnel := (tick d).funnel } := by
  rw [tick_eq_passed, passed_frame]

theorem tick_reqs (d : Dev) : (tick d).reqs = (linkTick d).reqs := by rw [tick_eq_passed, passed_frame]

theorem tick_sessions (d : Dev) : (tick d).hpt.sessions = d.hpt.sessions := by
  have h : (passed d).hpt = d.hpt := by rw [passed_frame]
  calc (tick d).hpt.sessions = (passed d).hpt.sessions := rfl
    _ = d.hpt.sessions := by rw [h]

theorem regGet_tick (d : Dev) (a : Nat) : regGet (tick d) a =
    regGet (if bit (regGet d aClkStatus) 59 then regPut (passed d) aUsec (regGet d aUsec + 1) else passed d) a := by
  rw [← passed_clk, ← passed_usec]
  rfl

theorem tick_usec_running (d : Dev) (h : bit (regGet d aClkStatus) 59 = true) :
    regGet (tick d) aUsec = regGet d aUsec + 1 := by
  rw [regGet_tick, if_pos h, regGet_regPut]

theorem tick_usec_stopped (d : Dev) (h : bit (regGet d aClkStatus) 59 = false) :
    regGet (tick d) aUsec = regGet d aUsec := by
  rw [regGet_tick, if_neg (by simp [h]), passed_usec]

/-- While no sweep is under way the cache die, external memory, the funnel and the registers but the count of
microseconds stay. -/
theorem tick_idle (d : Dev) (h0 : bit (regGet d (aWbStatus 0)) 63 = false)
    (h1 : bit (regGet d (aWbStatus 1)) 63 = false) :
    (tick d).slices = d.slices ∧ (tick d).mem = d.mem ∧ (tick d).errs = d.errs ∧ (tick d).chk = d.chk ∧
      (tick d).funnel = d.funnel ∧ ∀ a, a ≠ aUsec → regGet (tick d) a = regGet d a := by
  have hp : passed d = linkTick d := passed_idle d h0 h1
  refine ⟨?_, ?_, ?_, ?_, ?_, ?regs⟩
  case regs =>
    intro a ha
    rw [regGet_tick]
    split
    · rw [regGet_regPut_other _ _ _ _ ha, hp, regGet_of_regs (linkTick_regs d)]
    · rw [hp, regGet_of_regs (linkTick_regs d)]
  all_goals rw [tick_eq_passed, hp, (linksOnly_linkTick d).frame]

/-- A group that is there after the microsecond was there before it, with its count of stalled cycles. -/
theorem tick_group {d : Dev} {n k : Nat} {g : Group} (h : getGroup (getCore (tick d) n) k = some g) :
    ∃ g', getGroup (getCore d n) k = some g' ∧ g = { g' with stall := g.stall } := by
  have cores : (passed d).cores = d.cores := by rw [passed_frame]
  have core : getCore (tick d) n = stallCore (cyclesIn (passed d) (n / 32)) (getCore d n) := by
    unfold getCore
    rw [tick_eq_passed, cores]
    exact mapGet_map freshCore (fun n => stallCore (cyclesIn (passed d) (n / 32))) d.cores n rfl
  rw [core, getGroup_stallCore] at h
  obtain ⟨g', hg', rfl⟩ := Option.map_eq_some_iff.mp h
  exact ⟨g', hg', stallGroup_only _ g'⟩

/-- Settles O57: a command's meaning is an event that changes the device alone, and the microsecond of an empty queue
is the networks' (`linksOnly_linkTick`), the sweeps' (`sweepOnly_sweepTick`) and the counters'. -/
theorem everyStepTakesOneCommandFromTheQueue : Obligations.EveryStepTakesOneCommandFromTheQueue := by
  refine ⟨fun s t h => ⟨step_pending h, fun wf c hc => ?_⟩,
    fun s => ⟨step_ne_fault s, fun r => step_refused_notEnabled⟩, fun s hs => ?_⟩
  · rw [step_pending h] at hc
    exact wf c (List.mem_of_mem_tail hc)
  · have links := linksOnly_linkTick s.dev
    refine ⟨s.withDev (tick s.dev), step_nil hs, hs, tick_frame s.dev, tick_idle s.dev, ?_, ?_, tick_sessions s.dev,
      tick_usec_running s.dev, tick_usec_stopped s.dev, fun n k g => tick_group⟩
    · rw [withDev_dev, tick_reqs]
      exact links.ids
    · rw [withDev_dev, tick_reqs]
      exact links.moved

end Sys2Proof.Machine
end

section
/-! The state after power-on reset (16 R480, R482), and a register read whose FIRMWARE record is discarded (15 R452). -/

namespace Sys2Proof.Machine

/-! ## Reset -/

theorem regReset_hptCfg {p : Nat} (h : p < 2) : regReset (aHptCfg p) = 0xE600008088B5B996 := by
  interval_cases p <;> rfl

theorem regReset_cvuw {u : Nat} (h : u < 32) : regReset (cvuw u) = 0x4000000000000000 := by
  interval_cases u <;> rfl

theorem regReset_wayMask {k : Nat} (h : k < 8) : regReset (aWayMask k) = 0xFFFFFFFF := by
  interval_cases k <;> rfl

/-- No register is listed at reset, so each reads as its table's reset value (00 R16). -/
theorem regGet_reset (a : Nat) : regGet State.reset.dev a = regReset a := rfl

theorem isReady_reset : isReady State.reset.dev = false := by
  unfold isReady
  rw [regGet_reset]
  decide

/-- Settles O60: every map of the state after reset is empty, so each place reads as its unlisted value. -/
theorem resetLeavesTheSpecsState : Obligations.ResetLeavesTheSpecsState := by
  refine ⟨regGet_reset, rfl, rfl, rfl, rfl, rfl, rfl, rfl, rfl, rfl, rfl, fun p => regReset_hptCfg, fun u => regReset_cvuw,
    fun k => regReset_wayMask, rfl, ?_⟩
  exact ⟨fun n k => rfl, fun n p => by cases p <;> rfl, fun c => rfl, fun k i => rfl, fun p => rfl, fun n => rfl,
    fun q => rfl, rfl, rfl, rfl, isReady_reset, rfl, reset_memory_wf, fun f o => rfl⟩

/-! ## A record without room -/

/-- A record that finds its source's queue full is discarded and adds 1 to DROPPED of SOR_ERRLOG_STATUS (15 R452). -/
theorem regGet_post_full (d : Dev) (r : ErrRec) (hs : r.source.toNat / 2 ^ 28 ≠ 0)
    (hq : 4 ≤ (mapGet [] d.funnel.srcq r.source.toNat).length) : regGet (post d r) aErrStatus =
      setBits (regGet d aErrStatus) 0 16 (min (regField d aErrStatus 0 16 + 1) (2 ^ 16 - 1)) := by
  unfold post
  dsimp only
  rw [if_pos ⟨hs, hq⟩]
  exact regGet_regSet _ _ _ _ _

theorem exec_registerReadClear (a : BitVec 47) (s : State) :
    exec (.registerReadClear a) s = gated s "REGISTER_READ_CLEAR" (registerReadClear a s.dev) := (rfl)

/-- Firmware's read of a reserved address reads 0 and is logged (09 R263). -/
theorem registerReadClear_reserved {a : BitVec 47} {d : Dev} (hw : inDevice a.toNat 8 = false)
    (hf : fencedWindow d a.toNat = false) (ha : accOf a.toNat = none) :
    registerReadClear a d = some { fwRecord d 1 0x01 a.toNat 0 0 with lastRead := 0 } := by
  simp [registerReadClear, readRegister, firmwareHeld, hw, hf, ha]

/-- The reset state with four records of control processor core CP1 waiting for the funnel. -/
def fullQueueState : State :=
  { State.reset with dev := { Dev.reset with funnel := { resetFunnel with
      srcq := [((src 8 1).toNat, List.replicate 4 (mkRec (src 8 1) 5 0x01 sevWarning 0 0 0 0))] } } }

/-- The last address of 47 bits, which is reserved (09 R263). -/
def reservedAddress : BitVec 47 := 0x7FFFFFFFFFFF

theorem fullQueueState_read : ∃ t, exec (.registerReadClear reservedAddress) fullQueueState = .next t ∧
    regGet t.dev aErrStatus = 1 := by
  have h : registerReadClear reservedAddress fullQueueState.dev = _ :=
    registerReadClear_reserved rfl rfl rfl
  refine ⟨_, by rw [exec_registerReadClear, h, gated_some], ?_⟩
  exact (regGet_post_full fullQueueState.dev _ (by decide) (by decide)).trans (by decide)

/-- Refutes O56: where the queue of CP1 is full, the FIRMWARE record of a read of a reserved address is discarded and
adds 1 to DROPPED of SOR_ERRLOG_STATUS (15 R452), so the read does not leave every register as it was. -/
theorem not_registersAndManagementAct : ¬ Obligations.RegistersAndManagementAct := by
  rintro ⟨reads, -⟩
  obtain ⟨t, ht, -, -, -, unfenced⟩ := reads reservedAddress fullQueueState rfl
  obtain ⟨reserved, -⟩ := unfenced (.inl rfl)
  obtain ⟨-, regs, -⟩ := reserved rfl
  obtain ⟨u, hu, dropped⟩ := fullQueueState_read
  obtain rfl : t = u := by
    rw [ht] at hu
    injection hu
  have kept : regGet t.dev aErrStatus = 0 := regGet_of_regs regs aErrStatus
  rw [kept] at dropped
  exact absurd dropped (by decide)

end Sys2Proof.Machine
end

section
/-! The group that issues, and what parking and releasing leave of the groups of a core (02 R44, R53, R55 to R57). -/

namespace Sys2Proof.Machine

/-! ## The lead of an issue -/

@[simp] theorem rejoin_hold (g : Group) : (rejoin g).hold = g.hold := by unfold rejoin; split <;> rfl

/-- A group has a lead PC only while a thread of it is ACTIVE (02 R44). -/
theorem exists_active_of_leadPc {g : Group} {pc : BitVec 47} (h : leadPc g = some pc) :
    ∃ t, t < 32 ∧ isActive (laneOf g t) = true := by
  obtain ⟨t, ht⟩ : ∃ t, t ∈ candidates g := by
    apply List.exists_mem_of_ne_nil
    intro h0
    simp [leadPc, h0] at h
  have hc : t < 32 ∧ isActive (laneOf g t) = true ∧ (laneOf g t).yld = false := by
    simpa [candidates] using ht
  exact ⟨t, hc.1, hc.2.1⟩

theorem isActive_of_activeSet {g : Group} {pc : BitVec 47} {t : Nat} (ht : t < 32)
    (h : onLane (activeSet g pc) t = true) : isActive (laneOf g t) = true := by
  rw [activeSet, onLane_perLane _ _ ht] at h
  simp only [Bool.and_eq_true] at h
  exact h.1.1

theorem isActive_of_pairStands {g : Group} {p : Pair} (h : pairStands g p = true) {t : Nat} (ht : t < 32)
    (ha : onLane p.act t = true) : isActive (laneOf g t) = true := by
  have := List.all_eq_true.mp h t (List.mem_filter.mpr ⟨List.mem_range.mpr ht, ha⟩)
  simp only [Bool.and_eq_true] at this
  exact this.1

/-- A lead names a slot of its core and a group that nothing holds and one of whose threads is ACTIVE; its active set
holds ACTIVE threads only (02 R44, R48, R49). -/
structure LeadIn (l : Lead) : Prop where
  slot_lt : l.slot < 32
  free : l.g.hold = none
  some_active : ∃ t, t < 32 ∧ isActive (laneOf l.g t) = true
  act_active : ∀ t, t < 32 → onLane l.act t = true → isActive (laneOf l.g t) = true

theorem leadIn_of_leadOf {x : At} {gd : BitVec 5} {d : Dev} {l : Lead} (h : leadOf x gd d = some l) :
    LeadIn l := by
  unfold leadOf at h
  split at h
  · split at h
    · rename_i g0 _
      split at h
      · rename_i hold
        dsimp only at h
        split at h
        · rename_i pc hpc
          cases h
          exact ⟨x.slot.isLt, (rejoin_hold g0).trans hold, exists_active_of_leadPc hpc,
            fun _ ht => isActive_of_activeSet ht⟩
        · cases h
      · cases h
    · cases h
  · cases h

/-- Issue in slot 1 leaves the group of the lead, and narrows the active set to that of the pair (02 R49). -/
theorem leadIn_of_leadFor {x : At} {f : Form} {d : Dev} {l : Lead} (h : leadFor x f d = some l) : LeadIn l := by
  unfold leadFor at h
  split at h
  · cases h
  · rename_i l0 h0
    obtain ⟨slot_lt, free, some_active, act_active⟩ := leadIn_of_leadOf h0
    dsimp only at h
    split at h
    · split at h
      · rename_i stands
        cases h
        obtain ⟨-, -, -, stands⟩ := stands
        exact ⟨slot_lt, free, some_active, fun _ => isActive_of_pairStands stands⟩
      · split at h <;> cases h <;> exact ⟨slot_lt, free, some_active, act_active⟩
    · cases h
      exact ⟨slot_lt, free, some_active, act_active⟩

theorem leadIn_of_issues {s : State} {x : At} {f : Form} {l : Lead} (h : Issues s x f l) : LeadIn l :=
  leadIn_of_leadFor h.1

/-! ## Threads -/

@[simp] theorem isActive_iff (l : Lane) : isActive l = true ↔ l.st = .active := by simp [isActive]
@[simp] theorem isLive_iff (l : Lane) : isLive l = true ↔ l.st ≠ .exited := by simp [isLive]

theorem laneOf_releaseBar (b : Option (BitVec 3)) (g : Group) (t : Nat) (ht : t < 32) :
    laneOf (releaseBar b g) t = if (laneOf g t).st = .parked b then
      { laneOf g t with st := .active, pc := (laneOf g t).pc + 8 } else laneOf g t :=
  laneOf_mapLanes g (fun _ l => if l.st = .parked b then { l with st := .active, pc := l.pc + 8 } else l) t ht

/-- A release brings no thread to another barrier, and ends none. -/
theorem releaseBar_keeps_waiting {b c : Option (BitVec 3)} {g : Group} {t : Nat} (ht : t < 32)
    (live : (laneOf g t).st ≠ .exited) (away : (laneOf g t).st ≠ .parked c) :
    (laneOf (releaseBar b g) t).st ≠ .exited ∧ (laneOf (releaseBar b g) t).st ≠ .parked c := by
  rw [laneOf_releaseBar b g t ht]
  split
  · simp
  · exact ⟨live, away⟩

theorem grpBarDone_iff (g : Group) : grpBarDone g = true ↔ (∃ t, t < 32 ∧ (laneOf g t).st = .parked none) ∧
    ∀ t, t < 32 → (laneOf g t).st = .exited ∨ (laneOf g t).st = .parked none := by
  simp [grpBarDone, isLive]

/-- A live thread elsewhere holds a group barrier up (02 R56). -/
theorem grpBarDone_eq_false {g : Group} {t : Nat} (ht : t < 32) (live : (laneOf g t).st ≠ .exited)
    (away : (laneOf g t).st ≠ .parked none) : grpBarDone g = false := by
  rw [← Bool.not_eq_true, grpBarDone_iff]
  rintro ⟨-, all⟩
  exact (all t ht).elim live away

/-! ## The groups of a task -/

@[simp] theorem getTask_putGroup (c : Core) (k : Nat) (o : Option Group) (p : Bool) :
    getTask (putGroup c k o) p = getTask c p := rfl

theorem mem_taskGroups (c : Core) (pos : Bool) (k : Nat) (g : Group) :
    (k, g) ∈ taskGroups c pos ↔ k < 32 ∧ getGroup c k = some g ∧ g.pos = pos := by
  simp only [taskGroups, slots, List.mem_filterMap, List.mem_range]
  constructor
  · rintro ⟨j, hj, h⟩
    split at h
    · split at h
      · cases h
        exact ⟨hj, by assumption, by assumption⟩
      · cases h
    · cases h
  · rintro ⟨hk, hg, hp⟩
    exact ⟨k, hk, by simp [hg, hp]⟩

/-- The slots of the resident groups of a task are distinct. -/
theorem taskGroups_keys (c : Core) (pos : Bool) : (taskGroups c pos).Pairwise fun a b => a.1 ≠ b.1 := by
  refine List.Pairwise.filterMap _ (R := fun a b : Nat => a ≠ b) ?_ List.nodup_range
  intro a b hab x hx y hy
  have key : ∀ {j : Nat} {z : Nat × Group}, (match getGroup c j with
      | some g => if g.pos = pos then some (j, g) else none
      | none => none) = some z → z.1 = j := by
    intro j z hz
    split at hz
    · split at hz
      · cases hz; rfl
      · cases hz
    · cases hz
  rw [key hx, key hy]
  exact hab

theorem foldl_putGroup_getTask (l : List (Nat × Group)) (f : Group → Group) (c : Core) (p : Bool) :
    getTask (l.foldl (fun c e => putGroup c e.1 (some (f e.2))) c) p = getTask c p := by
  induction l generalizing c with
  | nil => rfl
  | cons e l ih => rw [List.foldl_cons, ih, getTask_putGroup]

theorem foldl_putGroup_other (l : List (Nat × Group)) (f : Group → Group) (c : Core) (k : Nat)
    (h : ∀ e ∈ l, k ≠ e.1) :
    getGroup (l.foldl (fun c e => putGroup c e.1 (some (f e.2))) c) k = getGroup c k := by
  induction l generalizing c with
  | nil => rfl
  | cons e l ih =>
    rw [List.foldl_cons, ih _ fun x hx => h x (by simp [hx]), getGroup_putGroup_other _ _ _ _ (h e (by simp))]

theorem foldl_putGroup_mem (l : List (Nat × Group)) (f : Group → Group) (c : Core) (k : Nat) (g : Group)
    (hn : l.Pairwise fun a b => a.1 ≠ b.1) (h : (k, g) ∈ l) :
    getGroup (l.foldl (fun c e => putGroup c e.1 (some (f e.2))) c) k = some (f g) := by
  induction l generalizing c with
  | nil => cases h
  | cons e l ih =>
    obtain ⟨hd, tl⟩ := List.pairwise_cons.mp hn
    rw [List.foldl_cons]
    rcases List.mem_cons.mp h with rfl | h
    · rw [foldl_putGroup_other _ _ _ _ hd, getGroup_putGroup]
    · exact ih _ tl h

@[simp] theorem getTask_mapTaskGroups (c : Core) (pos : Bool) (f : Group → Group) (p : Bool) :
    getTask (mapTaskGroups c pos f) p = getTask c p := foldl_putGroup_getTask _ _ _ _

/-- A group of the task is replaced. -/
theorem getGroup_mapTaskGroups {c : Core} {pos : Bool} {k : Nat} {g : Group} (f : Group → Group) (hk : k < 32)
    (hg : getGroup c k = some g) (hp : g.pos = pos) : getGroup (mapTaskGroups c pos f) k = some (f g) :=
  foldl_putGroup_mem _ _ _ _ _ (taskGroups_keys c pos) ((mem_taskGroups c pos k g).mpr ⟨hk, hg, hp⟩)

/-- A slot without a group of the task is as it was. -/
theorem getGroup_mapTaskGroups_other {c : Core} {pos : Bool} {k : Nat} (f : Group → Group)
    (h : ∀ g, getGroup c k = some g → g.pos ≠ pos) : getGroup (mapTaskGroups c pos f) k = getGroup c k := by
  refine foldl_putGroup_other _ _ _ _ fun e he hke => ?_
  obtain ⟨-, hg, hp⟩ := (mem_taskGroups c pos e.1 e.2).mp he
  exact h e.2 (hke ▸ hg) hp

/-- A group of the task after the map was one before it. -/
theorem getGroup_mapTaskGroups_some {c : Core} {pos : Bool} {f : Group → Group} {k : Nat}
    {g : Group} (hk : k < 32) (hg : getGroup (mapTaskGroups c pos f) k = some g) (hp : g.pos = pos) :
    ∃ h, getGroup c k = some h ∧ h.pos = pos ∧ g = f h := by
  by_cases hc : ∃ h, getGroup c k = some h ∧ h.pos = pos
  · obtain ⟨h, hh, hhp⟩ := hc
    rw [getGroup_mapTaskGroups f hk hh hhp] at hg
    exact ⟨h, hh, hhp, (Option.some.inj hg).symm⟩
  · rw [getGroup_mapTaskGroups_other f fun h hh hhp => hc ⟨h, hh, hhp⟩] at hg
    exact absurd ⟨g, hg, hp⟩ hc

/-! ## Completing barriers -/

/-- The first half of settling: the group barriers of the task that have completed (02 R57). -/
def completeGrpBars (c : Core) (pos : Bool) : Core :=
  mapTaskGroups c pos fun g => if grpBarDone g then releaseBar none g else g

/-- One step of the second half: core barrier `b`, when it has completed (02 R57). -/
def completeCoreBar (pos : Bool) (c : Core) (b : BitVec 3) : Core :=
  if coreBarDone c pos b then
    mapTaskGroups c pos fun g =>
      if (List.range 32).any (fun t => decide ((laneOf g t).st = .parked (some b))) then releaseBar (some b) g else g
  else c

/-- The core barriers, ascending. -/
def coreBars : List (BitVec 3) := (List.range 8).map (BitVec.ofNat 3)

theorem mem_coreBars (b : BitVec 3) : b ∈ coreBars :=
  List.mem_map.mpr ⟨b.toNat, List.mem_range.mpr b.isLt, by simp⟩

/-- Settling is the two halves in order. -/
theorem settleBarriers_eq (c : Core) (pos : Bool) :
    settleBarriers c pos = coreBars.foldl (completeCoreBar pos) (completeGrpBars c pos) := by
  rw [coreBars, List.foldl_map]
  rfl

theorem completeCoreBar_of_waiting {c : Core} {pos : Bool} {b : BitVec 3} (h : coreBarDone c pos b = false) :
    completeCoreBar pos c b = c := by
  rw [completeCoreBar, if_neg (by simp [h])]

/-- A completed core barrier releases the threads PARKED at it in a group of the task. -/
theorem getGroup_completeCoreBar {c : Core} {pos : Bool} {b : BitVec 3} (h : coreBarDone c pos b = true) {k t : Nat}
    {g : Group} (hk : k < 32) (hg : getGroup c k = some g) (hp : g.pos = pos) (ht : t < 32)
    (parked : (laneOf g t).st = .parked (some b)) :
    getGroup (completeCoreBar pos c b) k = some (releaseBar (some b) g) := by
  rw [completeCoreBar, if_pos h, getGroup_mapTaskGroups _ hk hg hp, if_pos]
  exact List.any_eq_true.mpr ⟨t, List.mem_range.mpr ht, by simpa using parked⟩

/-- A group without a thread PARKED at a core barrier is as it was when that barrier completes. -/
theorem getGroup_completeCoreBar_of_unparked {c : Core} {pos : Bool} {k : Nat} {g : Group} (hk : k < 32)
    (hg : getGroup c k = some g) (hp : g.pos = pos) (b : BitVec 3)
    (unparked : ∀ t, t < 32 → (laneOf g t).st ≠ .parked (some b)) :
    getGroup (completeCoreBar pos c b) k = some g := by
  unfold completeCoreBar
  split
  · rw [getGroup_mapTaskGroups _ hk hg hp, if_neg]
    simpa using unparked
  · exact hg

/-- A core barrier has completed just when the task has no group left to admit, a thread of it is PARKED there, and so
is every live one (02 R56). -/
theorem coreBarDone_iff (c : Core) (pos : Bool) (b : BitVec 3) : coreBarDone c pos b = true ↔
    (∀ T, getTask c pos = some T → T.ngroups ≤ T.admitted) ∧
    (∃ k g t, k < 32 ∧ getGroup c k = some g ∧ g.pos = pos ∧ t < 32 ∧ (laneOf g t).st = .parked (some b)) ∧
    ∀ k g t, k < 32 → getGroup c k = some g → g.pos = pos → t < 32 →
      (laneOf g t).st = .exited ∨ (laneOf g t).st = .parked (some b) := by
  simp only [coreBarDone, Bool.and_eq_true, and_assoc]
  refine and_congr (by cases getTask c pos <;> simp) (and_congr ?_ ?_)
  · rw [List.any_eq_true]
    constructor
    · rintro ⟨⟨k, g⟩, hm, hp⟩
      obtain ⟨hk, hg, hpos⟩ := (mem_taskGroups c pos k g).mp hm
      obtain ⟨t, ht, st⟩ := List.any_eq_true.mp hp
      exact ⟨k, g, t, hk, hg, hpos, List.mem_range.mp ht, of_decide_eq_true st⟩
    · rintro ⟨k, g, t, hk, hg, hpos, ht, st⟩
      exact ⟨(k, g), (mem_taskGroups c pos k g).mpr ⟨hk, hg, hpos⟩,
        List.any_eq_true.mpr ⟨t, List.mem_range.mpr ht, decide_eq_true st⟩⟩
  · rw [List.all_eq_true]
    constructor
    · intro h k g t hk hg hpos ht
      have := List.all_eq_true.mp (h (k, g) ((mem_taskGroups c pos k g).mpr ⟨hk, hg, hpos⟩)) t (List.mem_range.mpr ht)
      simpa [isLive] using this
    · rintro h ⟨k, g⟩ hm
      obtain ⟨hk, hg, hpos⟩ := (mem_taskGroups c pos k g).mp hm
      refine List.all_eq_true.mpr fun t ht => ?_
      simpa [isLive] using h k g t hk hg hpos (List.mem_range.mp ht)

/-- A live thread of the task elsewhere holds a core barrier up (02 R56). -/
theorem coreBarDone_eq_false {c : Core} {pos : Bool} {b : BitVec 3} {k t : Nat} {g : Group} (hk : k < 32)
    (hg : getGroup c k = some g) (hp : g.pos = pos) (ht : t < 32) (live : (laneOf g t).st ≠ .exited)
    (away : (laneOf g t).st ≠ .parked (some b)) : coreBarDone c pos b = false := by
  rw [← Bool.not_eq_true, coreBarDone_iff]
  rintro ⟨-, -, all⟩
  exact (all k g t hk hg hp ht).elim live away

theorem coreBarDone_eq_false_of_unadmitted {c : Core} {pos : Bool} {T : Task} (hT : getTask c pos = some T)
    (left : T.admitted < T.ngroups) (b : BitVec 3) : coreBarDone c pos b = false := by
  rw [← Bool.not_eq_true, coreBarDone_iff]
  rintro ⟨all, -, -⟩
  exact absurd (all T hT) (by omega)

/-- What the group barriers leave of a group of the task. -/
theorem getGroup_completeGrpBars {c : Core} {pos : Bool} {k : Nat} {g : Group} (hk : k < 32)
    (hg : getGroup c k = some g) (hp : g.pos = pos) :
    getGroup (completeGrpBars c pos) k = some (if grpBarDone g then releaseBar none g else g) :=
  getGroup_mapTaskGroups _ hk hg hp

@[simp] theorem getTask_completeGrpBars (c : Core) (pos p : Bool) : getTask (completeGrpBars c pos) p = getTask c p :=
  getTask_mapTaskGroups _ _ _ _

/-- Steps that change nothing leave a fold where it starts. -/
theorem foldl_eq_of_fixed {α β : Type} (f : α → β → α) (a : α) (l : List β) (h : ∀ b ∈ l, f a b = a) :
    l.foldl f a = a := by
  induction l with
  | nil => rfl
  | cons b l ih =>
    rw [List.foldl_cons, h b (by simp)]
    exact ih fun x hx => h x (by simp [hx])

/-- A fold whose one effective step leads from `a` to `a'`, where nothing changes any more, ends in `a'`. -/
theorem foldl_eq_of_one_step {α β : Type} (f : α → β → α) {a a' : α} {b : β} {l : List β} (hb : b ∈ l)
    (before : ∀ x, x ≠ b → f a x = a) (step : f a b = a') (after : ∀ x, f a' x = a') : l.foldl f a = a' := by
  induction l with
  | nil => cases hb
  | cons x l ih =>
    rw [List.foldl_cons]
    by_cases hx : x = b
    · subst hx
      rw [step]
      exact foldl_eq_of_fixed f a' l fun y _ => after y
    · rw [before x hx]
      exact ih ((List.mem_cons.mp hb).resolve_left fun h => hx h.symm)

/-- While no core barrier can complete, settling completes group barriers only. -/
theorem settleBarriers_of_waiting {c : Core} {pos : Bool}
    (h : ∀ b, coreBarDone (completeGrpBars c pos) pos b = false) :
    settleBarriers c pos = completeGrpBars c pos := by
  rw [settleBarriers_eq]
  exact foldl_eq_of_fixed _ _ _ fun b _ => completeCoreBar_of_waiting (h b)

/-- Settling leaves a group of the task without a PARKED thread as it is. -/
theorem getGroup_settleBarriers_of_unparked {c : Core} {pos : Bool} {k : Nat} {g : Group} (hk : k < 32)
    (hg : getGroup c k = some g) (hp : g.pos = pos) (unparked : ∀ t b, t < 32 → (laneOf g t).st ≠ .parked b) :
    getGroup (settleBarriers c pos) k = some g := by
  have first : getGroup (completeGrpBars c pos) k = some g := by
    rw [getGroup_completeGrpBars hk hg hp, if_neg]
    rw [grpBarDone_iff]
    rintro ⟨⟨t, ht, st⟩, -⟩
    exact unparked t none ht st
  rw [settleBarriers_eq]
  generalize coreBars = l, completeGrpBars c pos = c' at first ⊢
  induction l generalizing c' with
  | nil => exact first
  | cons b l ih => exact ih _ (getGroup_completeCoreBar_of_unparked hk first hp b fun t ht => unparked t (some b) ht)

/-! ## Freeing slots -/

/-- One step of `freeDead`: slot `s` is freed of a group with no live thread and no record to wait for (02 R53). -/
def freeSlotDead (c : Core) (s : Nat) : Core := match getGroup c s with
  | some g => if (List.range 32).all (fun t => !isLive (laneOf g t)) && decide (g.hold ≠ some .record) then
      putGroup c s none else c
  | none => c

theorem freeDead_eq (c : Core) : freeDead c = slots.foldl freeSlotDead c := (rfl)

theorem getGroup_freeSlotDead_other (c : Core) (s k : Nat) (h : k ≠ s) :
    getGroup (freeSlotDead c s) k = getGroup c k := by
  unfold freeSlotDead
  split
  · split
    · exact getGroup_putGroup_other _ _ _ _ h
    · rfl
  · rfl

theorem freeSlotDead_of_live {c : Core} {k t : Nat} {g : Group} (hg : getGroup c k = some g) (ht : t < 32)
    (live : (laneOf g t).st ≠ .exited) : freeSlotDead c k = c := by
  rw [freeSlotDead, hg]
  refine if_neg fun h => ?_
  simp only [Bool.and_eq_true, List.all_eq_true, List.mem_range] at h
  exact live (by simpa [isLive] using h.1 t ht)

/-- A group with a live thread keeps its slot (02 R53). -/
theorem getGroup_freeDead_of_live {c : Core} {k t : Nat} {g : Group} (hg : getGroup c k = some g) (ht : t < 32)
    (live : (laneOf g t).st ≠ .exited) : getGroup (freeDead c) k = some g := by
  rw [freeDead_eq]
  generalize slots = l
  induction l generalizing c with
  | nil => exact hg
  | cons s l ih =>
    rw [List.foldl_cons]
    by_cases hs : k = s
    · subst hs
      rw [freeSlotDead_of_live hg ht live]
      exact ih hg
    · exact ih ((getGroup_freeSlotDead_other c s k hs).trans hg)

/-- A slot without a group stays so. -/
theorem getGroup_foldl_freeSlotDead_none {c : Core} {k : Nat} (l : List Nat) (h : getGroup c k = none) :
    getGroup (l.foldl freeSlotDead c) k = none := by
  induction l generalizing c with
  | nil => exact h
  | cons s l ih =>
    rw [List.foldl_cons]
    refine ih ?_
    by_cases hs : k = s
    · subst hs
      rw [freeSlotDead, h]
      exact h
    · exact (getGroup_freeSlotDead_other c s k hs).trans h

theorem getGroup_freeSlotDead_of_dead {c : Core} {k : Nat} {g : Group} (hg : getGroup c k = some g)
    (dead : ∀ t, t < 32 → (laneOf g t).st = .exited) (held : g.hold ≠ some .record) :
    getGroup (freeSlotDead c k) k = none := by
  have free : ((List.range 32).all (fun t => !isLive (laneOf g t)) && decide (g.hold ≠ some .record)) = true := by
    simpa [isLive, held] using dead
  rw [freeSlotDead, hg]
  simp only [free, if_true, getGroup_putGroup]

/-- A group with no live thread loses its slot, unless its fault record holds it (02 R53, 15 R452). -/
theorem getGroup_freeDead_of_dead {c : Core} {k : Nat} {g : Group} (hk : k < 32) (hg : getGroup c k = some g)
    (dead : ∀ t, t < 32 → (laneOf g t).st = .exited) (held : g.hold ≠ some .record) :
    getGroup (freeDead c) k = none := by
  rw [freeDead_eq]
  have mem : k ∈ slots := List.mem_range.mpr hk
  generalize slots = l at mem
  induction l generalizing c with
  | nil => cases mem
  | cons s l ih =>
    rw [List.foldl_cons]
    by_cases hs : k = s
    · subst hs
      exact getGroup_foldl_freeSlotDead_none l (getGroup_freeSlotDead_of_dead hg dead held)
    · exact ih ((getGroup_freeSlotDead_other c s k hs).trans hg) ((List.mem_cons.mp mem).resolve_left hs)

end Sys2Proof.Machine
end

section
/-! Control flow and barriers: BRA, BRX, CALL, CALLX, YIELD, NOP, EXIT, BAR.GRP and BAR.CORE (03 Table 3.12, 02 R45,
R46, R53 to R57). -/

namespace Sys2Proof.Machine

/-! ## The outcome of an instruction that issues -/

/-- An instruction that issues answers the state its effect leaves. -/
theorem gated_issue {s : State} {x : At} {f : Form} {l : Lead} (h : Issues s x f l) (m : String)
    {body : Lead → Dev → Option Dev} {e : Dev} (he : body l s.dev = some e) :
    gated s m (issue x f body s.dev) = .next (s.withDev e) := by
  rw [issue_of_Issues h, he, gated_some]

/-- An instruction whose effect is a new group in the place of the lead's changes nothing else. -/
theorem setsGroup_of_next {c : Instr} {s : State} {l : Lead} {g : Group}
    (h : exec c s = .next (s.withDev (putLead s.dev l g))) : SetsGroup c s l g :=
  ⟨_, h, putLead_only s l g⟩

theorem exec_bra (x : At) (f : FmtB) (s : State) : exec (.bra x f) s = gated s "BRA" (bra x f s.dev) := (rfl)
theorem exec_brx (x : At) (f : FmtB) (s : State) : exec (.brx x f) s = gated s "BRX" (brx x f s.dev) := (rfl)
theorem exec_call (x : At) (f : FmtB) (s : State) : exec (.call x f) s = gated s "CALL" (call x f s.dev) := (rfl)
theorem exec_callx (x : At) (f : FmtB) (s : State) : exec (.callx x f) s = gated s "CALLX" (callx x f s.dev) := (rfl)
theorem exec_yield (x : At) (f : FmtR) (s : State) : exec (.yield x f) s = gated s "YIELD" (yield x f s.dev) := (rfl)
theorem exec_nop (x : At) (f : FmtR) (s : State) : exec (.nop x f) s = gated s "NOP" (nop x f s.dev) := (rfl)
theorem exec_exit (x : At) (f : FmtR) (s : State) : exec (.exit x f) s = gated s "EXIT" (exitOp x f s.dev) := (rfl)
theorem exec_barGrp (x : At) (f : FmtR) (s : State) : exec (.barGrp x f) s = gated s "BAR_GRP" (barGrp x f s.dev) := (rfl)
theorem exec_barCore (x : At) (f : FmtI) (s : State) : exec (.barCore x f) s = gated s "BAR_CORE" (barCore x f s.dev) :=
  (rfl)

/-! ## Branches (03 R84) -/

theorem signed_toNat_43 (x : BitVec 43) : signed 43 x.toNat = x.toInt := by
  have := x.isLt
  rw [signed, BitVec.toInt_eq_toNat_cond, Nat.mod_eq_of_lt this]
  split <;> split <;> omega

/-- OFF43 times 8 as the change of PC that Table 3.12 gives. -/
theorem branchOff_eq (f : FmtB) : branchOff f = BitVec.ofInt 47 (8 * f.off.toInt) := by
  rw [branchOff, signed_toNat_43]
  apply BitVec.eq_of_toNat_eq
  rw [BitVec.toNat_ofInt, BitVec.toNat_ofNat, wrap]
  have : (8 * f.off.toInt % ((2 ^ 47 : Nat) : Int)).toNat < 2 ^ 47 := by omega
  exact Nat.mod_eq_of_lt this

/-- A branch moves the lanes as `Jumped` says where the threads it starts from are those of the lead's group. -/
theorem branchTo_jumped {l : Lead} {g : Group} (tgt : Nat → BitVec 47) (h : ∀ t, laneOf g t = laneOf l.g t) :
    Jumped l (branchTo l g tgt) tgt := by
  intro t ht
  rw [branchTo, laneOf_mapLanes _ _ _ ht, h]

theorem laneOf_saveReturn (l : Lead) (f : FmtB) (t : Nat) : laneOf (saveReturn l f) t = laneOf l.g t := by
  rw [saveReturn, writeXs_frame]
  rfl

/-- The group after CALL or CALLX: the lead's but for the PCs and the thread registers. -/
theorem callTo_frame (l : Lead) (f : FmtB) (tgt : Nat → BitVec 47) :
    branchTo l (saveReturn l f) tgt =
      { l.g with lanes := (branchTo l (saveReturn l f) tgt).lanes, x := (branchTo l (saveReturn l f) tgt).x } := by
  have h : saveReturn l f = { l.g with x := (saveReturn l f).x } := writeXs_frame _ _ _ _ _
  generalize saveReturn l f = g at h ⊢
  rw [h]
  rfl

/-- The return address stands in pair L (03 Table 3.12). -/
theorem callTo_returnIn (l : Lead) (f : FmtB) (tgt : Nat → BitVec 47) :
    ReturnIn l (branchTo l (saveReturn l f) tgt) f.l.toNat :=
  fun r t ht hr => readX_writeXs l.g f.l.toNat 2 l.run (fun _ => (l.pc + 8).toNat) r t ht hr

/-! ## Yield and NOP -/

/-- The threads after YIELD: the lanes whose guard is true have yielded, and the active set has moved on (02 R46). -/
theorem laneOf_yielded (l : Lead) (t : Nat) (ht : t < 32) :
    laneOf (advance (mapLanes l.g fun t ln => if onLane l.run t then { ln with yld := true } else ln) l.act 1) t =
      { laneOf l.g t with
        pc := if onLane l.act t then (laneOf l.g t).pc + 8 else (laneOf l.g t).pc,
        yld := onLane l.run t || (laneOf l.g t).yld } := by
  rw [laneOf_advance _ _ _ _ ht, laneOf_mapLanes _ _ _ ht]
  cases onLane l.act t <;> cases onLane l.run t <;> rfl

/-! ## Settling the core of a lead -/

/-- The core of a lead with its group replaced, before anything is settled. -/
def leadCore (d : Dev) (l : Lead) (g : Group) : Core :=
  { putGroup (getCore d l.core) l.slot (some g) with rr := l.rr, pair := l.pair }

@[simp] theorem getGroup_leadCore (d : Dev) (l : Lead) (g : Group) : getGroup (leadCore d l g) l.slot = some g := by
  simp only [getGroup, leadCore, putGroup, mapGet_put_same]

theorem getGroup_leadCore_other (d : Dev) (l : Lead) (g : Group) {k : Nat} (h : k ≠ l.slot) :
    getGroup (leadCore d l g) k = getGroup (getCore d l.core) k := by
  simp only [getGroup, leadCore, putGroup, mapGet_put_other _ _ _ _ _ h]

@[simp] theorem getTask_leadCore (d : Dev) (l : Lead) (g : Group) (p : Bool) :
    getTask (leadCore d l g) p = getTask (getCore d l.core) p := rfl

/-- After parking or exiting, the core of the lead is its core with the group replaced, settled (02 R57). -/
theorem getCore_settleLead (d : Dev) (l : Lead) (g : Group) :
    getCore (settleLead d l g) l.core = settle (leadCore d l g) g.pos := by
  simp only [settleLead, putLead, getCore_putCore, leadCore]

theorem settleLead_only (d : Dev) (l : Lead) (g : Group) :
    settleLead d l g = { d with cores := (settleLead d l g).cores } := by
  simp only [settleLead, putLead, putCore]

/-- Parking and exiting change the core of the lead only. -/
theorem settleLead_oneCore (s : State) (l : Lead) (g : Group) :
    OneCore s (s.withDev (settleLead s.dev l g)) l.core := by
  refine ⟨withDev_pending s _, settleLead_only s.dev l g, fun m hm => ?_, fun _ _ => ?_⟩
  · simp only [withDev_dev, settleLead, putLead, getCore_putCore_other _ _ _ _ hm]
  · simp only [withDev_dev, memByte, settleLead, putLead, putCore_mem]

/-- While no core barrier can complete, the lead's group is released from a completed group barrier and else stays. -/
theorem getGroup_settleLead_of_waiting {d : Dev} {l : Lead} {g : Group} (hs : l.slot < 32) {t : Nat} (ht : t < 32)
    (live : (laneOf g t).st ≠ .exited)
    (waiting : ∀ b, coreBarDone (completeGrpBars (leadCore d l g) g.pos) g.pos b = false) :
    getGroup (getCore (settleLead d l g) l.core) l.slot = some (if grpBarDone g then releaseBar none g else g) := by
  rw [getCore_settleLead, settle, settleBarriers_of_waiting waiting]
  refine getGroup_freeDead_of_live (getGroup_completeGrpBars hs (getGroup_leadCore d l g) rfl) ht ?_
  split
  · rw [laneOf_releaseBar _ _ _ ht]
    split
    · simp
    · exact live
  · exact live

/-- A live thread of the lead's group that is at no core barrier holds them all up. -/
theorem getGroup_settleLead {d : Dev} {l : Lead} {g : Group} (hs : l.slot < 32) {t : Nat} (ht : t < 32)
    (live : (laneOf g t).st ≠ .exited) (away : ∀ b, (laneOf g t).st ≠ .parked (some b)) :
    getGroup (getCore (settleLead d l g) l.core) l.slot = some (if grpBarDone g then releaseBar none g else g) := by
  refine getGroup_settleLead_of_waiting hs ht live fun b => ?_
  have there := getGroup_completeGrpBars hs (getGroup_leadCore d l g) rfl
  by_cases done : grpBarDone g = true
  · rw [if_pos done] at there
    obtain ⟨live', away'⟩ := releaseBar_keeps_waiting (b := none) ht live (away b)
    exact coreBarDone_eq_false hs there rfl ht live' away'
  · rw [if_neg done] at there
    exact coreBarDone_eq_false hs there rfl ht live (away b)

/-! ## EXIT (02 R53, R57) -/

/-- The lead's group after EXIT, before anything is settled. -/
def exited (l : Lead) : Group := mapLanes l.g fun t ln =>
  if onLane l.run t then { ln with st := .exited }
  else if onLane l.act t then { ln with pc := ln.pc + 8 } else ln

theorem laneOf_exited (l : Lead) (t : Nat) (ht : t < 32) : laneOf (exited l) t =
    if onLane l.run t then { laneOf l.g t with st := .exited }
    else if onLane l.act t then { laneOf l.g t with pc := (laneOf l.g t).pc + 8 } else laneOf l.g t :=
  laneOf_mapLanes l.g _ t ht

theorem st_exited (l : Lead) (t : Nat) (ht : t < 32) :
    (laneOf (exited l) t).st = if onLane l.run t then .exited else (laneOf l.g t).st := by
  rw [laneOf_exited l t ht]
  split
  · rfl
  · split <;> rfl

theorem exit_next {s : State} {x : At} {f : FmtR} {l : Lead} (h : Issues s x ((bareForm f).op 0x67 .ctl) l) :
    exec (.exit x f) s = .next (s.withDev (settleLead s.dev l (exited l))) :=
  (exec_exit x f s).trans (gated_issue h _ rfl)

/-- While a thread of the group stays ACTIVE, no barrier completes for the group and it keeps its slot. -/
theorem exit_keeps_group {s : State} {l : Lead} (h : LeadIn l) {t : Nat} (ht : t < 32)
    (active : (laneOf l.g t).st = .active) (stays : onLane l.run t = false) :
    getGroup (getCore (settleLead s.dev l (exited l)) l.core) l.slot = some (exited l) := by
  have st : (laneOf (exited l) t).st = .active := by simp [st_exited l t ht, stays, active]
  rw [getGroup_settleLead h.slot_lt ht (by simp [st]) (by simp [st]),
    grpBarDone_eq_false ht (by simp [st]) (by simp [st])]
  rfl

/-- When every live thread of the group exits, its slot is freed (02 R53). -/
theorem exit_frees_slot {s : State} {l : Lead} (h : LeadIn l)
    (all : ∀ t, t < 32 → isLive (laneOf l.g t) = true → onLane l.run t = true) :
    getGroup (getCore (settleLead s.dev l (exited l)) l.core) l.slot = none := by
  have dead : ∀ t, t < 32 → (laneOf (exited l) t).st = .exited := by
    intro t ht
    rw [st_exited l t ht]
    split
    · rfl
    · rename_i out
      exact Classical.byContradiction fun live => out (all t ht (by simpa using live))
  rw [getCore_settleLead, settle]
  refine getGroup_freeDead_of_dead h.slot_lt (getGroup_settleBarriers_of_unparked h.slot_lt (getGroup_leadCore _ _ _)
    rfl fun t b ht => by simp [dead t ht]) dead ?_
  rw [show (exited l).hold = l.g.hold from rfl, h.free]
  simp

/-- Settles O8: the branches, YIELD and NOP replace the lead's group and nothing else; EXIT settles the core after the
lanes have exited, where a thread that stays ACTIVE holds every barrier up, and a group without one is freed. -/
theorem controlFlowMovesPcs : Obligations.ControlFlowMovesPcs := by
  unfold Obligations.ControlFlowMovesPcs
  refine ⟨?bra, ?brx, ?call, ?callx, ?yield, ?nop, ?exitKeeps, ?exitFrees⟩
  case bra =>
    intro x f s l h
    refine ⟨_, setsGroup_of_next ((exec_bra x f s).trans (gated_issue h _ rfl)), rfl, ?_⟩
    rw [branchOff_eq]
    exact branchTo_jumped _ fun _ => rfl
  case brx =>
    intro x f s l h
    exact ⟨_, setsGroup_of_next ((exec_brx x f s).trans (gated_issue h _ rfl)), rfl, branchTo_jumped _ fun _ => rfl⟩
  case call =>
    intro x f s l h
    refine ⟨_, setsGroup_of_next ((exec_call x f s).trans (gated_issue h _ rfl)), callTo_frame l f _, ?_,
      callTo_returnIn l f _⟩
    rw [branchOff_eq]
    exact branchTo_jumped _ (laneOf_saveReturn l f)
  case callx =>
    intro x f s l h
    exact ⟨_, setsGroup_of_next ((exec_callx x f s).trans (gated_issue h _ rfl)), callTo_frame l f _,
      branchTo_jumped _ (laneOf_saveReturn l f), callTo_returnIn l f _⟩
  case yield =>
    intro x f s l h
    exact ⟨_, setsGroup_of_next ((exec_yield x f s).trans (gated_issue h _ rfl)), rfl, laneOf_yielded l⟩
  case nop =>
    intro x f s l h
    exact ⟨_, setsGroup_of_next ((exec_nop x f s).trans (gated_issue h _ rfl)), rfl, laneOf_advance l.g l.act 1⟩
  case exitKeeps =>
    rintro x f s l h ⟨t, ht, active, stays⟩
    exact ⟨_, exited l, exit_next h, exit_keeps_group (leadIn_of_issues h) ht ((isActive_iff _).mp active) stays,
      laneOf_exited l, settleLead_oneCore s l _⟩
  case exitFrees =>
    intro x f s l h all
    exact ⟨_, exit_next h, exit_frees_slot (leadIn_of_issues h) all, settleLead_oneCore s l _⟩

/-! ## BAR.GRP and BAR.CORE (02 R55 to R57) -/

@[simp] theorem park_pos (l : Lead) (b : Option (BitVec 3)) : (park l b).pos = l.g.pos := rfl

theorem park_parked (l : Lead) (b : Option (BitVec 3)) : Parked l (park l b) b :=
  fun t ht => laneOf_mapLanes l.g _ t ht

theorem st_park (l : Lead) (b : Option (BitVec 3)) (t : Nat) (ht : t < 32) :
    (laneOf (park l b) t).st = if onLane l.run t then .parked b else (laneOf l.g t).st := by
  rw [park_parked l b t ht]
  split
  · rfl
  · split <;> rfl

/-- Of the threads that were ACTIVE one is so still, or is PARKED at the barrier that was issued. -/
theorem LeadIn.exists_active_or_parked {l : Lead} (h : LeadIn l) (b : Option (BitVec 3)) :
    ∃ t, t < 32 ∧ ((laneOf (park l b) t).st = .active ∨ (laneOf (park l b) t).st = .parked b) := by
  obtain ⟨t, ht, active⟩ := h.some_active
  refine ⟨t, ht, ?_⟩
  rw [st_park l b t ht]
  split
  · exact .inr rfl
  · exact .inl ((isActive_iff _).mp active)

/-- Every live thread of the lead's group has arrived at barrier `b` with this issue. -/
def Arrived (l : Lead) (b : Option (BitVec 3)) : Prop :=
  ∀ t, t < 32 → isLive (laneOf l.g t) = true → onLane l.run t = true ∨ (laneOf l.g t).st = .parked b

theorem Arrived.exited_or_parked {l : Lead} {b : Option (BitVec 3)} (h : Arrived l b) (t : Nat) (ht : t < 32) :
    (laneOf (park l b) t).st = .exited ∨ (laneOf (park l b) t).st = .parked b := by
  rw [st_park l b t ht]
  split
  · exact .inr rfl
  · rename_i out
    by_cases live : (laneOf l.g t).st = .exited
    · exact .inl live
    · exact .inr ((h t ht (by simpa using live)).resolve_left out)

/-- The release of a barrier at which every live thread has arrived (02 R57). -/
theorem Arrived.released {l : Lead} {b : Option (BitVec 3)} (hl : LeadIn l) (h : Arrived l b) :
    Released l (releaseBar b (park l b)) b := by
  intro t ht
  rw [laneOf_releaseBar b _ t ht, park_parked l b t ht]
  by_cases run : onLane l.run t = true
  · simp [run]
  by_cases act : onLane l.act t = true
  · have active := (isActive_iff _).mp (hl.act_active t ht act)
    have parked := (h t ht (by simp [active])).resolve_left run
    rw [active] at parked
    cases parked
  · simp [run, act]

theorem barGrp_next {s : State} {x : At} {f : FmtR} {l : Lead} (h : Issues s x ((bareForm f).op 0x65 .ctl) l) :
    exec (.barGrp x f) s = .next (s.withDev (settleLead s.dev l (park l none))) :=
  (exec_barGrp x f s).trans (gated_issue h _ rfl)

theorem barCore_next {s : State} {x : At} {f : FmtI} {l : Lead} (h : Issues s x ((barCoreForm f).op 0x66 .ctl) l) :
    exec (.barCore x f) s = .next (s.withDev (settleLead s.dev l (park l (some f.func3)))) :=
  (exec_barCore x f s).trans (gated_issue h _ rfl)

/-- BAR.GRP completes no core barrier, and the group's own when every live thread is PARKED there. -/
theorem barGrp_group {d : Dev} {l : Lead} (h : LeadIn l) :
    getGroup (getCore (settleLead d l (park l none)) l.core) l.slot =
      some (if grpBarDone (park l none) then releaseBar none (park l none) else park l none) := by
  obtain ⟨t, ht, st⟩ := h.exists_active_or_parked none
  exact getGroup_settleLead h.slot_lt ht (by rcases st with st | st <;> simp [st])
    (by rcases st with st | st <;> simp [st])

/-- A thread of the group ACTIVE, or PARKED at a core barrier, holds the group barrier up. -/
theorem grpBarDone_park_core {l : Lead} (h : LeadIn l) (b : BitVec 3) :
    grpBarDone (park l (some b)) = false := by
  obtain ⟨t, ht, st⟩ := h.exists_active_or_parked (some b)
  exact grpBarDone_eq_false ht (by rcases st with st | st <;> simp [st]) (by rcases st with st | st <;> simp [st])

/-- After BAR.CORE the group barriers leave the lead's group PARKED. -/
theorem getGroup_completeGrpBars_park {d : Dev} {l : Lead} (h : LeadIn l) (b : BitVec 3) :
    getGroup (completeGrpBars (leadCore d l (park l (some b))) l.g.pos) l.slot = some (park l (some b)) := by
  rw [getGroup_completeGrpBars h.slot_lt (getGroup_leadCore _ _ _) (park_pos l (some b)), grpBarDone_park_core h b]
  rfl

/-- BAR.CORE of barrier `b` completes no other core barrier. -/
theorem other_coreBar_waits {d : Dev} {l : Lead} (h : LeadIn l) {b c : BitVec 3} (hc : c ≠ b) :
    coreBarDone (completeGrpBars (leadCore d l (park l (some b))) l.g.pos) l.g.pos c = false := by
  obtain ⟨t, ht, st⟩ := h.exists_active_or_parked (some b)
  exact coreBarDone_eq_false h.slot_lt (getGroup_completeGrpBars_park h b) rfl ht
    (by rcases st with st | st <;> simp [st]) (by rcases st with st | st <;> simp [st, Ne.symm hc])

/-- Something that barrier `b` of the lead's task waits for when the lead's lanes have parked there (02 R56). -/
def CoreBarWaits (d : Dev) (l : Lead) (b : BitVec 3) : Prop :=
  (∃ t, t < 32 ∧ isLive (laneOf l.g t) = true ∧ onLane l.run t = false ∧ (laneOf l.g t).st ≠ .parked (some b)) ∨
  (∃ k, getTask (getCore d l.core) l.g.pos = some k ∧ k.admitted < k.ngroups) ∨
  (∃ k h t, k < 32 ∧ k ≠ l.slot ∧ getGroup (getCore d l.core) k = some h ∧ h.pos = l.g.pos ∧ t < 32 ∧
    isLive (laneOf h t) = true ∧ (laneOf h t).st ≠ .parked (some b))

/-- A barrier that something waits for does not complete: a thread released from a group barrier is elsewhere still. -/
theorem CoreBarWaits.not_done {d : Dev} {l : Lead} {b : BitVec 3} (hl : LeadIn l) (h : CoreBarWaits d l b) :
    coreBarDone (completeGrpBars (leadCore d l (park l (some b))) l.g.pos) l.g.pos b = false := by
  rcases h with ⟨t, ht, live, out, away⟩ | ⟨T, hT, left⟩ | ⟨k, h, t, hk, hne, hg, hp, ht, live, away⟩
  · have st : (laneOf (park l (some b)) t).st = (laneOf l.g t).st := by simp [st_park l (some b) t ht, out]
    exact coreBarDone_eq_false hl.slot_lt (getGroup_completeGrpBars_park hl b) rfl ht
      (by rw [st]; exact (isLive_iff _).mp live) (by rw [st]; exact away)
  · exact coreBarDone_eq_false_of_unadmitted (by rwa [getTask_completeGrpBars, getTask_leadCore]) left b
  · have there := getGroup_completeGrpBars hk ((getGroup_leadCore_other d l (park l (some b)) hne).trans hg) hp
    have live := (isLive_iff _).mp live
    by_cases done : grpBarDone h = true
    · rw [if_pos done] at there
      obtain ⟨live', away'⟩ := releaseBar_keeps_waiting (b := none) ht live away
      exact coreBarDone_eq_false hk there hp ht live' away'
    · rw [if_neg done] at there
      exact coreBarDone_eq_false hk there hp ht live away

theorem CoreBarWaits.group {d : Dev} {l : Lead} {b : BitVec 3} (hl : LeadIn l) (h : CoreBarWaits d l b) :
    getGroup (getCore (settleLead d l (park l (some b))) l.core) l.slot = some (park l (some b)) := by
  obtain ⟨t, ht, st⟩ := hl.exists_active_or_parked (some b)
  have waiting (c : BitVec 3) :
      coreBarDone (completeGrpBars (leadCore d l (park l (some b))) l.g.pos) l.g.pos c = false := by
    by_cases hc : c = b
    · rw [hc]
      exact h.not_done hl
    · exact other_coreBar_waits hl hc
  rw [getGroup_settleLead_of_waiting hl.slot_lt ht (by rcases st with st | st <;> simp [st]) waiting,
    grpBarDone_park_core hl b]
  rfl

/-- Every live thread of the task has arrived at core barrier `b` with this issue (02 R56). -/
structure TaskArrived (d : Dev) (l : Lead) (b : BitVec 3) : Prop where
  some_run : ∃ t, t < 32 ∧ onLane l.run t = true
  admitted : ∀ T, getTask (getCore d l.core) l.g.pos = some T → T.ngroups ≤ T.admitted
  own : Arrived l (some b)
  others : ∀ k h, k < 32 → k ≠ l.slot → getGroup (getCore d l.core) k = some h → h.pos = l.g.pos →
    ∀ t, t < 32 → isLive (laneOf h t) = true → (laneOf h t).st = .parked (some b)

/-- A group whose live threads are all PARKED at a core barrier completes no group barrier. -/
theorem grpBarDone_of_parked_core {g : Group} {b : BitVec 3}
    (h : ∀ t, t < 32 → (laneOf g t).st = .exited ∨ (laneOf g t).st = .parked (some b)) : grpBarDone g = false := by
  rw [← Bool.not_eq_true, grpBarDone_iff]
  rintro ⟨⟨t, ht, st⟩, -⟩
  rcases h t ht with h | h <;> simp [st] at h

/-- When every live thread of the task has arrived at barrier `b`, it completes, the group barriers having changed
nothing. -/
theorem TaskArrived.done {d : Dev} {l : Lead} {b : BitVec 3} (hl : LeadIn l) (h : TaskArrived d l b) :
    coreBarDone (completeGrpBars (leadCore d l (park l (some b))) l.g.pos) l.g.pos b = true := by
  rw [coreBarDone_iff]
  refine ⟨fun T hT => h.admitted T (by rwa [getTask_completeGrpBars, getTask_leadCore] at hT), ?_, ?_⟩
  · obtain ⟨t, ht, run⟩ := h.some_run
    exact ⟨l.slot, _, t, hl.slot_lt, getGroup_completeGrpBars_park hl b, rfl, ht, by simp [st_park l _ t ht, run]⟩
  · intro k g t hk hg hp ht
    obtain ⟨g', hg', hp', rfl⟩ := getGroup_mapTaskGroups_some hk hg hp
    have parked : ∀ t, t < 32 → (laneOf g' t).st = .exited ∨ (laneOf g' t).st = .parked (some b) := by
      by_cases hk' : k = l.slot
      · subst hk'
        rw [getGroup_leadCore] at hg'
        cases hg'
        exact h.own.exited_or_parked
      · rw [getGroup_leadCore_other _ _ _ hk'] at hg'
        intro t ht
        by_cases live : (laneOf g' t).st = .exited
        · exact .inl live
        · exact .inr (h.others k g' hk hk' hg' hp' t ht (by simpa using live))
    simp only [grpBarDone_of_parked_core parked, Bool.false_eq_true, if_false]
    exact parked t ht

theorem TaskArrived.group {d : Dev} {l : Lead} {b : BitVec 3} (hl : LeadIn l) (h : TaskArrived d l b) :
    getGroup (getCore (settleLead d l (park l (some b))) l.core) l.slot =
      some (releaseBar (some b) (park l (some b))) := by
  obtain ⟨t, ht, run⟩ := h.some_run
  have parked : (laneOf (park l (some b)) t).st = .parked (some b) := by simp [st_park l _ t ht, run]
  have active : (laneOf (releaseBar (some b) (park l (some b))) t).st = .active := by
    simp [laneOf_releaseBar _ _ t ht, parked]
  have released := getGroup_completeCoreBar (h.done hl) hl.slot_lt (getGroup_completeGrpBars_park hl b) rfl ht parked
  have settled : settleBarriers (leadCore d l (park l (some b))) l.g.pos =
      completeCoreBar l.g.pos (completeGrpBars (leadCore d l (park l (some b))) l.g.pos) b := by
    rw [settleBarriers_eq]
    exact foldl_eq_of_one_step _ (mem_coreBars b)
      (fun c hc => completeCoreBar_of_waiting (other_coreBar_waits hl hc)) rfl
      fun c => completeCoreBar_of_waiting
        (coreBarDone_eq_false hl.slot_lt released rfl ht (by simp [active]) (by simp [active]))
  rw [getCore_settleLead, settle, park_pos, settled]
  exact getGroup_freeDead_of_live released ht (by simp [active])

/-- Settles O9: an ACTIVE lane, or one PARKED at the barrier just issued, holds every other barrier up, so that only
that barrier can complete, which it does when every live thread has arrived. -/
theorem barriersParkAndRelease : Obligations.BarriersParkAndRelease := by
  unfold Obligations.BarriersParkAndRelease
  refine ⟨?grpWaits, ?grpDone, ?coreWaits, ?coreDone⟩
  case grpWaits =>
    rintro x f s l h ⟨t, ht, live, out, away⟩
    have st : (laneOf (park l none) t).st = (laneOf l.g t).st := by simp [st_park l none t ht, out]
    have waits : grpBarDone (park l none) = false :=
      grpBarDone_eq_false ht (by rw [st]; exact (isLive_iff _).mp live) (by rw [st]; exact away)
    refine ⟨_, park l none, barGrp_next h, ?_, park_parked l none⟩
    rw [withDev_dev, barGrp_group (leadIn_of_issues h), waits]
    rfl
  case grpDone =>
    rintro x f s l h ⟨t, ht, run⟩ arrived
    have done : grpBarDone (park l none) = true :=
      (grpBarDone_iff _).mpr ⟨⟨t, ht, by simp [st_park l none t ht, run]⟩, Arrived.exited_or_parked arrived⟩
    refine ⟨_, _, barGrp_next h, ?_, Arrived.released (leadIn_of_issues h) arrived⟩
    rw [withDev_dev, barGrp_group (leadIn_of_issues h), if_pos done]
  case coreWaits =>
    intro x f s l h waits
    exact ⟨_, _, barCore_next h, CoreBarWaits.group (leadIn_of_issues h) waits, park_parked l _⟩
  case coreDone =>
    intro x f s l h some_run admitted own others
    exact ⟨_, _, barCore_next h, TaskArrived.group (leadIn_of_issues h) ⟨some_run, admitted, own, others⟩,
      Arrived.released (leadIn_of_issues h) own⟩

end Sys2Proof.Machine
end

section
/-! Fills: a missing instruction line from its home, and a missing page from the page map (02 R48, 09 R266, R269). -/

namespace Sys2Proof.Machine

theorem exec_instructionCacheFill (x : At) (s : State) :
    exec (.instructionCacheFill x) s = gated s "INSTRUCTION_CACHE_FILL" (instructionCacheFill x s.dev) := (rfl)

theorem exec_tlbMissFill (who : TlbUser) (page : BitVec 19) (s : State) :
    exec (.tlbMissFill who page) s = gated s "TLB_MISS_FILL" (tlbMissFill who page s.dev) := (rfl)

/-! ## Translation of a page that no cache holds -/

/-- An entry translates: it maps a frame that is not retired (09 R266). -/
abbrev Translates (d : Dev) (e : D64) : Prop := pteMaps d e ∧ pteRetired e = false

/-- An entry without an error mark is read as it is stored. -/
theorem readPage_unmarked {d : Dev} {p : Nat} (h : markOf d 0x0C 0 p = none) :
    (Translates d (pmapEntry d p) → readPage d p = (.entry (pmapEntry d p), d)) ∧
    (¬ Translates d (pmapEntry d p) → readPage d p = (.invalid, d) ∨ readPage d p = (.retired, d)) := by
  simp only [readPage, h, Translates]
  by_cases maps : pteMaps d (pmapEntry d p) = true <;> by_cases ret : pteRetired (pmapEntry d p) = true <;>
    simp [maps, ret]

/-- A page that a cache does not hold enters in front of the entries it holds. -/
theorem cacheEntry_of_miss {l : List (Nat × D64)} {p : Nat} (h : ∀ x ∈ l, x.1 ≠ p) (cap : Nat) (e : D64) :
    cacheEntry l cap p e = ((p, e) :: l).take cap := by
  rw [cacheEntry, List.filter_eq_self.mpr fun x hx => by simpa using h x hx]

theorem find_page_of_miss {l : List (Nat × D64)} {p : Nat} (h : ∀ x ∈ l, x.1 ≠ p) :
    (l.find? fun x => x.1 = p) = none := by
  simpa [List.find?_eq_none] using h

theorem any_page_of_miss {l : List (Nat × D64)} {p : Nat} (h : ∀ x ∈ l, x.1 ≠ p) :
    (l.any fun x => x.1 = p) = false := by
  simpa [List.any_eq_false] using h

/-- A TLB miss keeps the stored entry where it translates, and else changes nothing (09 R269). -/
theorem coreTx_of_miss {d : Dev} {n p : Nat} (miss : ∀ x ∈ (getCore d n).tlb, x.1 ≠ p)
    (clean : markOf d 0x0C 0 p = none) :
    (coreTx d n p).2 = if Translates d (pmapEntry d p) then
      putCore d n { getCore d n with tlb := ((p, pmapEntry d p) :: (getCore d n).tlb).take 256 } else d := by
  obtain ⟨good, bad⟩ := readPage_unmarked clean
  simp only [coreTx, find_page_of_miss miss]
  by_cases tr : Translates d (pmapEntry d p)
  · simp only [good tr, cacheEntry_of_miss miss, if_pos tr]
  · rw [if_neg tr]
    rcases bad tr with h | h <;> simp only [h]

theorem baseTx_of_miss {d : Dev} {p : Nat} (miss : ∀ x ∈ d.btc, x.1 ≠ p) (clean : markOf d 0x0C 0 p = none) :
    (baseTx d p).2 = if Translates d (pmapEntry d p) then
      { d with btc := ((p, pmapEntry d p) :: d.btc).take 4096 } else d := by
  obtain ⟨good, bad⟩ := readPage_unmarked clean
  simp only [baseTx, find_page_of_miss miss]
  by_cases tr : Translates d (pmapEntry d p)
  · simp only [good tr, cacheEntry_of_miss miss, if_pos tr]
  · rw [if_neg tr]
    rcases bad tr with h | h <;> simp only [h]

theorem memByte_of_mem {d e : Dev} (h : e.mem = d.mem) (f o : Nat) : memByte e f o = memByte d f o := by
  rw [memByte, memByte, h]

/-! ## The instruction cache -/

/-- A fill whose line comes back with status OK puts that line in the cache of the group's core. -/
theorem instructionCacheFill_of_ok {x : At} {d d' : Dev} {l : Lead} {a : Nat} {e : D64} (lead : leadOf x 0 d = some l)
    (good : pcBad l.pc = false) (ha : a = fetchAddr (getCore d l.core) l.pc)
    (miss : ∀ y ∈ (getCore d l.core).ic, y.1 ≠ a / 128) (inside : a < 2 ^ 39)
    (tx : coreTx d l.core (a / 2 ^ 20) = (.entry e, d'))
    (served : serveStop d' (some l.core) e (a / 128) .read = 0) (budget : budgetOk d' l.core = true)
    (slot : needsMemory d' e (a / 128) .read = true → bit (regGet d' (aCdcStatus (halfOf (homeOf e (a / 128))))) 62 = false)
    (ok : (accessHome (spend d' l.core) 5 e (a / 128) .read).1.status = .ok) :
    ∃ t, instructionCacheFill x d = some t ∧
      (a / 128, (accessHome (spend d' l.core) 5 e (a / 128) .read).1.line) ∈ (getCore t l.core).ic := by
  subst ha
  have absent : ((getCore d l.core).ic.any fun e => e.1 == fetchAddr (getCore d l.core) l.pc / 128) = false := by
    simpa [List.any_eq_false] using miss
  have free : (!budgetOk d' l.core || (needsMemory d' e (fetchAddr (getCore d l.core) l.pc / 128) .read &&
      bit (regGet d' (aCdcStatus (halfOf (homeOf e (fetchAddr (getCore d l.core) l.pc / 128))))) 62)) = false := by
    simpa [budget] using slot
  simp only [instructionCacheFill, lead, good, absent, tx, served, free, Bool.false_eq_true, if_false,
    if_neg (Nat.not_le.mpr inside), ok, ne_eq, not_true_eq_false]
  refine ⟨_, rfl, ?_⟩
  rw [getCore_putCore]
  exact List.mem_append_right _ (List.mem_singleton_self _)

/-- Settles O21: on the path where nothing stops the fill its line is appended to the cache; a TLB miss reads the page
map and keeps an entry that translates. -/
theorem fillsBringLinesAndEntries : Obligations.FillsBringLinesAndEntries := by
  unfold Obligations.FillsBringLinesAndEntries
  refine ⟨?line, ?core, ?base⟩
  case line =>
    intro x s l e d lead good miss inside tx served budget slot ok
    obtain ⟨t, ht, there⟩ := instructionCacheFill_of_ok lead good rfl miss inside tx served budget slot ok
    exact ⟨_, by rw [exec_instructionCacheFill, ht, gated_some], there⟩
  case core =>
    intro n p s up miss clean
    have h : tlbMissFill (.core n) p s.dev = some (coreTx s.dev n.toNat p.toNat).2 := by
      simp [tlbMissFill, up, any_page_of_miss miss]
    refine ⟨_, by rw [exec_tlbMissFill, h, gated_some], ?_, memByte_of_mem (coreTx_mem _ _ _), ?_⟩ <;>
      rw [withDev_dev, coreTx_of_miss miss clean]
    · split <;> simp
    · split
      · rw [getCore_putCore]
      · rfl
  case base =>
    intro p s miss clean
    have h : tlbMissFill .base p s.dev = some (baseTx s.dev p.toNat).2 := by
      simp [tlbMissFill, any_page_of_miss miss]
    refine ⟨_, by rw [exec_tlbMissFill, h, gated_some], ?_, memByte_of_mem (baseTx_mem _ _), ?_⟩ <;>
      rw [withDev_dev, baseTx_of_miss miss clean]
    · split <;> rfl
    · split <;> rfl

end Sys2Proof.Machine
end

section
/-! GROUP_ADMIT: the lowest free slot, the lowest free range of group registers, and the initial state of a group (02
R43, R52 to R54, R63, R64, Table 2.3). -/

namespace Sys2Proof.Machine

theorem exec_groupAdmit (core : BitVec 11) (pos : Bool) (s : State) :
    exec (.groupAdmit core pos) s = gated s "GROUP_ADMIT" (groupAdmit core pos s.dev) := (rfl)

/-! ## Tasks of a core -/

@[simp] theorem getTask_putTask (c : Core) (pos : Bool) (t : Option Task) : getTask (putTask c pos t) pos = t := by
  cases pos <;> rfl

@[simp] theorem getTask_putTask_not (c : Core) (pos : Bool) (t : Option Task) :
    getTask (putTask c pos t) (!pos) = getTask c (!pos) := by cases pos <;> rfl

@[simp] theorem getGroup_putTask (c : Core) (pos : Bool) (t : Option Task) (k : Nat) :
    getGroup (putTask c pos t) k = getGroup c k := by cases pos <;> rfl

/-! ## Free slots and ranges -/

/-- The first number of a range that satisfies a test. -/
theorem find?_range_eq_some {p : Nat → Bool} {n i : Nat} (hi : i < n) (h : p i = true)
    (lower : ∀ j, j < i → p j = false) : (List.range n).find? p = some i := by
  rw [List.find?_range_eq_some]
  exact ⟨h, List.mem_range.mpr hi, fun j hj => by simp [lower j hj]⟩

theorem freeSlot_eq_some {c : Core} {i : Nat} (hi : i < 32) (free : getGroup c i = none)
    (lower : ∀ j, j < i → getGroup c j ≠ none) : freeSlot c = some i :=
  find?_range_eq_some hi (decide_eq_true free) fun j hj => decide_eq_false (lower j hj)

theorem freeRange_eq_some {c : Core} {a b : Nat} (hb : b < 256) (free : rangeFree c (8 * b) a = true)
    (lower : ∀ j, j < b → rangeFree c (8 * j) a = false) : freeRange c a = some (8 * b) := by
  have first : (List.range 256).find? ((fun b => rangeFree c b a) ∘ (8 * ·)) = some b :=
    find?_range_eq_some hb free lower
  rw [freeRange, List.find?_map, first]
  rfl

/-! ## The initial state of a group (Table 2.3) -/

theorem newGroup_live (T : Task) (uid : Nat) (pos : Bool) (core base l : Nat) (hl : l < 32)
    (live : 32 * T.admitted + l < T.threads) :
    laneOf (newGroup T uid pos core base) l = { pc := T.entry, st := .active, yld := false, preds := 0 } := by
  rw [laneOf, newGroup, perLane_getD _ _ _ hl]
  simp [live]

theorem newGroup_dead (T : Task) (uid : Nat) (pos : Bool) (core base l : Nat) (hl : l < 32)
    (dead : T.threads ≤ 32 * T.admitted + l) : laneOf (newGroup T uid pos core base) l = deadLane := by
  rw [laneOf, newGroup, perLane_getD _ _ _ hl]
  simp [Nat.not_lt.mpr dead]

theorem readX_newGroup_zero (T : Task) (uid : Nat) (pos : Bool) (core base l : Nat) (hl : l < 32) :
    readX (newGroup T uid pos core base) 0 l =
      if 32 * T.admitted + l < T.threads then BitVec.ofNat 32 (32 * T.admitted + l) else 0 := by
  rw [readX, if_neg (by decide), newGroup, mapGet_put_same, perLane_getD _ _ _ hl]
  simp

/-- Every thread register but X0 is 0. -/
theorem readX_newGroup_other (T : Task) (uid : Nat) (pos : Bool) (core base r l : Nat) (hr : r ≠ 0) :
    readX (newGroup T uid pos core base) r l = 0 := by
  unfold readX
  split
  · rfl
  · rw [newGroup, mapGet_put_other _ _ _ _ _ hr]
    change zeroRow.getD l 0 = 0
    rw [List.getD_eq_getElem?_getD]
    exact List.getElem?_getD_replicate_default_eq 0 32 l

/-- Writing keys 0 to n − 1 gives each its value and leaves the others. -/
theorem mapGet_foldl_range {α : Type} [DecidableEq α] (dv : α) (f : Nat → α) (n : Nat) (m : SMap α) (k : Nat) :
    mapGet dv (((List.range n).map fun i => (i, f i)).foldl (fun m e => mapPut dv m e.1 e.2) m) k =
      if k < n then f k else mapGet dv m k := by
  induction n with
  | zero => rfl
  | succ n ih =>
    rw [List.range_succ, List.map_append, List.foldl_append]
    simp only [List.map_cons, List.map_nil, List.foldl_cons, List.foldl_nil]
    by_cases hk : k = n
    · subst hk
      rw [mapGet_put_same, if_pos (by omega)]
    · rw [mapGet_put_other _ _ _ _ _ hk, ih]
      simp only [show k < n + 1 ↔ k < n by omega]

/-- The uniform registers of a new group: the launch arguments, the group's index and the core. -/
theorem readU_newGroup (T : Task) (uid : Nat) (pos : Bool) (core base r : Nat) :
    readU (newGroup T uid pos core base) r =
      if r = 17 then BitVec.ofNat 32 core else if r = 16 then BitVec.ofNat 32 T.admitted
      else if r < 16 then T.args.getD r 0 else 0 := by
  rw [readU, newGroup]
  simp only [List.foldl_append, List.foldl_cons, List.foldl_nil]
  by_cases h17 : r = 17
  · rw [h17, mapGet_put_same, if_pos rfl]
  · rw [mapGet_put_other _ _ _ _ _ h17, if_neg h17]
    by_cases h16 : r = 16
    · rw [h16, mapGet_put_same, if_pos rfl]
    · rw [mapGet_put_other _ _ _ _ _ h16, if_neg h16, mapGet_foldl_range]
      rfl

/-! ## GROUP_ADMIT -/

/-- The core after GROUP_ADMIT: the new group in its slot, and one more group of the task admitted. -/
def admitCore (c : Core) (pos : Bool) (T : Task) (i : Nat) (g : Group) : Core :=
  putTask (putGroup c i (some g)) pos (some { T with admitted := T.admitted + 1 })

theorem groupAdmit_of_free {core : BitVec 11} {pos : Bool} {d : Dev} {T : Task} {i b : Nat}
    (task : getTask (getCore d core.toNat) pos = some T)
    (may : (coreUp d core.toNat && bit (regGet d aSecBoot) 63 && T.started && !T.aborted &&
      decide (T.admitted < T.ngroups)) = true)
    (slot : freeSlot (getCore d core.toNat) = some i)
    (range : freeRange (getCore d core.toNat) (allocOf T.nregs) = some b) :
    groupAdmit core pos d = some (putCore (takeId d).2 core.toNat
      (admitCore (getCore d core.toNat) pos T i (newGroup T d.nextId pos core.toNat b))) := by
  simp only [groupAdmit, task, may, if_true, slot, range]
  rfl

/-- Settles O40: the slot and the range found are the lowest free ones, and what the new group holds is read off
`newGroup`. -/
theorem groupsAreAdmittedInOrder : Obligations.GroupsAreAdmittedInOrder := by
  unfold Obligations.GroupsAreAdmittedInOrder
  intro core pos s T i b task up ready started aborted left hi slot lowerSlot hb range lowerRange
  have admits := groupAdmit_of_free task (by simp [up, ready, started, aborted, left])
    (freeSlot_eq_some hi slot lowerSlot) (freeRange_eq_some hb range lowerRange)
  refine ⟨_, newGroup T s.dev.nextId pos core.toNat (8 * b), by rw [exec_groupAdmit, admits, gated_some], ?_, ?_⟩
  · exact ⟨withDev_pending s _, rfl, fun m hm => getCore_putCore_other _ _ _ _ hm, fun _ _ => rfl⟩
  rw [withDev_dev, getCore_putCore]
  refine ⟨by simp [admitCore], fun j hj => ?_, by simp [admitCore], by simp [admitCore], rfl, rfl, rfl, rfl, rfl, rfl,
    fun l hl => ⟨fun live => ?_, fun dead => ?_, fun r hr => readX_newGroup_other _ _ _ _ _ r l hr⟩, fun r hr => ?_,
    ?_, ?_, fun r hr => ?_⟩
  · rw [admitCore, getGroup_putTask, getGroup_putGroup_other _ _ _ _ hj]
  · exact ⟨newGroup_live T _ _ _ _ l hl live, by rw [readX_newGroup_zero _ _ _ _ _ l hl, if_pos live]⟩
  · refine ⟨?_, by rw [readX_newGroup_zero _ _ _ _ _ l hl, if_neg (by omega)]⟩
    rw [newGroup_dead T _ _ _ _ l hl dead]
    rfl
  · rw [readU_newGroup, if_neg (by omega), if_neg (by omega), if_pos hr]
  · rw [readU_newGroup, if_neg (by omega), if_pos rfl]
  · rw [readU_newGroup, if_pos rfl]
  · rw [readU_newGroup, if_neg (by omega), if_neg (by omega), if_neg (by omega)]

end Sys2Proof.Machine
end

section
/-! The banks of a scratchpad one by one: what giving a bank a state, a tag or contents leaves of each bank, and what a
task that starts or ends does to its banks (07 R208 to R213). -/

namespace Sys2Proof.Machine

/-! ## Fields of a word -/

theorem getLsbD_setBits {n : Nat} (x : BitVec n) (lo w v i : Nat) (hi : i < n) :
    (setBits x lo w v).getLsbD i = if lo ≤ i ∧ i < lo + w then v.testBit (i - lo) else x.getLsbD i := by
  simp only [setBits, BitVec.getLsbD_or, BitVec.getLsbD_and, BitVec.getLsbD_not, BitVec.getLsbD_ofNat,
    Nat.testBit_mul_two_pow, Nat.testBit_two_pow_sub_one, Nat.testBit_mod_two_pow, hi, decide_true, Bool.true_and]
  by_cases h1 : lo ≤ i
  · have inside : i - lo < w ↔ i < lo + w := by omega
    by_cases h2 : i < lo + w <;> simp [h1, h2, inside]
  · simp [h1]

theorem testBit_bits {n : Nat} (x : BitVec n) (lo w i : Nat) :
    (bits x lo w).testBit i = (decide (i < w) && x.getLsbD (lo + i)) := by
  rw [bits, Nat.testBit_mod_two_pow, Nat.testBit_div_two_pow, Nat.add_comm i lo, BitVec.getLsbD]

/-- A field reads as what was written to it. -/
theorem bits_setBits_same {n : Nat} (x : BitVec n) (lo w v : Nat) (h : lo + w ≤ n) (hv : v < 2 ^ w) :
    bits (setBits x lo w v) lo w = v := by
  refine Nat.eq_of_testBit_eq fun i => ?_
  rw [testBit_bits]
  by_cases hi : i < w
  · rw [getLsbD_setBits _ _ _ _ _ (by omega), if_pos ⟨by omega, by omega⟩]
    simp [hi]
  · rw [Nat.testBit_lt_two_pow (Nat.lt_of_lt_of_le hv (Nat.pow_le_pow_right (by decide) (Nat.not_lt.mp hi)))]
    simp [hi]

/-- A field apart from the one that was written reads as before. -/
theorem bits_setBits_other {n : Nat} (x : BitVec n) (lo w v lo' w' : Nat) (h : lo' + w' ≤ n)
    (apart : lo' + w' ≤ lo ∨ lo + w ≤ lo') : bits (setBits x lo w v) lo' w' = bits x lo' w' := by
  refine Nat.eq_of_testBit_eq fun i => ?_
  rw [testBit_bits, testBit_bits]
  by_cases hi : i < w'
  · rw [getLsbD_setBits _ _ _ _ _ (by omega), if_neg (by omega)]
  · simp [hi]

theorem bankField_setBank (w : Word) {b c v : Nat} (hc : c < 16) (hv : v < 4) :
    bankField (setBank w b v) c = if c = b then v else bankField w c := by
  split
  · rename_i h
    subst h
    exact bits_setBits_same _ _ _ _ (by omega) hv
  · exact bits_setBits_other _ _ _ _ _ _ (by omega) (by omega)

theorem bit_setBits_one (x : BitVec 16) {b c : Nat} (hc : c < 16) (v : Bool) :
    bit (setBits x b 1 (b2n v)) c = if c = b then v else bit x c := by
  rw [bit, getLsbD_setBits _ _ _ _ _ hc]
  by_cases h : c = b
  · subst h
    cases v <;> simp [b2n]
  · rw [if_neg (by omega), if_neg h]
    rfl

/-! ## One bank -/

/-- What the scratchpad holds of one bank: its state, its retain tag, whether it is to be initialised, and its bytes. -/
structure BankView where
  state : Nat
  tag : Word
  fresh : Bool
  byte : Nat → Byte

/-- Bank `b` of a scratchpad. -/
def bankView (x : Spx) (b : Nat) : BankView where
  state := bankState x b
  tag := mapGet 0 x.tags b
  fresh := bit x.initing b
  byte i := mapGet 0 x.bytes (32768 * b + i % 32768)

/-- Bank `b` of core `n`. -/
def bankAt (d : Dev) (n b : Nat) : BankView := bankView (getCore d n).spx b

/-- A byte of the scratchpad is a byte of its bank. -/
theorem spadByte_eq (d : Dev) (n : Nat) {o b : Nat} (h : o / 32768 = b) : spadByte d n o = (bankAt d n b).byte o := by
  have place : 32768 * b + o % 32768 = o := by omega
  simp only [spadByte, bankAt, bankView, place]

/-- From `d` to `e` nothing has changed but the scratchpad of core `n` and marks of its words. -/
structure SpxOnly (n : Nat) (d e : Dev) : Prop where
  mem : e.mem = d.mem
  regs : e.regs = d.regs
  disp : e.disp = d.disp
  others : ∀ m, m ≠ n → getCore e m = getCore d m
  core : getCore e n = { getCore d n with spx := (getCore e n).spx }

theorem SpxOnly.refl (n : Nat) (d : Dev) : SpxOnly n d d := ⟨rfl, rfl, rfl, fun _ _ => rfl, rfl⟩

theorem SpxOnly.trans {n : Nat} {d e f : Dev} (h : SpxOnly n d e) (k : SpxOnly n e f) : SpxOnly n d f := by
  refine ⟨k.mem.trans h.mem, k.regs.trans h.regs, k.disp.trans h.disp, fun m hm => (k.others m hm).trans (h.others m hm),
    ?_⟩
  rw [k.core, h.core]

theorem spxOnly_putCore (d : Dev) (n : Nat) (x : Spx) : SpxOnly n d (putCore d n { getCore d n with spx := x }) := by
  refine ⟨putCore_mem _ _ _, putCore_regs _ _ _, putCore_disp _ _ _, fun m hm => getCore_putCore_other _ _ _ _ hm, ?_⟩
  rw [getCore_putCore]

theorem setBankState_only (d : Dev) (n b v : Nat) : SpxOnly n d (setBankState d n b v) := spxOnly_putCore _ _ _
theorem setTag_only (d : Dev) (n b : Nat) (v : Word) : SpxOnly n d (setTag d n b v) := spxOnly_putCore _ _ _

theorem clearBank_only (d : Dev) (n b : Nat) : SpxOnly n d (clearBank d n b) := by
  have h : SpxOnly n d { d with errs := d.errs.filter fun e =>
    !(decide (e.mem = 0x05) && decide (e.unit = n) && decide (e.index / 32768 = b)) } :=
    ⟨rfl, rfl, rfl, fun _ _ => rfl, rfl⟩
  exact h.trans (spxOnly_putCore _ _ _)

theorem bankAt_setBankState (d : Dev) (n : Nat) {b c v : Nat} (hc : c < 16) (hv : v < 4) :
    bankAt (setBankState d n b v) n c = if c = b then { bankAt d n c with state := v } else bankAt d n c := by
  simp only [bankAt, setBankState, getCore_putCore, bankView, bankState, bankField_setBank _ hc hv]
  split <;> rfl

theorem bankAt_setTag (d : Dev) (n b c : Nat) (v : Word) :
    bankAt (setTag d n b v) n c = if c = b then { bankAt d n c with tag := v } else bankAt d n c := by
  simp only [bankAt, setTag, getCore_putCore, bankView]
  split
  · rename_i h
    subst h
    rw [mapGet_put_same]
    rfl
  · rename_i h
    rw [mapGet_put_other _ _ _ _ _ h]
    rfl

/-- The entries of a map that stand at keys satisfying a test. -/
theorem mapGet_filter_keys {α : Type} (dv : α) (m : SMap α) (p : Nat → Bool) (k : Nat) :
    mapGet dv (m.filter fun e => p e.1) k = if p k then mapGet dv m k else dv := by
  induction m with
  | nil => simp [mapGet]
  | cons e m ih =>
    rw [List.filter_cons]
    by_cases hk : e.1 = k
    · subst hk
      by_cases hp : p e.1 = true
      · simp [hp, mapGet]
      · simp only [hp, Bool.false_eq_true, if_false] at ih ⊢
        exact ih
    · by_cases hp : p e.1 = true <;> simp [hp, mapGet, hk, ih]

/-- Dropping the bytes of a bank leaves those of the other banks. -/
theorem bankView_drop (x : Spx) (b c : Nat) :
    bankView { x with bytes := x.bytes.filter fun e => e.1 / 32768 != b } c =
      if c = b then { bankView x c with byte := fun _ => 0 } else bankView x c := by
  have bank (i : Nat) : (32768 * c + i % 32768) / 32768 = c := by omega
  have byte (i : Nat) := mapGet_filter_keys (0 : Byte) x.bytes (fun k => k / 32768 != b) (32768 * c + i % 32768)
  simp only [bank] at byte
  simp only [bankView, bankState, byte]
  by_cases h : c = b <;> simp [h]

theorem getCore_clearBank (d : Dev) (n b : Nat) : getCore (clearBank d n b) n =
    { getCore d n with spx := { (getCore d n).spx with
      bytes := (getCore d n).spx.bytes.filter fun e => e.1 / 32768 != b } } := getCore_putCore _ _ _

theorem bankAt_clearBank (d : Dev) (n b c : Nat) :
    bankAt (clearBank d n b) n c = if c = b then { bankAt d n c with byte := fun _ => 0 } else bankAt d n c := by
  rw [bankAt, getCore_clearBank, bankView_drop]
  rfl

end Sys2Proof.Machine
end

section
/-! What a task that starts or ends does to its banks (07 R211 to R213). -/

namespace Sys2Proof.Machine

/-! ## Waking and turning off one bank -/

theorem wakeBank_only (d : Dev) (n b : Nat) (keep : Bool) : SpxOnly n d (wakeBank d n b keep) :=
  ((setBankState_only d n b bankWaking).trans (setTag_only _ n b 0)).trans (spxOnly_putCore _ n _)

theorem bankTurnOff_only (d : Dev) (n b : Nat) : SpxOnly n d (bankTurnOff d n b) :=
  ((clearBank_only d n b).trans (setBankState_only _ n b bankOff)).trans (setTag_only _ n b 0)

theorem bankView_initing (x : Spx) {b c : Nat} (hc : c < 16) (v : Bool) :
    bankView { x with initing := setBits x.initing b 1 (b2n v) } c =
      if c = b then { bankView x c with fresh := v } else bankView x c := by
  simp only [bankView, bankState, bit_setBits_one _ hc]
  by_cases h : c = b <;> simp [h]

theorem bankAt_wakeBank (d : Dev) (n b : Nat) (keep : Bool) {c : Nat} (hc : c < 16) :
    bankAt (wakeBank d n b keep) n c =
      if c = b then { bankAt d n c with state := bankWaking, tag := 0, fresh := !keep } else bankAt d n c := by
  have view := bankView_initing (getCore (setTag (setBankState d n b bankWaking) n b 0) n).spx (b := b) hc (!keep)
  rw [← bankAt, bankAt_setTag, bankAt_setBankState d n hc (by decide)] at view
  rw [wakeBank, bankAt, getCore_putCore, view]
  split <;> rfl

theorem bankAt_bankTurnOff (d : Dev) (n b : Nat) {c : Nat} (hc : c < 16) :
    bankAt (bankTurnOff d n b) n c =
      if c = b then { bankAt d n c with state := bankOff, tag := 0, byte := fun _ => 0 } else bankAt d n c := by
  rw [bankTurnOff, bankAt_setTag, bankAt_setBankState _ n hc (by decide), bankAt_clearBank]
  split <;> rfl

/-! ## The banks of a set -/

theorem mem_maskBanks (m : BitVec 16) (b : Nat) : b ∈ maskBanks m.toNat ↔ b < 16 ∧ bit m b = true := by
  rw [maskBanks, List.mem_filter, List.mem_range]
  rfl

theorem maskBanks_nodup (m : Nat) : (maskBanks m).Nodup := List.nodup_range.filter _

/-- A bank set other than 0 has a bank in it. -/
theorem exists_bank_of_ne_zero {m : BitVec 16} (h : m ≠ 0) : ∃ b, b < 16 ∧ bit m b = true := by
  refine Classical.byContradiction fun none => h (BitVec.eq_of_getLsbD_eq fun b hb => ?_)
  simpa [bit] using fun hbit => none ⟨b, hb, hbit⟩

/-- A step for each bank of a list that acts on that bank only acts on each of them once. -/
theorem foldl_banks {n : Nat} (f : Dev → Nat → Dev) (F : Nat → BankView → BankView) (only : ∀ d b, SpxOnly n d (f d b))
    (view : ∀ d b c, c < 16 → bankAt (f d b) n c = if c = b then F c (bankAt d n c) else bankAt d n c)
    {l : List Nat} (nodup : l.Nodup) (d : Dev) :
    SpxOnly n d (l.foldl f d) ∧
    ∀ c, c < 16 → bankAt (l.foldl f d) n c = if c ∈ l then F c (bankAt d n c) else bankAt d n c := by
  induction l generalizing d with
  | nil => exact ⟨.refl n d, fun c _ => by simp⟩
  | cons b l ih =>
    obtain ⟨hb, hl⟩ := List.nodup_cons.mp nodup
    obtain ⟨rest, views⟩ := ih hl (f d b)
    refine ⟨(only d b).trans rest, fun c hc => ?_⟩
    rw [List.foldl_cons, views c hc, view d b c hc]
    by_cases h : c = b
    · subst h
      simp [hb]
    · simp [h]

/-! ## The banks of a task that starts (07 R212) -/

/-- A bank keeps its contents for a task that starts: retained under its handle and declared RESIDENT (07 R211). -/
def keepsBank (T : Task) (b : Nat) (v : BankView) : Bool :=
  bit T.resident b && decide (v.state = bankRetain) && decide (v.tag = T.handle) && decide (T.handle ≠ 0)

theorem keepsBank_iff (T : Task) (b : Nat) (v : BankView) : keepsBank T b v = true ↔
    bit T.resident b = true ∧ v.state = bankRetain ∧ v.tag = T.handle ∧ T.handle ≠ 0 := by
  simp [keepsBank, and_assoc]

theorem startBanks_views (d : Dev) (n : Nat) (T : Task) :
    SpxOnly n d (startBanks d n T) ∧
    ∀ c, c < 16 → bankAt (startBanks d n T) n c =
      if bit T.banks c then { bankAt d n c with state := bankWaking, tag := 0, fresh := !keepsBank T c (bankAt d n c) }
      else bankAt d n c := by
  have h := foldl_banks (n := n) (fun d b => wakeBank d n b (keepsBank T b (bankAt d n b)))
    (fun c v => { v with state := bankWaking, tag := 0, fresh := !keepsBank T c v })
    (fun d b => wakeBank_only d n b _) (fun d b c hc => by
      rw [bankAt_wakeBank d n b _ hc]
      by_cases h : c = b
      · subst h
        simp
      · simp [h]) (maskBanks_nodup T.banks.toNat) d
  refine ⟨h.1, fun c hc => (h.2 c hc).trans ?_⟩
  simp only [mem_maskBanks, hc, true_and]

/-- Waking a bank leaves its bytes, whatever comes of them later. -/
theorem startBanks_bytes (d : Dev) (n : Nat) (T : Task) (o : Nat) : spadByte (startBanks d n T) n o = spadByte d n o := by
  unfold startBanks
  generalize maskBanks T.banks.toNat = l
  induction l generalizing d with
  | nil => rfl
  | cons b l ih =>
    rw [List.foldl_cons, ih]
    simp only [spadByte, wakeBank, setTag, setBankState, getCore_putCore]

/-! ## The banks of a task that ends (07 R213) -/

/-- What becomes of bank `b` of a task that ends. -/
def endedView (T : Task) (b : Nat) (v : BankView) : BankView :=
  if bit T.keep b then
    { v with state := bankRetain, tag := T.handle, byte := if v.state = bankOn then v.byte else fun _ => 0 }
  else { v with state := bankOff, tag := 0, byte := fun _ => 0 }

/-- One step of `endBanks`. -/
def endBank (n : Nat) (T : Task) (d : Dev) (b : Nat) : Dev :=
  if bit T.keep b then
    setTag (setBankState (if isOn (getCore d n).spx b then d else clearBank d n b) n b bankRetain) n b T.handle
  else bankTurnOff d n b

theorem endBanks_eq (d : Dev) (n : Nat) (T : Task) :
    endBanks d n T = (maskBanks T.banks.toNat).foldl (endBank n T) d := (rfl)

theorem endBank_only (n : Nat) (T : Task) (d : Dev) (b : Nat) : SpxOnly n d (endBank n T d b) := by
  unfold endBank
  split
  · have first : SpxOnly n d (if isOn (getCore d n).spx b then d else clearBank d n b) := by
      split
      · exact .refl n d
      · exact clearBank_only d n b
    exact (first.trans (setBankState_only _ n b _)).trans (setTag_only _ n b _)
  · exact bankTurnOff_only d n b

theorem bankAt_endBank (n : Nat) (T : Task) (d : Dev) (b c : Nat) (hc : c < 16) :
    bankAt (endBank n T d b) n c = if c = b then endedView T c (bankAt d n c) else bankAt d n c := by
  unfold endBank
  split
  · rename_i keep
    have first : bankAt (if isOn (getCore d n).spx b then d else clearBank d n b) n c =
        if c = b then { bankAt d n c with byte := if (bankAt d n c).state = bankOn then (bankAt d n c).byte else fun _ => 0 }
        else bankAt d n c := by
      by_cases h : c = b
      · subst h
        by_cases on : bankState (getCore d n).spx c = bankOn
        · simp [isOn, on, bankAt, bankView]
        · have off : (bankAt d n c).state ≠ bankOn := on
          simp [isOn, on, off, bankAt_clearBank]
      · split <;> simp [h, bankAt_clearBank]
    rw [bankAt_setTag, bankAt_setBankState _ n hc (by decide), first]
    by_cases h : c = b
    · subst h
      simp [endedView, keep]
    · simp [h]
  · rename_i keep
    rw [bankAt_bankTurnOff d n b hc]
    by_cases h : c = b
    · subst h
      simp [endedView, keep]
    · simp [h]

theorem endBanks_views (d : Dev) (n : Nat) (T : Task) :
    SpxOnly n d (endBanks d n T) ∧
    ∀ c, c < 16 → bankAt (endBanks d n T) n c =
      if bit T.banks c then endedView T c (bankAt d n c) else bankAt d n c := by
  rw [endBanks_eq]
  have h := foldl_banks (endBank n T) (endedView T) (endBank_only n T) (bankAt_endBank n T)
    (maskBanks_nodup T.banks.toNat) d
  refine ⟨h.1, fun c hc => (h.2 c hc).trans ?_⟩
  simp only [mem_maskBanks, hc, true_and]

end Sys2Proof.Machine
end

section
/-! TASK_START: the core as the task finds it, its banks waking, and the start of a task without banks (02 R63 to R65,
04 R113, 05 R149, R158, 07 R211, R212). -/

namespace Sys2Proof.Machine

theorem exec_taskStart (core : BitVec 11) (queue : BitVec 12) (item : Nat) (s : State) :
    exec (.taskStart core queue item) s = gated s "TASK_START" (taskStart core queue item s.dev) := (rfl)

/-! ## Items -/

/-- Replacing an item changes the dispatcher only. -/
theorem putItem_only (d : Dev) (q : Nat) (w : WorkItem) : putItem d q w = { d with disp := (putItem d q w).disp } := by
  unfold putItem
  split <;> rfl

@[simp] theorem getCore_putItem (d : Dev) (q : Nat) (w : WorkItem) (n : Nat) :
    getCore (putItem d q w) n = getCore d n := by rw [putItem_only]; rfl
@[simp] theorem putItem_mem (d : Dev) (q : Nat) (w : WorkItem) : (putItem d q w).mem = d.mem := by rw [putItem_only]
@[simp] theorem putItem_regs (d : Dev) (q : Nat) (w : WorkItem) : (putItem d q w).regs = d.regs := by rw [putItem_only]

/-! ## The core of a task that starts -/

/-- A core as a task that starts finds it: its position taken, no line in the caches a launch acquires, and with
USES_MX the arrays empty (R65, 04 R113). -/
def startCore (c : Core) (pos : Bool) (T : Task) : Core :=
  startMx { putTask c pos (some T) with l1 := [], constc := [], descc := [] } T

/-- With USES_MX, CORE_RU_CTRL takes FTZ_EXP and the marks of the arrays' words go (05 R158, 04 R113). -/
def startArrays (d : Dev) (n : Nat) (w : WorkItem) (T : Task) : Dev :=
  if T.usesMx then
    { regPut d (aRuCtrl n) (BitVec.ofNat 64 w.launch.ftzExp.toNat) with
      errs := d.errs.filter fun e => !(decide (e.unit = n) && (e.mem == 0x07 || e.mem == 0x08 ||
        (e.mem == 0x06 && decide (2 ≤ e.index / 2 ^ 16)))) }
  else d

/-- The device before the banks of the task begin to wake. -/
def startDev (d : Dev) (n q : Nat) (w : WorkItem) (pos : Bool) (T : Task) : Dev :=
  startArrays (putItem (putCore (dropFills (dropFills d n 0) n 5) n (startCore (getCore d n) pos T)) q
    (setPart w n .waiting .resident)) n w T

/-- A position is free at `pos`, which is the lower one, and the task in the other lets `T` start (R63). -/
theorem position_open {c : Core} {pos : Bool} {T : Task} (hpos : pos = c.task0.isSome) (free : getTask c pos = none)
    (lets : ∀ o, getTask c (!pos) = some o → letsStart o T = true) :
    ((!c.task0.isSome || !c.task1.isSome) &&
      (match otherTask c pos with
       | some o => letsStart o T
       | none => true)) = true := by
  have room : (!c.task0.isSome || !c.task1.isSome) = true := by
    cases h : c.task0 with
    | none => simp
    | some o =>
      rw [hpos, h] at free
      simpa [getTask] using free
  rw [room, Bool.true_and, otherTask]
  cases h : getTask c (!pos) with
  | none => rfl
  | some o => exact lets o h

/-- TASK_START with nothing in its way. -/
theorem taskStart_of_open {core : BitVec 11} {queue : BitVec 12} {item : Nat} {d : Dev} {w : WorkItem} {p : Part}
    {m : Module} {T : Task} {pos : Bool} (hw : getItem d queue.toNat item = some w)
    (hp : waitingPart w core.toNat = some p) (begun : w.begun = true)
    (hm : mapGet none d.disp.modules w.launch.module.toNat = some m) (up : coreUp d core.toNat = true)
    (ready : bit (regGet d aSecBoot) 63 = true)
    (hT : T = newTask w.launch queue.toNat item (m.addr + w.launch.entry.toNat) p.redisp)
    (hpos : pos = (getCore d core.toNat).task0.isSome) (free : getTask (getCore d core.toNat) pos = none)
    (lets : ∀ o, getTask (getCore d core.toNat) (!pos) = some o → letsStart o T = true)
    (fits : bit w.launch.lflags 2 = true → T.ngroups ≤ roomFor (8 * ceilDiv T.nregs 8) T.ngroups (getCore d core.toNat)) :
    taskStart core queue item d = some (startWhenOn
      (startBanks (startDev d core.toNat queue.toNat w pos T) core.toNat T) core.toNat pos) := by
  have isOpen := position_open hpos free lets
  have room : (!lfCoreBar w.launch ||
      decide (T.ngroups ≤ roomFor (allocOf T.nregs) T.ngroups (getCore d core.toNat))) = true := by
    rw [lfCoreBar, allocOf]
    cases h : bit w.launch.lflags 2 with
    | false => rfl
    | true => simpa using fits h
  rw [← hpos] at isOpen
  simp only [taskStart, hw, hp, hm, ← hT, ← hpos]
  rw [if_pos (by
    simp only [up, ready, begun, room, Bool.true_and, Bool.and_true]
    exact isOpen)]
  rfl

/-! ### What `startCore` leaves -/

section
variable (c : Core) (pos : Bool) (T : Task)

/-- The arrays are the only thing that USES_MX changes beyond what every start does. -/
theorem startCore_eq : startCore c pos T =
    { putTask c pos (some T) with
      l1 := [], constc := [], descc := [], mx := (startCore c pos T).mx, mxModule := (startCore c pos T).mxModule,
      ru := (startCore c pos T).ru } := by
  unfold startCore startMx
  cases pos <;> split <;> rfl

theorem getTask_startCore : getTask (startCore c pos T) pos = some T := by
  rw [startCore_eq]
  cases pos <;> rfl

theorem getTask_startCore_not : getTask (startCore c pos T) (!pos) = getTask c (!pos) := by
  rw [startCore_eq]
  cases pos <;> rfl

theorem getGroup_startCore (k : Nat) : getGroup (startCore c pos T) k = getGroup c k := by
  rw [startCore_eq]
  cases pos <;> rfl

theorem startCore_spx : (startCore c pos T).spx = c.spx := by
  rw [startCore_eq]
  cases pos <;> rfl

theorem startCore_mx_of_usesMx (h : T.usesMx = true) :
    (∀ i, getTile (startCore c pos T).mx i = emptyTile) ∧ (startCore c pos T).ru = [] ∧
    (startCore c pos T).mx.fsb = [] ∧ (startCore c pos T).mx.afb = [] ∧
    (¬ (T.wstage = true ∧ c.mxModule = T.handle) → ∀ a b, getBank (startCore c pos T).mx a b = emptyBank) := by
  rw [startCore, startMx, if_pos h]
  refine ⟨fun _ => rfl, rfl, rfl, rfl, fun loaded a b => ?_⟩
  have other : (T.wstage && decide (c.mxModule = T.handle)) = false := by
    rw [← Bool.not_eq_true, Bool.and_eq_true, decide_eq_true_eq]
    exact loaded
  have same : (putTask c pos (some T)).mxModule = c.mxModule := by cases pos <;> rfl
  rw [getBank, same, other]
  rfl

theorem startCore_mx_of_not_usesMx (h : T.usesMx = false) : (startCore c pos T).mx = c.mx := by
  simp only [startCore, startMx, h]
  cases pos <;> rfl

end

/-! ### What `startDev` leaves -/

section
variable (d : Dev) (n q : Nat) (w : WorkItem) (pos : Bool) (T : Task)

@[simp] theorem getCore_dropFills (k m : Nat) : getCore (dropFills d n k) m = getCore d m := (rfl)
@[simp] theorem dropFills_mem (k : Nat) : (dropFills d n k).mem = d.mem := (rfl)
@[simp] theorem dropFills_regs (k : Nat) : (dropFills d n k).regs = d.regs := (rfl)

theorem getCore_withErrs (es : List ErrMark) (m : Nat) : getCore { d with errs := es } m = getCore d m := (rfl)
theorem withErrs_mem (es : List ErrMark) : ({ d with errs := es } : Dev).mem = d.mem := (rfl)
theorem withErrs_regs (es : List ErrMark) : ({ d with errs := es } : Dev).regs = d.regs := (rfl)

theorem getCore_startArrays (m : Nat) : getCore (startArrays d n w T) m = getCore d m := by
  unfold startArrays
  split
  · rw [getCore_withErrs, getCore_regPut]
  · rfl

theorem startArrays_mem : (startArrays d n w T).mem = d.mem := by
  unfold startArrays
  split
  · rw [withErrs_mem, regPut_mem]
  · rfl

theorem getCore_startDev : getCore (startDev d n q w pos T) n = startCore (getCore d n) pos T := by
  rw [startDev, getCore_startArrays, getCore_putItem, getCore_putCore]

theorem getCore_startDev_other {m : Nat} (h : m ≠ n) : getCore (startDev d n q w pos T) m = getCore d m := by
  rw [startDev, getCore_startArrays, getCore_putItem, getCore_putCore_other _ _ _ _ h, getCore_dropFills,
    getCore_dropFills]

theorem startDev_mem : (startDev d n q w pos T).mem = d.mem := by
  rw [startDev, startArrays_mem, putItem_mem, putCore_mem, dropFills_mem, dropFills_mem]

theorem regGet_startDev_of_usesMx (h : T.usesMx = true) :
    regGet (startDev d n q w pos T) (aRuCtrl n) = BitVec.ofNat 64 w.launch.ftzExp.toNat := by
  rw [startDev, startArrays, if_pos h, regGet_of_regs (withErrs_regs _ _), regGet_regPut]

theorem startDev_regs_of_not_usesMx (h : T.usesMx = false) : (startDev d n q w pos T).regs = d.regs := by
  rw [startDev, startArrays, if_neg (by simp [h]), putItem_regs, putCore_regs, dropFills_regs, dropFills_regs]

end

/-! ## The start proper (07 R212) -/

/-- A task whose banks are all ON starts: it is marked so, and its declaration's owners stand. -/
theorem startWhenOn_of_on {d : Dev} {n : Nat} {pos : Bool} {T : Task} (hT : getTask (getCore d n) pos = some T)
    (waits : T.started = false) (on : (maskBanks T.banks.toNat).all (isOn (getCore d n).spx) = true) :
    startWhenOn d n pos = putCore d n (putTask { getCore d n with spx := { (getCore d n).spx with
      owner := declOwners (getCore d n).spx.owner T, queued := declOwners (getCore d n).spx.queued T } } pos
      (some { T with started := true })) := by
  simp only [startWhenOn, hT, waits, on, Bool.not_false, Bool.and_self, if_true]

/-- A bank that is not ON holds the start up. -/
theorem startWhenOn_of_off {d : Dev} {n : Nat} {pos : Bool} {T : Task} (hT : getTask (getCore d n) pos = some T) {b : Nat}
    (hb : b < 16) (inSet : bit T.banks b = true) (off : (bankAt d n b).state ≠ bankOn) : startWhenOn d n pos = d := by
  have some_off : (maskBanks T.banks.toNat).all (isOn (getCore d n).spx) = false := by
    rw [List.all_eq_false]
    exact ⟨b, (mem_maskBanks _ _).mpr ⟨hb, inSet⟩, by simpa [isOn, bankAt, bankView] using off⟩
  simp only [startWhenOn, hT, some_off, Bool.and_false, Bool.false_eq_true, if_false]

/-- The start after the banks began to wake: a task with an empty bank set has started, any other has not; of the
core nothing but the task at its position and words of owners has changed. -/
theorem startWhenOn_startBanks {d : Dev} {n : Nat} {pos : Bool} {T : Task} (hT : getTask (getCore d n) pos = some T)
    (waits : T.started = false) :
    ∃ x : Spx, getCore (startWhenOn (startBanks d n T) n pos) n =
      putTask { getCore d n with spx := x } pos (some { T with started := decide (T.banks = 0) }) ∧
    (∀ b, b < 16 → bankView x b = bankAt (startBanks d n T) n b) ∧ x.bytes = (getCore (startBanks d n T) n).spx.bytes ∧
    (∀ m, m ≠ n → getCore (startWhenOn (startBanks d n T) n pos) m = getCore d m) ∧
    (startWhenOn (startBanks d n T) n pos).mem = d.mem ∧ (startWhenOn (startBanks d n T) n pos).regs = d.regs := by
  obtain ⟨only, views⟩ := startBanks_views d n T
  have task : getTask (getCore (startBanks d n T) n) pos = some T := by
    rw [only.core]
    exact hT
  by_cases none : T.banks = 0
  · have on : (maskBanks T.banks.toNat).all (isOn (getCore (startBanks d n T) n).spx) = true := by
      rw [none]
      rfl
    rw [startWhenOn_of_on task waits on]
    refine ⟨{ (getCore (startBanks d n T) n).spx with
      owner := declOwners (getCore (startBanks d n T) n).spx.owner T,
      queued := declOwners (getCore (startBanks d n T) n).spx.queued T }, ?_, fun b _ => ?_, ?_, fun m hm => ?_, ?_, ?_⟩
    · rw [getCore_putCore, only.core, none]
      rfl
    · rfl
    · rfl
    · rw [getCore_putCore_other _ _ _ _ hm, only.others m hm]
    · rw [putCore_mem, only.mem]
    · rw [putCore_regs, only.regs]
  · obtain ⟨b, hb, inSet⟩ := exists_bank_of_ne_zero none
    have off : (bankAt (startBanks d n T) n b).state ≠ bankOn := by
      rw [views b hb, if_pos inSet]
      simp [bankWaking, bankOn]
    rw [startWhenOn_of_off task hb inSet off]
    refine ⟨(getCore (startBanks d n T) n).spx, ?_, fun _ _ => rfl, rfl, only.others, only.mem, only.regs⟩
    have same : { T with started := decide (T.banks = 0) } = T := by
      rw [decide_eq_false none, ← waits]
    rw [only.core, same]
    generalize getCore d n = c at hT ⊢
    cases pos <;> simp only [getTask, putTask, if_true, Bool.false_eq_true, if_false] at hT ⊢ <;> rw [← hT]

/-! ## TASK_START -/

@[simp] theorem putTask_spx (c : Core) (pos : Bool) (t : Option Task) : (putTask c pos t).spx = c.spx := by
  cases pos <;> rfl
@[simp] theorem putTask_mx (c : Core) (pos : Bool) (t : Option Task) : (putTask c pos t).mx = c.mx := by
  cases pos <;> rfl
@[simp] theorem putTask_ru (c : Core) (pos : Bool) (t : Option Task) : (putTask c pos t).ru = c.ru := by
  cases pos <;> rfl

/-- A launch acquires: its core's L1, constant and descriptor caches are empty (R65). -/
theorem caches_of_startCore (c : Core) (pos : Bool) (T : Task) (x : Spx) (t : Option Task) :
    (putTask { startCore c pos T with spx := x } pos t).l1 = [] ∧
    (putTask { startCore c pos T with spx := x } pos t).constc = [] ∧
    (putTask { startCore c pos T with spx := x } pos t).descc = [] := by
  rw [startCore_eq]
  cases pos <;> exact ⟨rfl, rfl, rfl⟩

/-- The banks of the core as the task's start leaves them, bank by bank. -/
theorem banks_of_startBanks {d e : Dev} {n : Nat} {T : Task} {x : Spx} (same : (getCore e n).spx = (getCore d n).spx)
    (views : ∀ b, b < 16 → bankView x b = bankAt (startBanks e n T) n b) (b : Nat) (hb : b < 16) :
    if bit T.banks b then
      bankState x b = bankWaking ∧ mapGet 0 x.tags b = 0 ∧
      bit x.initing b = !decide (bit T.resident b = true ∧ bankState (getCore d n).spx b = bankRetain ∧
        mapGet 0 (getCore d n).spx.tags b = T.handle ∧ T.handle ≠ 0)
    else bankState x b = bankState (getCore d n).spx b ∧ mapGet 0 x.tags b = mapGet 0 (getCore d n).spx.tags b := by
  have before : bankAt e n b = bankView (getCore d n).spx b := by rw [bankAt, same]
  have view : bankView x b = _ := (views b hb).trans ((startBanks_views e n T).2 b hb)
  rw [before] at view
  split
  · rename_i inSet
    rw [if_pos inSet] at view
    refine ⟨congrArg BankView.state view, congrArg BankView.tag view, (congrArg BankView.fresh view).trans ?_⟩
    exact congrArg (!·) (Bool.eq_iff_iff.mpr ((keepsBank_iff T b _).trans decide_eq_true_iff.symm))
  · rename_i out
    rw [if_neg out] at view
    exact ⟨congrArg BankView.state view, congrArg BankView.tag view⟩

/-- Settles O39: with nothing in its way TASK_START puts the task in the lower free position of a core whose caches and,
with USES_MX, arrays are empty, wakes its banks, and starts it at once where its bank set is empty. -/
theorem tasksStartOnFreePositions : Obligations.TasksStartOnFreePositions := by
  unfold Obligations.TasksStartOnFreePositions
  intro core queue item s w p m T pos hw hp begun hm up ready hT hpos free lets fits
  have starts := taskStart_of_open hw hp begun hm up ready hT hpos free lets fits
  have waits : T.started = false := by rw [hT]; rfl
  have atStart := getCore_startDev s.dev core.toNat queue.toNat w pos T
  obtain ⟨x, after, views, bytes, others, mem, regs⟩ := startWhenOn_startBanks
    (d := startDev s.dev core.toNat queue.toNat w pos T) (n := core.toNat) (pos := pos)
    (by rw [atStart]; exact getTask_startCore _ _ _) waits
  rw [atStart] at after
  have spx : (getCore (startDev s.dev core.toNat queue.toNat w pos T) core.toNat).spx = (getCore s.dev core.toNat).spx := by
    rw [atStart, startCore_spx]
  refine ⟨_, by rw [exec_taskStart, starts, gated_some], withDev_pending s _, ?_⟩
  rw [withDev_dev]
  generalize startWhenOn (startBanks (startDev s.dev core.toNat queue.toNat w pos T) core.toNat T) core.toNat pos = t
    at after others mem regs ⊢
  obtain ⟨l1, constc, descc⟩ := caches_of_startCore (getCore s.dev core.toNat) pos T x
    (some { T with started := decide (T.banks = 0) })
  simp only [getMx, spadByte, after, getTask_putTask, getTask_putTask_not, getGroup_putTask, putTask_spx, putTask_mx,
    putTask_ru, l1, constc, descc, true_and]
  refine ⟨getTask_startCore_not _ pos T, getGroup_startCore _ pos T, banks_of_startBanks spx views, fun o => ?_,
    fun usesMx => ?_, fun plain => ⟨startCore_mx_of_not_usesMx _ pos T plain, ?_⟩, fun n hn => ?_, ?_⟩
  · rw [bytes]
    exact (startBanks_bytes _ _ _ o).trans (by rw [spadByte, spx])
  · obtain ⟨tiles, ru, fsb, afb, banks⟩ := startCore_mx_of_usesMx (getCore s.dev core.toNat) pos T usesMx
    exact ⟨tiles, ru, fsb, afb, banks,
      (regGet_of_regs regs _).trans (regGet_startDev_of_usesMx s.dev core.toNat queue.toNat w pos T usesMx)⟩
  · rw [regs, startDev_regs_of_not_usesMx s.dev core.toNat queue.toNat w pos T plain]
  · rw [others n hn, getCore_startDev_other s.dev core.toNat queue.toNat w pos T hn]
  · rw [mem, startDev_mem]

end Sys2Proof.Machine
end

section
/-! TASK_RELEASE: the task leaves its core, its banks are retained or turned off, and its part of the item ends; and
CORE_BAR_LIMIT_WRITE (02 R66 to R68, 04 R144, 07 R213, 12 R393). -/

namespace Sys2Proof.Machine

theorem exec_taskRelease (core : BitVec 11) (pos : Bool) (s : State) :
    exec (.taskRelease core pos) s = gated s "TASK_RELEASE" (taskRelease core pos s.dev) := (rfl)

theorem exec_coreBarLimitWrite (core : BitVec 11) (v : D64) (s : State) :
    exec (.coreBarLimitWrite core v) s = ok s (coreBarLimitWrite core v s.dev) := (rfl)

/-! ## Faults nothing has taken (04 R144) -/

theorem putTask_getTask {c : Core} {pos : Bool} {t : Option Task} (h : getTask c pos = t) : putTask c pos t = c := by
  subst h
  cases pos <;> rfl

/-- A core whose queues of untaken faults no longer hold those of the task at `pos`. -/
def dropLeft (c : Core) (pos : Bool) : Core :=
  { c with
    mx := { c.mx with deferred := c.mx.deferred.filter fun e => e.pos != pos },
    ffx := { c.ffx with fails := c.ffx.fails.filter fun e => e.pos != pos } }

/-- Without such a fault the release sends no record and the task keeps its status. -/
theorem takeLeft_of_none {d : Dev} {n : Nat} {pos : Bool} {T : Task} (none : leftFaults (getCore d n) pos = [])
    (hT : getTask (getCore d n) pos = some T) : takeLeft d n pos = putCore d n (dropLeft (getCore d n) pos) := by
  have same : { T with fault := T.fault <|> Option.none } = T := by cases T with | mk => simp
  simp only [takeLeft, none, hT, List.foldl_nil, List.head?_nil, Option.map_some, Option.map_none, same,
    putTask_getTask hT, dropLeft]

/-! ## The work item (12 R387, R393) -/

theorem setPart_only (w : WorkItem) (core : Nat) (old new : PartSt) :
    setPart w core old new = { w with parts := (setPart w core old new).parts } := by
  unfold setPart
  split <;> rfl

/-- The item when the task on a core has ended, with its fault if any. -/
def endedItem (w : WorkItem) (core : Nat) (fault : Option Nat) : WorkItem :=
  match fault with
  | some f => { setPart w core .resident .ended with
      fault := (setPart w core .resident .ended).fault <|> some (f, core),
      faulted := (setPart w core .resident .ended).faulted + 1 }
  | none => setPart w core .resident .ended

theorem endedItem_item (w : WorkItem) (core : Nat) (fault : Option Nat) : (endedItem w core fault).item = w.item := by
  cases fault <;> rw [endedItem, setPart_only]

theorem endedItem_parts (w : WorkItem) (core : Nat) (fault : Option Nat) :
    (endedItem w core fault).parts = (setPart w core .resident .ended).parts := by
  cases fault <;> rfl

theorem endedItem_none (w : WorkItem) (core : Nat) :
    (endedItem w core none).fault = w.fault ∧ (endedItem w core none).faulted = w.faulted := by
  rw [endedItem, setPart_only]
  exact ⟨rfl, rfl⟩

/-- The item counts the fault, and keeps the first. -/
theorem endedItem_some (w : WorkItem) (core f : Nat) : (endedItem w core (some f)).faulted = w.faulted + 1 ∧
    (endedItem w core (some f)).fault = if w.fault = none then some (f, core) else w.fault := by
  rw [endedItem, setPart_only]
  refine ⟨rfl, ?_⟩
  cases h : w.fault <;> simp

theorem endPart_of_item {d : Dev} {q item : Nat} {w : WorkItem} (h : getItem d q item = some w) (core : Nat)
    (fault : Option Nat) : endPart d q item core fault = putItem d q (endedItem w core fault) := by
  cases fault <;> simp only [endPart, h, endedItem]

theorem endPart_only (d : Dev) (q item core : Nat) (fault : Option Nat) :
    endPart d q item core fault = { d with disp := (endPart d q item core fault).disp } := by
  cases h : getItem d q item with
  | none => simp only [endPart, h]
  | some w => rw [endPart_of_item h, putItem_only]

theorem getItem_of_disp {d e : Dev} (h : e.disp = d.disp) (q i : Nat) : getItem e q i = getItem d q i := by
  rw [getItem, getItem, getQueue, getQueue, h]

/-- An item that is replaced reads as the new one. -/
theorem getItem_putItem {d : Dev} {q i : Nat} {w v : WorkItem} (h : getItem d q i = some w) (hv : v.item = w.item) :
    getItem (putItem d q v) q i = some v := by
  unfold getItem at h
  split at h
  · rename_i u hu
    have found : w.item = i := by simpa using List.find?_some h
    have keys : ((fun y : WorkItem => decide (y.item = i)) ∘ fun y => if y.item = w.item then v else y) =
        fun y => decide (y.item = i) := by
      funext y
      by_cases hy : y.item = w.item <;> simp [hy, hv]
    simp only [putItem, hu, getItem, getQueue_putQueue, hv, List.find?_map, keys, h, Option.map_some, if_true]
  · cases h

/-! ## Taking the task off its core -/

/-- A load notice changes its cluster only. -/
theorem sendDown_frame (d : Dev) (c : Nat) : (sendDown d c).mem = d.mem ∧ (sendDown d c).regs = d.regs ∧
    (sendDown d c).disp = d.disp ∧ ∀ m, getCore (sendDown d c) m = getCore d m := by
  unfold sendDown
  split
  · exact ⟨putCluster_mem d c _, putCluster_regs d c _, putCluster_disp d c _, fun m => getCore_putCluster d m c _⟩
  · exact ⟨rfl, rfl, rfl, fun _ => rfl⟩

/-- The core without the task: its position is free, and loads still out are discarded when they return. -/
def vacated (c : Core) (pos : Bool) : Core := endLoads (putTask c pos none) fun l => l.pos == pos

theorem freeTask_frame (d : Dev) (n : Nat) (pos : Bool) (T : Task) :
    (freeTask d n pos T).mem = d.mem ∧ (freeTask d n pos T).regs = d.regs ∧ (freeTask d n pos T).disp = d.disp ∧
    getCore (freeTask d n pos T) n = vacated (getCore d n) pos ∧
    ∀ m, m ≠ n → getCore (freeTask d n pos T) m = getCore d m := by
  have core := getCore_putCore d n (vacated (getCore d n) pos)
  have others (m : Nat) (hm : m ≠ n) := getCore_putCore_other d n m (vacated (getCore d n) pos) hm
  have mem := putCore_mem d n (vacated (getCore d n) pos)
  have regs := putCore_regs d n (vacated (getCore d n) pos)
  have disp := putCore_disp d n (vacated (getCore d n) pos)
  rw [freeTask, ← vacated]
  generalize putCore d n (vacated (getCore d n) pos) = e at core others mem regs disp ⊢
  split
  · obtain ⟨mem', regs', disp', cores⟩ := sendDown_frame e (n / 32)
    exact ⟨mem'.trans mem, regs'.trans regs, disp'.trans disp, (cores n).trans core,
      fun m hm => (cores m).trans (others m hm)⟩
  · exact ⟨mem, regs, disp, core, others⟩

theorem getTask_vacated (c : Core) (pos : Bool) : getTask (vacated c pos) pos = none ∧
    getTask (vacated c pos) (!pos) = getTask c (!pos) := by
  cases pos <;> exact ⟨rfl, rfl⟩

theorem getGroup_vacated (c : Core) (pos : Bool) (k : Nat) : getGroup (vacated c pos) k = getGroup c k := by
  cases pos <;> rfl

theorem vacated_spx (c : Core) (pos : Bool) : (vacated c pos).spx = c.spx := by cases pos <;> rfl

/-! ## TASK_RELEASE -/

/-- The device before the task's banks end: no fault of it is left, and its item knows its end. -/
def releasing (d : Dev) (n : Nat) (pos : Bool) (T : Task) : Dev :=
  endPart (putCore d n (dropLeft (getCore d n) pos)) T.queue T.item n T.fault

theorem taskRelease_of_idle {core : BitVec 11} {pos : Bool} {d : Dev} {T : Task} (up : coreUp d core.toNat = true)
    (idle : releaseBusy d core.toNat pos = false) (none : leftFaults (getCore d core.toNat) pos = [])
    (hT : getTask (getCore d core.toNat) pos = some T) : taskRelease core pos d =
      some (freeTask (endBanks (releasing d core.toNat pos T) core.toNat T) core.toNat pos T) := by
  have stays : getTask (dropLeft (getCore d core.toNat) pos) pos = some T := hT
  simp only [taskRelease, up, idle, Bool.not_true, Bool.or_self, Bool.false_eq_true, if_false, takeLeft_of_none none hT,
    getCore_putCore, stays, releasing]

section
variable (d : Dev) (n : Nat) (pos : Bool) (T : Task)

theorem getCore_releasing : getCore (releasing d n pos T) n = dropLeft (getCore d n) pos := by
  rw [releasing, endPart_only]
  exact getCore_putCore _ _ _

theorem getCore_releasing_other {m : Nat} (h : m ≠ n) : getCore (releasing d n pos T) m = getCore d m := by
  rw [releasing, endPart_only]
  exact getCore_putCore_other _ _ _ _ h

theorem releasing_mem : (releasing d n pos T).mem = d.mem := by rw [releasing, endPart_only, putCore_mem]
theorem releasing_regs : (releasing d n pos T).regs = d.regs := by rw [releasing, endPart_only, putCore_regs]

theorem getItem_releasing {w : WorkItem} (h : getItem d T.queue T.item = some w) :
    getItem (releasing d n pos T) T.queue T.item = some (endedItem w n T.fault) := by
  have same : getItem (putCore d n (dropLeft (getCore d n) pos)) T.queue T.item = some w :=
    (getItem_of_disp (putCore_disp _ _ _) _ _).trans h
  rw [releasing, endPart_of_item same]
  exact getItem_putItem same (endedItem_item w n T.fault)

end

/-- A bank of a task that ends, from what its view becomes (07 R213). -/
theorem ended_bank {d t : Dev} {n b : Nat} {T : Task}
    (view : bankAt t n b = if bit T.banks b then endedView T b (bankAt d n b) else bankAt d n b) :
    (bit T.banks b = true → bit T.keep b = true → bankState (getCore t n).spx b = bankRetain ∧
      mapGet 0 (getCore t n).spx.tags b = T.handle ∧
      (bankState (getCore d n).spx b = bankOn → ∀ o, o / 32768 = b → spadByte t n o = spadByte d n o)) ∧
    (bit T.banks b = true → bit T.keep b = false → bankState (getCore t n).spx b = bankOff ∧
      mapGet 0 (getCore t n).spx.tags b = 0 ∧ ∀ o, o / 32768 = b → spadByte t n o = 0) ∧
    (bit T.banks b = false → bankState (getCore t n).spx b = bankState (getCore d n).spx b ∧
      mapGet 0 (getCore t n).spx.tags b = mapGet 0 (getCore d n).spx.tags b ∧
      ∀ o, o / 32768 = b → spadByte t n o = spadByte d n o) := by
  refine ⟨fun inSet keep => ?_, fun inSet keep => ?_, fun out => ?_⟩
  · rw [if_pos inSet, endedView, if_pos keep] at view
    refine ⟨congrArg BankView.state view, congrArg BankView.tag view, fun on o ho => ?_⟩
    have on : (bankAt d n b).state = bankOn := on
    rw [spadByte_eq t n ho, spadByte_eq d n ho, view, if_pos on]
  · rw [if_pos inSet, endedView, if_neg (by simp [keep])] at view
    refine ⟨congrArg BankView.state view, congrArg BankView.tag view, fun o ho => ?_⟩
    rw [spadByte_eq t n ho, view]
  · rw [if_neg (by simp [out])] at view
    refine ⟨congrArg BankView.state view, congrArg BankView.tag view, fun o ho => ?_⟩
    rw [spadByte_eq t n ho, spadByte_eq d n ho, view]

/-- What a release leaves of the device: the core without the task and with its banks ended, the item ended there, and
nothing else but the load notices of the cluster. -/
theorem release_frame (d : Dev) (n : Nat) (pos : Bool) (T : Task) {t : Dev}
    (ht : t = freeTask (endBanks (releasing d n pos T) n T) n pos T) :
    (∃ x, getCore t n = vacated { dropLeft (getCore d n) pos with spx := x } pos) ∧
    (∀ b, b < 16 → bankAt t n b = if bit T.banks b then endedView T b (bankAt d n b) else bankAt d n b) ∧
    t.disp = (releasing d n pos T).disp ∧ (∀ m, m ≠ n → getCore t m = getCore d m) ∧ t.mem = d.mem ∧
    t.regs = d.regs := by
  subst ht
  obtain ⟨only, views⟩ := endBanks_views (releasing d n pos T) n T
  obtain ⟨mem, regs, disp, core, others⟩ := freeTask_frame (endBanks (releasing d n pos T) n T) n pos T
  have before (b : Nat) : bankAt (releasing d n pos T) n b = bankAt d n b := by
    rw [bankAt, getCore_releasing]
    rfl
  refine ⟨⟨(getCore (endBanks (releasing d n pos T) n T) n).spx, core.trans ?_⟩, fun b hb => ?_, disp.trans only.disp,
    fun m hm => ?_, ?_, ?_⟩
  · rw [only.core, getCore_releasing]
  · rw [bankAt, core, vacated_spx]
    exact (views b hb).trans (by rw [before])
  · rw [others m hm, only.others m hm, getCore_releasing_other d n pos T hm]
  · rw [mem, only.mem, releasing_mem]
  · rw [regs, only.regs, releasing_regs]

/-- Settles O41: with no untaken fault the release ends the banks of the task one by one, frees its position and ends
its part of the item; the write of the stall limit stores its low 32 bits unless the core is fenced. -/
theorem tasksReleaseTheirCore : Obligations.TasksReleaseTheirCore := by
  unfold Obligations.TasksReleaseTheirCore
  refine ⟨?release, ?limit⟩
  case release =>
    intro core pos s T up idle none hT
    have releases := taskRelease_of_idle up idle none hT
    refine ⟨_, by rw [exec_taskRelease, releases, gated_some], withDev_pending s _, ?_⟩
    obtain ⟨⟨x, core'⟩, views, disp, others, mem, regs⟩ := release_frame s.dev core.toNat pos T rfl
    rw [withDev_dev]
    generalize freeTask (endBanks (releasing s.dev core.toNat pos T) core.toNat T) core.toNat pos T = t
      at core' views disp others mem regs ⊢
    obtain ⟨left, other⟩ := getTask_vacated { dropLeft (getCore s.dev core.toNat) pos with spx := x } pos
    refine ⟨by rw [core', left], by rw [core', other]; rfl, fun i => by rw [core', getGroup_vacated]; rfl,
      fun b hb => ended_bank (views b hb), fun w hw => ?_, others, mem, regs⟩
    refine ⟨endedItem w core.toNat T.fault,
      (getItem_of_disp disp _ _).trans (getItem_releasing s.dev core.toNat pos T hw), endedItem_parts w _ _,
      fun fine => ?_, fun f fault => ?_⟩
    · rw [fine]
      exact endedItem_none w _
    · rw [fault]
      exact endedItem_some w _ f
  case limit =>
    intro core v s
    rw [exec_coreBarLimitWrite, ok_eq, coreBarLimitWrite, bits, Nat.pow_zero, Nat.div_one]

end Sys2Proof.Machine
end

section
/-! The values of finite data as rational numbers: the order and the integers of FP32 (03 R79, R82, R502). -/

namespace Sys2Proof.Machine

/-- The value of a finite datum; 0 for the others. -/
def fvVal : FV → ℚ
  | .fin n m e => sval n m * 2 ^ e
  | _ => 0

theorem sval_not (n : Bool) (m : Nat) : sval (!n) m = -sval n m := by
  cases n <;> simp [sval]

/-- An aligned numeral keeps its value. -/
theorem shifted_val (i e e' : Int) (h : e' ≤ e) : ((i * 2 ^ (e - e').toNat : Int) : ℚ) * 2 ^ e' = i * 2 ^ e := by
  have he : e = ((e - e').toNat : Int) + e' := by omega
  conv_rhs => rw [he, zpow_add₀ (by norm_num), zpow_natCast]
  push_cast
  ring

theorem fvLt_fin (n m' : Bool) (m k : Nat) (e f : Int) :
    fvLt (.fin n m e) (.fin m' k f) = true ↔ fvVal (.fin n m e) < fvVal (.fin m' k f) := by
  have pos : (0 : ℚ) < 2 ^ min e f := by positivity
  have sum : (((addExact n m e (!m') k f).1 : Int) : ℚ) * 2 ^ min e f =
      fvVal (.fin n m e) - fvVal (.fin m' k f) := by
    rw [fvVal, fvVal, ← shifted_val _ e _ (min_le_left e f), ← shifted_val _ f _ (min_le_right e f)]
    simp only [addExact, sval_not]
    push_cast
    ring
  simp only [fvLt, decide_eq_true_eq]
  rw [← sub_neg (a := fvVal _), ← sum, ← Int.cast_lt_zero (R := ℚ)]
  exact (mul_lt_mul_iff_left₀ pos).symm.trans (by rw [zero_mul])

theorem fvOfInt_eq (i : Int) : fvOfInt i = .fin (decide (i < 0)) i.natAbs 0 := by
  unfold fvOfInt ofInt
  split
  · next h => subst h; rfl
  · rfl

theorem fvVal_fvOfInt (i : Int) : fvVal (fvOfInt i) = i := by
  rw [fvOfInt_eq, fvVal, zpow_zero, mul_one, Int.cast_inj]
  unfold sval
  simp only [decide_eq_true_eq]
  split <;> omega

/-- Rounding down at place 0 is division of the signed numeral, rounded toward −∞. -/
theorem sval_roundAt_rd (n : Bool) (m : Nat) {e : Int} (h : e < 0) :
    sval n (roundAt .rd n m e 0) = sval n m / ((2 ^ (-e).toNat : Nat) : Int) := by
  have pos : 0 < 2 ^ (-e).toNat := by positivity
  simp only [roundAt, if_neg (show ¬(0 ≤ e) by omega), zero_sub]
  generalize 2 ^ (-e).toNat = k at pos ⊢
  cases n with
  | false => simp [sval]
  | true =>
    have parts := Nat.div_add_mod m k
    have lt := Nat.mod_lt m pos
    have intParts : (k : Int) * ((m / k : Nat) : Int) + ((m % k : Nat) : Int) = m := by exact_mod_cast parts
    simp only [sval, Bool.true_and, decide_eq_true_eq, if_true]
    generalize m / k = q at intParts ⊢
    generalize m % k = r at lt intParts ⊢
    refine ((Int.ediv_emod_unique (r := if 0 < r then k - r else 0) (by omega)).mpr ⟨?_, ?_⟩).1.symm
    · split <;> push_cast <;> linarith
    · split <;> omega

theorem fvVal_of_neg_exp (n : Bool) (m : Nat) {e : Int} (h : e < 0) :
    fvVal (.fin n m e) = (sval n m : ℚ) / ((2 ^ (-e).toNat : Nat) : ℚ) := by
  have he : e = -((-e).toNat : Int) := by omega
  conv_lhs => rw [fvVal, he, zpow_neg, zpow_natCast]
  push_cast
  rfl

theorem fvVal_of_nonneg_exp (n : Bool) (m : Nat) {e : Int} (h : 0 ≤ e) :
    fvVal (.fin n m e) = ((sval n m * 2 ^ e.toNat : Int) : ℚ) := by
  have he : e = (e.toNat : Int) := by omega
  conv_lhs => rw [fvVal, he, zpow_natCast]
  push_cast
  rfl

/-- Rounding down to an integer is the floor. -/
theorem roundInt_rd (n : Bool) (m : Nat) (e : Int) : roundInt .rd n m e = ⌊fvVal (.fin n m e)⌋ := by
  unfold roundInt
  by_cases h : e < 0
  · rw [sval_roundAt_rd n m h, fvVal_of_neg_exp n m h, Rat.floor_intCast_div_natCast]
  · have up : 0 ≤ e := by omega
    rw [fvVal_of_nonneg_exp n m up, Int.floor_intCast, roundAt, if_pos up, sub_zero]
    cases n <;> simp [sval]

/-- A datum is an integer where no binary place below 1 is set. -/
theorem fvVal_eq_floor_iff (n : Bool) (m : Nat) (e : Int) :
    fvVal (.fin n m e) = ⌊fvVal (.fin n m e)⌋ ↔ 0 ≤ e ∨ m % 2 ^ (-e).toNat = 0 := by
  by_cases h : e < 0
  · have pos : ((2 ^ (-e).toNat : Nat) : Int) ≠ 0 := by positivity
    rw [fvVal_of_neg_exp n m h, Rat.floor_intCast_div_natCast, ← Nat.dvd_iff_mod_eq_zero, or_iff_right (by omega)]
    generalize 2 ^ (-e).toNat = k at pos ⊢
    have dvd : (k : Int) ∣ sval n m ↔ k ∣ m := by
      cases n <;> simp [sval, Int.natCast_dvd_natCast]
    rw [← dvd, div_eq_iff (by exact_mod_cast pos)]
    constructor
    · intro eq
      exact ⟨sval n m / k, by rw [mul_comm]; exact_mod_cast eq⟩
    · intro d
      exact_mod_cast (Int.ediv_mul_cancel d).symm
  · have up : 0 ≤ e := by omega
    rw [fvVal_of_nonneg_exp n m up, Int.floor_intCast]
    simp [up]

theorem floorF_fin (n : Bool) (m : Nat) (e : Int) :
    floorF (.fin n m e) = (⌊fvVal (.fin n m e)⌋, decide (fvVal (.fin n m e) = ⌊fvVal (.fin n m e)⌋)) := by
  rw [floorF, roundInt_rd, Bool.decide_congr (fvVal_eq_floor_iff n m e), Bool.decide_or]

/-! ## FP32 data by their bits (03 R82) -/

theorem decodeF_fp32 (b : Nat) : decodeF fp32 b =
    if 255 * 2 ^ 23 ≤ b % 2 ^ 31 then (if b % 2 ^ 31 % 2 ^ 23 = 0 then .inf (b.testBit 31) else .nan)
    else if b % 2 ^ 31 / 2 ^ 23 = 0 then .fin (b.testBit 31) (b % 2 ^ 31 % 2 ^ 23) (-149)
    else .fin (b.testBit 31) (2 ^ 23 + b % 2 ^ 31 % 2 ^ 23) ((b % 2 ^ 31 / 2 ^ 23 : Nat) - 150) := by
  have top : fmtMax fp32 = 255 * 2 ^ 23 - 1 := by decide
  have above : b % 2 ^ 31 > 255 * 2 ^ 23 - 1 ↔ 255 * 2 ^ 23 ≤ b % 2 ^ 31 := by omega
  simp only [decodeF, top]
  simp only [fp32, Nat.reduceAdd, above, true_and]
  congr 2
  rw [sub_sub]
  rfl

theorem isNaN_ofF32 (w : Word) : isNaN (ofF32 w) = true ↔ 255 * 2 ^ 23 < w.toNat % 2 ^ 31 := by
  rw [ofF32, decodeF_fp32]
  split
  · split
    · exact iff_of_false Bool.false_ne_true (by omega)
    · exact iff_of_true rfl (by omega)
  · split <;> exact iff_of_false Bool.false_ne_true (by omega)

theorem ofF32_inf {w : Word} (h : w.toNat % 2 ^ 31 = 255 * 2 ^ 23) : ofF32 w = .inf (w.toNat.testBit 31) := by
  rw [ofF32, decodeF_fp32, h]
  rfl

theorem ofF32_normal {w : Word} (lo : 2 ^ 23 ≤ w.toNat % 2 ^ 31) (hi : w.toNat % 2 ^ 31 < 255 * 2 ^ 23) :
    ofF32 w = .fin (w.toNat.testBit 31) (2 ^ 23 + w.toNat % 2 ^ 31 % 2 ^ 23)
      ((w.toNat % 2 ^ 31 / 2 ^ 23 : Nat) - 150) := by
  rw [ofF32, decodeF_fp32, if_neg (by omega), if_neg (by omega)]

theorem ofF32_denormal {w : Word} (h : w.toNat % 2 ^ 31 < 2 ^ 23) :
    ofF32 w = .fin (w.toNat.testBit 31) (w.toNat % 2 ^ 31) (-149) := by
  rw [ofF32, decodeF_fp32, if_neg (by omega), if_pos (by omega), Nat.mod_eq_of_lt h]

theorem ofF32_finite {w : Word} (h : w.toNat % 2 ^ 31 < 255 * 2 ^ 23) :
    ∃ m e, ofF32 w = .fin (w.toNat.testBit 31) m e := by
  rcases Nat.lt_or_ge (w.toNat % 2 ^ 31) (2 ^ 23) with lo | lo
  · exact ⟨_, _, ofF32_denormal lo⟩
  · exact ⟨_, _, ofF32_normal lo h⟩

theorem ofF32_infF : ofF32 infF = .inf false := by decide
theorem ofF32_negInfF : ofF32 negInfF = .inf true := by decide

/-- A word that is no NaN is an infinity or a finite datum. -/
theorem ofF32_cases {w : Word} (h : isNaN (ofF32 w) = false) :
    w = infF ∨ w = negInfF ∨ ∃ m e, ofF32 w = .fin (w.toNat.testBit 31) m e := by
  have mag := (isNaN_ofF32 w).not.mp (by simp [h])
  by_cases fin : w.toNat % 2 ^ 31 < 255 * 2 ^ 23
  · exact .inr (.inr (ofF32_finite fin))
  · by_cases sign : w.toNat < 2 ^ 31
    · exact .inl (BitVec.eq_of_toNat_eq (y := infF) (show w.toNat = 255 * 2 ^ 23 by omega))
    · exact .inr (.inl (BitVec.eq_of_toNat_eq (y := negInfF) (show w.toNat = 2 ^ 31 + 255 * 2 ^ 23 by omega)))

theorem ltL_finite {a b : Word} (ha : a.toNat % 2 ^ 31 < 255 * 2 ^ 23) (hb : b.toNat % 2 ^ 31 < 255 * 2 ^ 23) :
    ltL a b = true ↔ fvVal (ofF32 a) < fvVal (ofF32 b) := by
  obtain ⟨m, e, eqa⟩ := ofF32_finite ha
  obtain ⟨k, f, eqb⟩ := ofF32_finite hb
  rw [ltL, eqa, eqb, fvLt_fin]

theorem scaled_lt_two_zpow {m k : Nat} {e n : Int} (small : m < 2 ^ k) (place : e + k ≤ n) :
    (m : ℚ) * 2 ^ e < 2 ^ n := by
  have scale : (0 : ℚ) < 2 ^ e := by positivity
  calc (m : ℚ) * 2 ^ e < 2 ^ k * 2 ^ e := by gcongr; exact_mod_cast small
    _ = 2 ^ (e + k) := by rw [zpow_add₀ (by norm_num), zpow_natCast, mul_comm]
    _ ≤ 2 ^ n := zpow_le_zpow_right₀ (by norm_num) place

theorem two_zpow_lt_scaled {m k : Nat} {e n : Int} (great : 2 ^ k < m) (place : n ≤ e + k) :
    (2 : ℚ) ^ n < m * 2 ^ e := by
  have scale : (0 : ℚ) < 2 ^ e := by positivity
  calc (2 : ℚ) ^ n ≤ 2 ^ (e + k) := zpow_le_zpow_right₀ (by norm_num) place
    _ = 2 ^ k * 2 ^ e := by rw [zpow_add₀ (by norm_num), zpow_natCast, mul_comm]
    _ < m * 2 ^ e := by gcongr; exact_mod_cast great

/-- A datum without sign whose bits are below those of 2^n is below it. -/
theorem fvVal_ofF32_lt {w : Word} {n : Int} (lo : -126 ≤ n) (hi : n ≤ 127)
    (h : (w.toNat : Int) < (n + 127) * 2 ^ 23) : fvVal (ofF32 w) < 2 ^ n := by
  have sign : w.toNat.testBit 31 = false := Nat.testBit_lt_two_pow (by omega)
  have mag : w.toNat % 2 ^ 31 = w.toNat := Nat.mod_eq_of_lt (by omega)
  rcases Nat.lt_or_ge w.toNat (2 ^ 23) with den | nor
  · rw [ofF32_denormal (by omega), sign, mag]
    exact scaled_lt_two_zpow (k := 23) den (by omega)
  · rw [ofF32_normal (by omega) (by omega), sign, mag]
    exact scaled_lt_two_zpow (k := 24) (by omega) (by omega)

/-- A finite datum without sign whose bits are above those of 2^n is above it. -/
theorem lt_fvVal_ofF32 {w : Word} {n : Int} (lo : -126 ≤ n) (hi : w.toNat < 255 * 2 ^ 23)
    (h : (n + 127) * 2 ^ 23 < (w.toNat : Int)) : 2 ^ n < fvVal (ofF32 w) := by
  have sign : w.toNat.testBit 31 = false := Nat.testBit_lt_two_pow (by omega)
  have mag : w.toNat % 2 ^ 31 = w.toNat := Nat.mod_eq_of_lt (by omega)
  rw [ofF32_normal (by omega) (by omega), sign, mag]
  rcases Nat.eq_zero_or_pos (w.toNat % 2 ^ 23) with zero | frac
  · refine two_zpow_lt_scaled (k := 22) (by omega) (by omega)
  · refine two_zpow_lt_scaled (k := 23) (by omega) (by omega)

theorem fvVal_nonpos_of_sign (m : Nat) (e : Int) : fvVal (.fin true m e) ≤ 0 := by
  have scale : (0 : ℚ) ≤ m * 2 ^ e := by positivity
  simpa [fvVal, sval] using scale

end Sys2Proof.Machine
end

section
/-! EXP2 and LOG2 of the row unit: special values, powers of two, and the bounds between them (05 R154 to R157). -/

namespace Sys2Proof.Machine

/-! ## Powers of two in FP32 (R155, R156) -/

/-- 2^n is the datum of exponent field n + 127 and mantissa 0; above the greatest exponent that is +∞. -/
theorem pow2F_eq {n : Int} (lo : -126 ≤ n) (hi : n ≤ 128) : pow2F n = BitVec.ofNat 32 ((n + 127).toNat * 2 ^ 23) := by
  have q : max (1 - 127 - 23) (n + 0 - 23) = n - 23 := by omega
  have up : (n - (n - 23)).toNat = 23 := by omega
  have bits : magBits fp32 .rn false 1 n = (n + 127).toNat * 2 ^ 23 := by
    have one : Nat.log2 1 = 0 := by decide
    simp only [magBits, fp32, one, Nat.cast_zero, Nat.cast_ofNat, q]
    rw [if_neg (by decide), roundAt, if_pos (by omega), up]
    omega
  have top : fmtMax fp32 = 255 * 2 ^ 23 - 1 := by decide
  simp only [pow2F, toF32, encodeF, bits, top]
  split
  · simp
  · have : (n + 127).toNat = 255 := by omega
    rw [this]
    rfl

theorem pow2F_toNat {n : Int} (lo : -126 ≤ n) (hi : n ≤ 128) : (pow2F n).toNat = (n + 127).toNat * 2 ^ 23 := by
  rw [pow2F_eq lo hi, BitVec.toNat_ofNat, Nat.mod_eq_of_lt (by omega)]

theorem ofF32_pow2F {n : Int} (lo : -126 ≤ n) (hi : n ≤ 127) : ofF32 (pow2F n) = .fin false (2 ^ 23) (n - 23) := by
  have word := pow2F_toNat lo (by omega)
  have sign : (pow2F n).toNat.testBit 31 = false := Nat.testBit_lt_two_pow (by omega)
  have field : ((pow2F n).toNat % 2 ^ 31 / 2 ^ 23 : Nat) = n + 127 := by omega
  have mant : 2 ^ 23 + (pow2F n).toNat % 2 ^ 31 % 2 ^ 23 = 2 ^ 23 := by omega
  rw [ofF32_normal (by omega) (by omega), sign, field, mant]
  congr 1
  omega

theorem fvVal_pow2F {n : Int} (lo : -126 ≤ n) (hi : n ≤ 127) : fvVal (ofF32 (pow2F n)) = 2 ^ n := by
  rw [ofF32_pow2F lo hi, fvVal]
  have : (2 : ℚ) ^ n = 2 ^ (23 : Nat) * 2 ^ (n - 23) := by
    rw [← zpow_natCast, ← zpow_add₀ (by norm_num)]
    congr 1
    omega
  rw [this]
  norm_num [sval]

/-- A word that is not below 2^n has no bits below it and no sign. -/
theorem le_of_not_ltL_pow2F {v : Word} {n : Int} (lo : -126 ≤ n) (hi : n ≤ 127) (num : nanL v = false)
    (h : ltL v (pow2F n) = false) : (n + 127).toNat * 2 ^ 23 ≤ v.toNat ∧ v.toNat < 2 ^ 31 := by
  have not : ¬ ltL v (pow2F n) = true := by simp [h]
  have word := pow2F_toNat lo (by omega)
  have pos : (0 : ℚ) < 2 ^ n := by positivity
  by_cases sign : v.toNat < 2 ^ 31
  · refine ⟨?_, sign⟩
    by_contra below
    refine not ((ltL_finite (by omega) (by omega)).mpr ?_)
    rw [fvVal_pow2F lo hi]
    exact fvVal_ofF32_lt lo hi (by omega)
  · have top : v.toNat.testBit 31 = true := by
      rw [Nat.testBit_eq_decide_div_mod_eq]
      exact decide_eq_true (by omega)
    refine absurd ?_ not
    rcases ofF32_cases num with rfl | rfl | ⟨m, e, fin⟩
    · exact absurd (show infF.toNat < 2 ^ 31 by decide) sign
    · rw [ltL, ofF32_negInfF, ofF32_pow2F lo hi]
      rfl
    · rw [ltL, fin, top, ofF32_pow2F lo hi, fvLt_fin, ← ofF32_pow2F lo hi, fvVal_pow2F lo hi]
      exact (fvVal_nonpos_of_sign m e).trans_lt pos

/-- A word without sign that is not above 2^n has no bits above it. -/
theorem le_of_not_pow2F_ltL {v : Word} {n : Int} (lo : -126 ≤ n) (hi : n ≤ 128) (num : nanL v = false)
    (sign : v.toNat < 2 ^ 31) (h : ltL (pow2F n) v = false) : v.toNat ≤ (n + 127).toNat * 2 ^ 23 := by
  have not : ¬ ltL (pow2F n) v = true := by simp [h]
  have word := pow2F_toNat lo hi
  have mag := (isNaN_ofF32 v).not.mp (by simpa [nanL] using num)
  by_contra above
  refine not ?_
  rcases Nat.lt_or_ge v.toNat (255 * 2 ^ 23) with fin | inf
  · refine (ltL_finite (by omega) (by omega)).mpr ?_
    rw [fvVal_pow2F lo (by omega)]
    exact lt_fvVal_ofF32 lo fin (by omega)
  · have top : v.toNat.testBit 31 = false := Nat.testBit_lt_two_pow sign
    rw [ltL, ofF32_pow2F lo (by omega), ofF32_inf (by omega), top]
    rfl

/-- A value clamped between 2^n and 2^(n + 1) lies between them. -/
theorem clampF_pow2F {n : Int} (lo : -126 ≤ n) (hi : n ≤ 127) (v : Word) :
    (n + 127).toNat * 2 ^ 23 ≤ (clampF (pow2F n) (pow2F (n + 1)) v).toNat ∧
    (clampF (pow2F n) (pow2F (n + 1)) v).toNat ≤ (n + 128).toNat * 2 ^ 23 := by
  have least := pow2F_toNat lo (by omega)
  have greatest := pow2F_toNat (n := n + 1) (by omega) (by omega)
  unfold clampF
  split
  · omega
  · next inside =>
    simp only [Bool.or_eq_true, not_or, Bool.not_eq_true] at inside
    obtain ⟨num, low⟩ := inside
    obtain ⟨le, sign⟩ := le_of_not_ltL_pow2F lo hi num low
    split
    · omega
    · next high =>
      have := le_of_not_pow2F_ltL (n := n + 1) (by omega) (by omega) num sign (by simpa using high)
      omega

/-! ## EXP2 (R155) -/

theorem fvLt_fvOfInt (n : Bool) (m : Nat) (e i : Int) :
    fvLt (.fin n m e) (fvOfInt i) = true ↔ fvVal (.fin n m e) < i := by
  rw [← fvVal_fvOfInt, fvOfInt_eq, fvLt_fin]

theorem fvOfInt_lt_fv (n : Bool) (m : Nat) (e i : Int) :
    fvLt (fvOfInt i) (.fin n m e) = true ↔ (i : ℚ) < fvVal (.fin n m e) := by
  rw [← fvVal_fvOfInt, fvOfInt_eq, fvLt_fin]

theorem fvEq_fvOfInt (n : Bool) (m : Nat) (e i : Int) :
    fvEq (.fin n m e) (fvOfInt i) = true ↔ fvVal (.fin n m e) = i := by
  have fin : isNaN (fvOfInt i) = false := by rw [fvOfInt_eq]; rfl
  have num : isNaN (.fin n m e) = false := rfl
  simp only [fvEq, fin, num, Bool.not_false, Bool.true_and, Bool.and_eq_true, Bool.not_eq_true', ← Bool.not_eq_true,
    fvLt_fvOfInt, fvOfInt_lt_fv, not_lt]
  exact and_comm.trans antisymm_iff

/-- A finite datum that has not the word of an infinity. -/
theorem fin_ne_inf {x y : Word} {n s : Bool} {m : Nat} {e : Int} (hx : ofF32 x = .fin n m e) (hy : ofF32 y = .inf s) :
    x ≠ y := by
  rintro rfl
  rw [hx] at hy
  cases hy

theorem exp2L_nan {t : Int} {x : Word} (h : isNaN (ofF32 x) = true) : exp2L t x = nanF := by
  simp [exp2L, nanL, h]

theorem inf_fvLt (s : Bool) (i : Int) : fvLt (.inf s) (fvOfInt i) = s := by
  rw [fvOfInt_eq]
  rfl

/-- EXP2 of a finite datum: flushed below `t`, +∞ from 128 on, and from there on ⌊x⌋ decides. -/
theorem exp2L_finite {t : Int} {x : Word} {n : Bool} {m : Nat} {e : Int} (h : ofF32 x = .fin n m e) :
    exp2L t x = if fvVal (ofF32 x) < t then zeroF else if 128 ≤ fvVal (ofF32 x) then infF
      else if fvVal (ofF32 x) = ⌊fvVal (ofF32 x)⌋ then pow2F ⌊fvVal (ofF32 x)⌋
      else clampF (pow2F ⌊fvVal (ofF32 x)⌋) (pow2F (⌊fvVal (ofF32 x)⌋ + 1)) (exp2Free (ofF32 x) ⌊fvVal (ofF32 x)⌋) := by
  have num : nanL x = false := by rw [nanL, h]; rfl
  have high := fvLt_fvOfInt n m e 128
  rw [Int.cast_ofNat] at high
  simp only [exp2L, num, Bool.false_eq_true, if_false, if_neg (fin_ne_inf h ofF32_infF),
    if_neg (fin_ne_inf h ofF32_negInfF), h, fvLt_fvOfInt, floorF_fin, Bool.not_eq_true', ← Bool.not_eq_true, high, not_lt,
    decide_eq_true_eq]

/-- EXP2 of a finite datum from `t` up and below 128, for the integer n = ⌊x⌋. -/
theorem exp2L_between {t : Int} {x : Word} {s : Bool} {m : Nat} {e : Int} (h : ofF32 x = .fin s m e) (ht : -126 ≤ t)
    (low : (t : ℚ) ≤ fvVal (ofF32 x)) (high : fvVal (ofF32 x) < 128) {n : Int} (hn : n = ⌊fvVal (ofF32 x)⌋) :
    t ≤ n ∧ n ≤ 127 ∧ (fvVal (ofF32 x) = n → exp2L t x = pow2F n) ∧
    (n + 127).toNat * 2 ^ 23 ≤ (exp2L t x).toNat ∧ (exp2L t x).toNat ≤ (n + 128).toNat * 2 ^ 23 := by
  have above : t ≤ n := hn ▸ Int.le_floor.mpr low
  have below : n ≤ 127 := by
    have : n < 128 := hn ▸ Int.floor_lt.mpr (by exact_mod_cast high)
    omega
  rw [exp2L_finite h, if_neg (not_lt.mpr low), if_neg (not_le.mpr high), ← hn]
  refine ⟨above, below, fun eq => if_pos eq, ?_⟩
  split
  · rw [pow2F_toNat (by omega) (by omega)]
    omega
  · exact clampF_pow2F (by omega) below _

/-! ## LOG2 (R156) -/

theorem ftz_normal {x : Word} (h : bits x 23 8 ≠ 0) : ftz x = x := if_neg h

/-- A magnitude below the normal ones is flushed to a zero of its sign. -/
theorem ftz_denormal {x : Word} (h : bits x 23 8 = 0) : ftz x = 0 ∨ ftz x = 0x80000000 := by
  have kept : ftz x = x &&& BitVec.twoPow 32 31 := by
    rw [ftz, if_pos h, setBits]
    have mask : ~~~BitVec.ofNat 32 ((2 ^ 31 - 1) * 2 ^ 0) = BitVec.twoPow 32 31 := by decide
    rw [mask]
    exact BitVec.or_zero
  rw [kept, BitVec.and_twoPow]
  split
  · exact .inr rfl
  · exact .inl rfl

theorem normal_of_isNaN {x : Word} (h : isNaN (ofF32 x) = true) : bits x 23 8 ≠ 0 := by
  have := (isNaN_ofF32 x).mp h
  unfold bits
  omega

theorem zeroL_normal {x : Word} (h : bits x 23 8 ≠ 0) : zeroL x = false := by
  refine decide_eq_false fun zero => h ?_
  have low : (absL x).toNat = x.toNat % 2 ^ 31 := by
    rw [absL, BitVec.toNat_and]
    exact Nat.and_two_pow_sub_one_eq_mod x.toNat 31
  rw [zero] at low
  have : x.toNat % 2 ^ 31 = 0 := low.symm
  unfold bits
  omega

theorem log2L_nan {x : Word} (h : isNaN (ofF32 x) = true) : log2L x = nanF := by
  simp [log2L, ftz_normal (normal_of_isNaN h), nanL, h]

theorem log2L_denormal {x : Word} (h : bits x 23 8 = 0) : log2L x = negInfF := by
  unfold log2L
  rcases ftz_denormal h with zero | zero <;> rw [zero] <;> rfl

theorem log2L_negative {x : Word} (num : isNaN (ofF32 x) = false) (nor : bits x 23 8 ≠ 0) (sign : bit x 31 = true) :
    log2L x = nanF := by
  simp [log2L, ftz_normal nor, nanL, num, zeroL_normal nor, negSign, sign]

/-- LOG2 of a power of two is its exponent. -/
theorem log2L_pow2 {n : Nat} (h : n < 254) :
    log2L (BitVec.ofNat 32 ((n + 1) * 2 ^ 23)) = toF32 (fvOfInt ((n : Int) - 126)) := by
  generalize hx : (BitVec.ofNat 32 ((n + 1) * 2 ^ 23) : Word) = x
  have word : x.toNat = (n + 1) * 2 ^ 23 := by
    rw [← hx, BitVec.toNat_ofNat, Nat.mod_eq_of_lt (by omega)]
  have field : bits x 23 8 = n + 1 := by unfold bits; omega
  have mant : bits x 0 23 = 0 := by unfold bits; omega
  have nor : bits x 23 8 ≠ 0 := by omega
  have num : nanL x = false := by
    rw [nanL, ← Bool.not_eq_true, isNaN_ofF32]
    omega
  have sign : negSign x = false := by
    rw [negSign, bit, BitVec.getLsbD]
    exact Nat.testBit_lt_two_pow (by omega)
  have finite : x ≠ infF := by
    rintro rfl
    have : infF.toNat = 255 * 2 ^ 23 := rfl
    omega
  have exponent : ((n + 1 : Nat) : Int) - 127 = n - 126 := by omega
  simp [log2L, ftz_normal nor, num, zeroL_normal nor, sign, finite, ilogF, field, mant, ← exponent]

/-- Settles O31: the special values are the branches of EXP2 and LOG2, and between integers EXP2 is clamped between
the powers of two of the floor of its argument and of the next integer. -/
theorem exp2AndLog2SpecialValues : Obligations.Exp2AndLog2SpecialValues := by
  unfold Obligations.Exp2AndLog2SpecialValues
  refine ⟨fun t x ht top => ⟨exp2L_nan, rfl, rfl, ?flushed, ?overflow, ?between⟩,
    fun x => ⟨log2L_nan, log2L_denormal, log2L_negative, rfl, fun n => log2L_pow2⟩⟩
  case flushed =>
    intro num low
    rcases ofF32_cases num with rfl | rfl | ⟨m, e, fin⟩
    · rw [ofF32_infF, inf_fvLt] at low
      cases low
    · rfl
    · rw [fin, fvLt_fvOfInt, ← fin] at low
      rw [exp2L_finite fin, if_pos low]
      rfl
  case overflow =>
    intro num high
    rcases ofF32_cases num with rfl | rfl | ⟨m, e, fin⟩
    · rfl
    · rw [ofF32_negInfF, inf_fvLt] at high
      cases high
    · rw [← Bool.not_eq_true, fin, fvLt_fvOfInt, ← fin, not_lt, Int.cast_ofNat] at high
      have below : (t : ℚ) ≤ 128 := by exact_mod_cast (show t ≤ 128 by omega)
      rw [exp2L_finite fin, if_neg (not_lt.mpr (below.trans high)), if_pos high]
      rfl
  case between =>
    intro num low high
    rcases ofF32_cases num with rfl | rfl | ⟨m, e, fin⟩
    · rw [ofF32_infF, inf_fvLt] at high
      cases high
    · rw [ofF32_negInfF, inf_fvLt] at low
      cases low
    · rw [← Bool.not_eq_true, fin, fvLt_fvOfInt, ← fin, not_lt] at low
      rw [fin, fvLt_fvOfInt, ← fin, Int.cast_ofNat] at high
      obtain ⟨above, below, exact, bounds⟩ := exp2L_between fin ht low high rfl
      refine ⟨⌊fvVal (ofF32 x)⌋, above, below, ?_, ?_, fun eq => ?_, bounds⟩
      · rw [fin, ← Bool.not_eq_true, fvLt_fvOfInt, not_lt, ← fin]
        exact Int.floor_le _
      · rw [fin, fvLt_fvOfInt, ← fin, Int.cast_add, Int.cast_one]
        exact Int.lt_floor_add_one _
      · rw [fin, fvEq_fvOfInt, ← fin] at eq
        rw [exact eq, pow2F_eq (by omega) (by omega)]

end Sys2Proof.Machine
end

section
/-! What a row unit operation leaves as it was, whatever it reads, and what writing tiles gives (05 R148, R153, R170). -/

namespace Sys2Proof.Machine

/-! ## The frame of a row unit operation -/

/-- From `d` to `e` no core but `n`, no byte of memory and nothing of the MX queue of core `n` has changed. -/
structure RuOnly (n : Nat) (d e : Dev) : Prop where
  others : ∀ m, m ≠ n → getCore e m = getCore d m
  mem : e.mem = d.mem
  queue : (getMx e n).q = (getMx d n).q

theorem RuOnly.refl (n : Nat) (d : Dev) : RuOnly n d d := ⟨fun _ _ => rfl, rfl, rfl⟩

theorem RuOnly.trans {n : Nat} {d e f : Dev} (h : RuOnly n d e) (k : RuOnly n e f) : RuOnly n d f :=
  ⟨fun m hm => (k.others m hm).trans (h.others m hm), k.mem.trans h.mem, k.queue.trans h.queue⟩

theorem RuOnly.foldl {n : Nat} {α : Type} (f : Dev → α → Dev) (only : ∀ d a, RuOnly n d (f d a)) (l : List α) (d : Dev) :
    RuOnly n d (l.foldl f d) := by
  induction l generalizing d with
  | nil => exact .refl n d
  | cons a l ih => exact (only d a).trans (ih _)

theorem ruOnly_of_cores {n : Nat} {d e : Dev} (cores : e.cores = d.cores) (mem : e.mem = d.mem) : RuOnly n d e := by
  have same (m : Nat) : getCore e m = getCore d m := by rw [getCore, getCore, cores]
  exact ⟨fun m _ => same m, mem, by rw [getMx, getMx, same]⟩

theorem ruOnly_putCore {n : Nat} {d : Dev} {c : Core} (h : c.mx.q = (getMx d n).q) : RuOnly n d (putCore d n c) :=
  ⟨fun m hm => getCore_putCore_other d n m c hm, putCore_mem d n c, by rw [getMx, getCore_putCore, h]⟩

theorem ruOnly_putMx {n : Nat} {d : Dev} {m : Mx} (h : m.q = (getMx d n).q) : RuOnly n d (putMx d n m) :=
  ruOnly_putCore h

theorem ruOnly_memRecord (n : Nat) (d : Dev) (s : Word) (code m u l1 l2 det : Nat) (inj : Bool) :
    RuOnly n d (memRecord d s code m u l1 l2 det inj) :=
  ruOnly_of_cores (by rw [(sweepOnly_memRecord d s code m u l1 l2 det inj).frame]) (memRecord_mem d s code m u l1 l2 det inj)

theorem ruOnly_readMarks (n : Nat) (d : Dev) (mem lo hi : Nat) (p : Nat → Bool) (loc : Nat → Nat × Nat) :
    RuOnly n d (readMarks d n mem lo hi p loc).2 :=
  RuOnly.foldl _ (fun d _ => ruOnly_memRecord n d _ _ _ _ _ _ _ _) _ d

theorem ruOnly_checkTile (n i rows cols : Nat) (d : Dev) : RuOnly n d (checkTile n i rows cols d) := by
  have read := ruOnly_readMarks n d 0x07 (256 * i) (256 * i + 256) (inMasks rows cols) fun x => (x / 256, x % 256 / 16)
  unfold checkTile
  dsimp only
  split
  · exact read.trans (ruOnly_putMx rfl)
  · exact read

theorem ruOnly_checkSources (n : Nat) (o : MxOp) (d : Dev) : RuOnly n d (checkSources n o d) := by
  unfold checkSources
  split
  · exact RuOnly.foldl _ (fun d _ => ruOnly_checkTile n _ _ _ d) _ d
  · exact .refl n d

theorem ruOnly_checkSet (n i : Nat) (d : Dev) : RuOnly n d (checkSet n i d) := by
  have read := ruOnly_readMarks n d 0x08 (64 * i) (64 * i + 64) (fun _ => true) fun x => (x / 64, x % 16)
  unfold checkSet
  dsimp only
  split
  · exact read.trans (ruOnly_putCore rfl)
  · exact read

theorem ruOnly_dropMarks (n : Nat) (d : Dev) (mem unit lo hi : Nat) (p : Nat → Bool) :
    RuOnly n d (dropMarks d mem unit lo hi p) := ruOnly_of_cores rfl rfl

theorem putStageMap_q (m : Mx) (kind : Nat) (x : SMap (Option Byte)) : (putStageMap m kind x).q = m.q := by
  unfold putStageMap
  split <;> rfl

theorem ruOnly_stagePuts (n : Nat) (d : Dev) (kind i : Nat) (vs : List Byte) : RuOnly n d (stagePuts d n kind i vs) := by
  unfold stagePuts
  split
  · exact .refl n d
  · refine RuOnly.trans ?_ (ruOnly_putMx (putStageMap_q _ _ _))
    refine RuOnly.trans (ruOnly_of_cores (e := { d with errs := _ }) rfl rfl) (ruOnly_of_cores ?_ (writeWord_mem _ _ _ _ _))
    rw [(sweepOnly_writeWord _ _ _ _ _).frame]

/-! ## Tiles that are written -/

/-- A tile with the elements that `f` names written (R148). -/
def written (t : Tile) (f : Nat → Nat → Option Word) : Tile :=
  { openDst t with el := (List.range 256).map fun j => (f (j / 16) (j % 16)).getD ((openDst t).el.getD j 0) }

theorem writeTile_eq (m : Mx) (i : Nat) (f : Nat → Nat → Option Word) :
    writeTile m i f = putTile m i (written (getTile m i) f) := rfl

theorem openDst_class (t : Tile) : (openDst t).int = false ∧ (openDst t).scale = oneF ∧ (openDst t).empty = false := by
  unfold openDst
  split
  · exact ⟨rfl, rfl, rfl⟩
  · next h => exact ⟨rfl, rfl, by simpa using h⟩

theorem tileEl_openDst (t : Tile) {r j : Nat} (hr : r < 16) (hj : j < 16) :
    tileEl (openDst t) r j = if t.empty then 0 else tileEl t r j := by
  unfold openDst
  split
  · simp only [tileEl, startTile]
    exact List.getD_replicate _ (by omega)
  · rfl

theorem tileEl_written (t : Tile) (f : Nat → Nat → Option Word) {r j : Nat} (hr : r < 16) (hj : j < 16) :
    tileEl (written t f) r j = (f r j).getD (if t.empty then 0 else tileEl t r j) := by
  have row : (16 * r + j) / 16 = r := by omega
  have col : (16 * r + j) % 16 = j := by omega
  rw [← tileEl_openDst t hr hj, tileEl, written, List.getD_eq_getElem?_getD, List.getElem?_map,
    List.getElem?_range (by omega), Option.map_some, Option.getD_some, row, col]
  rfl

theorem getTile_putTile_same (m : Mx) (i : Nat) (t : Tile) : getTile (putTile m i t) i = t := mapGet_put_same _ _ _ _

theorem getTile_putTile_other (m : Mx) {i k : Nat} (t : Tile) (h : k ≠ i) : getTile (putTile m i t) k = getTile m k :=
  mapGet_put_other _ _ _ _ _ h

section
variable {α : Type} (ix : α → Nat) (f : α → Nat → Nat → Option Word)

theorem writeTiles_q (l : List α) (m : Mx) : (l.foldl (fun m x => writeTile m (ix x) (f x)) m).q = m.q := by
  induction l generalizing m with
  | nil => rfl
  | cons a l ih => exact ih _

/-- A tile that is not named is not written. -/
theorem getTile_writeTiles_other (l : List α) (m : Mx) {i : Nat} (h : i ∉ l.map ix) :
    getTile (l.foldl (fun m x => writeTile m (ix x) (f x)) m) i = getTile m i := by
  induction l generalizing m with
  | nil => rfl
  | cons a l ih =>
    simp only [List.map_cons, List.mem_cons, not_or] at h
    obtain ⟨head, tail⟩ := h
    rw [List.foldl_cons, ih _ tail, writeTile_eq, getTile_putTile_other _ _ head]

/-- A tile that is named once is written once. -/
theorem getTile_writeTiles (l : List α) (m : Mx) (once : (l.map ix).Nodup) {x : α} (hx : x ∈ l) :
    getTile (l.foldl (fun m x => writeTile m (ix x) (f x)) m) (ix x) = written (getTile m (ix x)) (f x) := by
  induction l generalizing m with
  | nil => cases hx
  | cons a l ih =>
    rw [List.map_cons, List.nodup_cons] at once
    obtain ⟨fresh, once⟩ := once
    rw [List.foldl_cons]
    rcases List.mem_cons.mp hx with rfl | hx
    · rw [getTile_writeTiles_other ix f l _ fresh, writeTile_eq, getTile_putTile_same]
    · have apart : ix x ≠ ix a := fun eq => fresh (eq ▸ List.mem_map_of_mem hx)
      rw [ih _ once hx, writeTile_eq, getTile_putTile_other _ _ apart]

end

/-! ## The frame of the operations -/

theorem poisonTiles_q (l : List Nat) (m : Mx) :
    (l.foldl (fun m i => putTile m i { openDst (getTile m i) with poison := true }) m).q = m.q := by
  induction l generalizing m with
  | nil => rfl
  | cons a l ih => exact ih _

theorem ruOnly_ruHalt (n : Nat) (d : Dev) (o : MxOp) (tile : Bool) : RuOnly n d (ruHalt d n o tile) := by
  unfold ruHalt
  dsimp only
  refine RuOnly.trans ?_ (ruOnly_putMx rfl)
  refine ruOnly_putCore ?_
  split
  · split <;> exact poisonTiles_q _ _
  · rfl

theorem ruOnly_writeAfb (n : Nat) (d : Dev) (desc : BitVec 128) (cols : Nat) (f : Nat → Nat → Option Word) :
    RuOnly n d (writeAfb d n desc cols f) := ruOnly_stagePuts n d _ _ _

/-- An operation that meets a poisoned source tile halts after what it has done (R170). -/
theorem RuOnly.halts {n : Nat} {d e : Dev} (h : RuOnly n d e) (o : MxOp) (p : Prop) [Decidable p] :
    RuOnly n d (if p then ruHalt e n o true else e) := by
  split
  · exact h.trans (ruOnly_ruHalt n e o true)
  · exact h

theorem ruOnly_runAccumulate (n : Nat) (d : Dev) (o : MxOp) : RuOnly n d (runAccumulate d n o) := by
  unfold runAccumulate
  dsimp only
  generalize (ruInit o.desc || decide ((getRs (getCore d n) (ruSet o.desc)).mode = .empty)) = fresh
  have checked : RuOnly n d (if fresh then d else checkSet n (ruSet o.desc) d) := by
    split
    · exact .refl n d
    · exact ruOnly_checkSet n _ d
  generalize (if fresh then d else checkSet n (ruSet o.desc) d) = e at checked ⊢
  refine checked.trans ?_
  split
  · exact ruOnly_ruHalt n e o false
  · refine RuOnly.halts ?_ o _
    exact ((ruOnly_checkSources n o e).trans (ruOnly_dropMarks n _ 0x08 n _ _ _)).trans (ruOnly_putCore rfl)

/-- The set as an operation that writes finds it: sealed, where it uses one (R161, R165). -/
def setInForce (c : Core) (o : MxOp) : RowSet :=
  if usesSet o.kind then sealSet (getRs c (ruSet o.desc)) else getRs c (ruSet o.desc)

/-- The core with that set. -/
def sealedCore (c : Core) (o : MxOp) : Core :=
  if usesSet o.kind then putRs c (ruSet o.desc) (setInForce c o) else c

/-- What `runWriting` does with sources and a set that it may read. -/
def storeResults (d : Dev) (n : Nat) (o : MxOp) : Dev :=
  let c := sealedCore (getCore d n) o
  let d' := putCore d n c
  let as := goodArrays c.mx o
  let out := ruOut c o (ruThreshold d' n) (setInForce (getCore d n) o) as
  if ruAfb o.desc then writeAfb d' n o.desc (16 * as.length) out
  else as.foldl (fun d x => wroteTile n (tileIx x.1 (ruDst o.desc)) (ruRows o.desc)
    (colsOf (ruArrays o.desc) (ruCols o.desc) x.1) d) (putMx d' n (as.foldl (fun m x =>
      writeTile m (tileIx x.1 (ruDst o.desc)) fun r k => out r (16 * x.2 + k)) c.mx))

/-- The reads of `runWriting`. -/
def readOperands (d : Dev) (n : Nat) (o : MxOp) : Dev :=
  checkSources n o (if usesSet o.kind then checkSet n (ruSet o.desc) d else d)

theorem runWriting_eq (d : Dev) (n : Nat) (o : MxOp) : runWriting d n o =
    if (usesSet o.kind && (getRs (getCore (readOperands d n o) n) (ruSet o.desc)).poison) = true then
      ruHalt (readOperands d n o) n o false
    else if (goodArrays (sealedCore (getCore (readOperands d n o) n) o).mx o).length < (arraysOf (ruArrays o.desc)).length
      then ruHalt (storeResults (readOperands d n o) n o) n o true
    else storeResults (readOperands d n o) n o := rfl

theorem sealedCore_mx (c : Core) (o : MxOp) : (sealedCore c o).mx = c.mx := by
  unfold sealedCore
  split <;> rfl

theorem ruOnly_storeResults (n : Nat) (d : Dev) (o : MxOp) : RuOnly n d (storeResults d n o) := by
  have stored := ruOnly_putCore (congrArg Mx.q (sealedCore_mx (getCore d n) o))
  unfold storeResults
  dsimp only
  refine stored.trans ?_
  split
  · exact ruOnly_writeAfb n _ _ _ _
  · refine RuOnly.trans (ruOnly_putMx ?_) (RuOnly.foldl _ (fun d x => ruOnly_dropMarks n d 0x07 n _ _ _) _ _)
    rw [getMx, getCore_putCore]
    exact writeTiles_q _ _ _ _

theorem ruOnly_runWriting (n : Nat) (d : Dev) (o : MxOp) : RuOnly n d (runWriting d n o) := by
  have read : RuOnly n d (readOperands d n o) := by
    refine RuOnly.trans ?_ (ruOnly_checkSources n o _)
    split
    · exact ruOnly_checkSet n _ d
    · exact .refl n d
  rw [runWriting_eq]
  refine read.trans ?_
  split
  · exact ruOnly_ruHalt n _ o false
  · exact (ruOnly_storeResults n _ o).halts o _

theorem ruOnly_runRowout (n : Nat) (d : Dev) (o : MxOp) : RuOnly n d (runRowout d n o) := by
  unfold runRowout
  dsimp only
  refine (ruOnly_checkSet n (ruSet o.desc) d).trans ?_
  generalize checkSet n (ruSet o.desc) d = e
  split
  · exact ruOnly_ruHalt n e o false
  · refine RuOnly.trans (ruOnly_putCore ?_) (RuOnly.foldl _ (fun d x => ruOnly_dropMarks n d 0x07 n _ _ _) _ _)
    exact writeTiles_q id _ _ _

theorem ruOnly_runRu (n : Nat) (d : Dev) (o : MxOp) : RuOnly n d (runRu d n o) := by
  unfold runRu
  split
  · exact ruOnly_runAccumulate n d o
  · exact ruOnly_runAccumulate n d o
  · exact ruOnly_runRowout n d o
  · exact ruOnly_runWriting n d o

end Sys2Proof.Machine
end

section
/-! What a row unit operation writes where no error mark stands and nothing it reads is poisoned (05 R146 to R148, R159
to R167, R170). -/

namespace Sys2Proof.Machine

/-! ## Reads without error marks -/

theorem marksIn_clean {d : Dev} {n : Nat} (clean : CleanCore d n) {mem : Nat} (hm : mem = 0x07 ∨ mem = 0x08)
    (lo hi : Nat) (p : Nat → Bool) : marksIn d mem n lo hi p = [] := by
  refine List.filter_eq_nil_iff.mpr fun e he hit => ?_
  simp only [Bool.and_eq_true, decide_eq_true_eq] at hit
  obtain ⟨⟨⟨⟨code, unit⟩, -⟩, -⟩, -⟩ := hit
  obtain ⟨-, -, tile, set⟩ := clean e he unit
  rcases hm with rfl | rfl
  · exact tile code
  · exact set code

theorem checkTile_clean {d : Dev} {n : Nat} (clean : CleanCore d n) (i rows cols : Nat) :
    checkTile n i rows cols d = d := by
  simp only [checkTile, readMarks, marksIn_clean clean (.inl rfl), List.any_nil, List.foldl_nil, Bool.false_eq_true,
    if_false]

theorem checkSet_clean {d : Dev} {n : Nat} (clean : CleanCore d n) (i : Nat) : checkSet n i d = d := by
  simp only [checkSet, readMarks, marksIn_clean clean (.inr rfl), List.any_nil, List.foldl_nil, Bool.false_eq_true,
    if_false]

theorem checkSources_clean {d : Dev} {n : Nat} (clean : CleanCore d n) (o : MxOp) : checkSources n o d = d := by
  unfold checkSources
  split
  · generalize arraysOf (ruArrays o.desc) = l
    induction l with
    | nil => rfl
    | cons a l ih => rw [List.foldl_cons, checkTile_clean clean, ih]
  · rfl

theorem readOperands_clean {d : Dev} {n : Nat} (clean : CleanCore d n) (o : MxOp) : readOperands d n o = d := by
  rw [readOperands, checkSet_clean clean, ite_self, checkSources_clean clean]

/-! ## Arrays and their positions (R147) -/

theorem arraysOf_nodup (m : Nat) : (arraysOf m).Nodup := List.nodup_range.filter _

theorem length_arraysOf_le (m : Nat) : (arraysOf m).length ≤ 4 := List.length_filter_le _ (List.range 4)

/-- The arrays of an operation with their positions. -/
def positions (o : MxOp) : List (Nat × Nat) := (arraysOf (ruArrays o.desc)).zip (List.range 4)

theorem positions_fst (o : MxOp) : (positions o).map Prod.fst = arraysOf (ruArrays o.desc) :=
  List.map_fst_zip (by rw [List.length_range]; exact length_arraysOf_le _)

theorem length_positions (o : MxOp) : (positions o).length = (arraysOf (ruArrays o.desc)).length := by
  rw [← positions_fst, List.length_map]

theorem positions_snd (o : MxOp) : (positions o).map Prod.snd = List.range (arraysOf (ruArrays o.desc)).length := by
  have le := length_arraysOf_le (ruArrays o.desc)
  refine List.ext_getElem (by rw [List.length_map, length_positions, List.length_range]) fun i h _ => ?_
  simp [positions]

theorem mem_positions {o : MxOp} {a q : Nat} (h : (arraysOf (ruArrays o.desc))[q]? = some a) : (a, q) ∈ positions o := by
  have le := length_arraysOf_le (ruArrays o.desc)
  obtain ⟨lt, at'⟩ := List.getElem?_eq_some_iff.mp h
  refine List.mem_iff_getElem?.mpr ⟨q, ?_⟩
  rw [positions, List.getElem?_zip_eq_some]
  exact ⟨h, List.getElem?_range (by omega)⟩

/-- Positions tell the arrays apart. -/
theorem eq_of_mem_positions {o : MxOp} {x y : Nat × Nat} (hx : x ∈ positions o) (hy : y ∈ positions o)
    (h : x.2 = y.2) : x = y := by
  have once : ((positions o).map Prod.snd).Nodup := by rw [positions_snd]; exact List.nodup_range
  exact List.inj_on_of_nodup_map once hx hy h

theorem goodArrays_eq {m : Mx} {o : MxOp}
    (good : ∀ a ∈ arraysOf (ruArrays o.desc), (getTile m (tileIx a (ruSrc o.desc))).poison = false) :
    goodArrays m o = positions o := by
  refine List.takeWhile_eq_self_iff.mpr fun x hx => ?_
  rw [good x.1 (positions_fst o ▸ List.mem_map_of_mem hx)]
  rfl

/-- The source tiles of an operation that reads tiles. -/
theorem good_sources {m : Mx} {o : MxOp} (ru : isRu o.kind = true) (reads : o.kind ≠ .ruRowout)
    (good : ∀ i ∈ readsTiles o, (getTile m i).poison = false) :
    ∀ a ∈ arraysOf (ruArrays o.desc), (getTile m (tileIx a (ruSrc o.desc))).poison = false := by
  have tiles : readsTiles o = (arraysOf (ruArrays o.desc)).map fun a => tileIx a (ruSrc o.desc) := by
    unfold readsTiles
    cases h : o.kind with
    | wld | sld | mma | drain | tzero =>
      rw [h] at ru
      cases ru
    | ruRowout => exact absurd h reads
    | ruMap | ruSmax1 | ruSmax2 | ruStat | ruNorm => rfl
  intro a ha
  exact good _ (tiles ▸ List.mem_map_of_mem ha)

/-! ## A halt at the set (R170) -/

theorem getCore_ruHalt (d : Dev) (n : Nat) (o : MxOp) : getCore (ruHalt d n o false) n =
    { getCore d n with mx := { getMx d n with deferred := (getMx d n).deferred ++
      [{ id := o.id, uid := o.uid, slot := o.slot, pos := o.pos, spx := false, code := 0x11, addr := BitVec.ofNat 64 0 }] } } := by
  simp only [ruHalt, deferMx, deferFault, putMx, getMx, getCore_putCore, Bool.false_eq_true, if_false]

/-- Whether an operation that updates a set starts it anew (R160, R164). -/
def restarts (c : Core) (o : MxOp) : Bool := ruInit o.desc || decide ((getRs c (ruSet o.desc)).mode = .empty)

theorem restarts_iff (c : Core) (o : MxOp) :
    restarts c o = true ↔ ruInit o.desc = true ∨ (getRs c (ruSet o.desc)).mode = .empty := by
  rw [restarts, Bool.or_eq_true, decide_eq_true_eq]

/-- The set that an operation updates. -/
def startSet (c : Core) (o : MxOp) : RowSet :=
  if !restarts c o then getRs c (ruSet o.desc) else if o.kind = .ruSmax1 then smaxInit else statInit

/-- The core after an update over the arrays `as`. -/
def updatedCore (d : Dev) (n : Nat) (o : MxOp) (as : List (Nat × Nat)) : Core :=
  putRs (getCore d n) (ruSet o.desc) (ruUpdate (getCore d n) o (ruThreshold d n) (startSet (getCore d n) o) as)

theorem runAccumulate_clean {d : Dev} {n : Nat} (clean : CleanCore d n) (o : MxOp) : runAccumulate d n o =
    if (!restarts (getCore d n) o && (getRs (getCore d n) (ruSet o.desc)).poison) = true then ruHalt d n o false
    else
      let e := putCore (wroteSet n (ruSet o.desc) d) n (updatedCore d n o (goodArrays (getMx d n) o))
      if (goodArrays (getMx d n) o).length < (arraysOf (ruArrays o.desc)).length then ruHalt e n o true else e := by
  unfold runAccumulate
  simp only [checkSet_clean clean, checkSources_clean clean, ite_self]
  rfl

/-- RU.SMAX1 and RU.STAT with a set and sources that are not poisoned. -/
theorem runAccumulate_good {d : Dev} {n : Nat} {o : MxOp} (clean : CleanCore d n)
    (set : restarts (getCore d n) o = true ∨ (getRs (getCore d n) (ruSet o.desc)).poison = false)
    (good : ∀ a ∈ arraysOf (ruArrays o.desc), (getTile (getMx d n) (tileIx a (ruSrc o.desc))).poison = false) :
    runAccumulate d n o = putCore (wroteSet n (ruSet o.desc) d) n (updatedCore d n o (positions o)) := by
  have runs : (!restarts (getCore d n) o && (getRs (getCore d n) (ruSet o.desc)).poison) = false := by
    rcases set with h | h <;> simp [h]
  rw [runAccumulate_clean clean, goodArrays_eq good, length_positions, runs]
  dsimp only
  rw [if_neg Bool.false_ne_true, if_neg (Nat.lt_irrefl _)]

/-- RU.MAP, RU.SMAX2 and RU.NORM with a set and sources that are not poisoned. -/
theorem runWriting_good {d : Dev} {n : Nat} {o : MxOp} (clean : CleanCore d n)
    (set : usesSet o.kind = true → (getRs (getCore d n) (ruSet o.desc)).poison = false)
    (good : ∀ a ∈ arraysOf (ruArrays o.desc), (getTile (getMx d n) (tileIx a (ruSrc o.desc))).poison = false) :
    runWriting d n o = storeResults d n o := by
  have runs : (usesSet o.kind && (getRs (getCore d n) (ruSet o.desc)).poison) = false := by
    cases h : usesSet o.kind
    · rfl
    · rw [set h]
      rfl
  have as := goodArrays_eq (m := (sealedCore (getCore d n) o).mx) (o := o) (by rw [sealedCore_mx]; exact good)
  rw [runWriting_eq, readOperands_clean clean, runs, as, length_positions, if_neg Bool.false_ne_true,
    if_neg (Nat.lt_irrefl _)]

/-- RU.ROWOUT with a set that is not poisoned. -/
theorem runRowout_clean {d : Dev} {n : Nat} (clean : CleanCore d n) (o : MxOp) : runRowout d n o =
    let s0 := getRs (getCore d n) (ruSet o.desc)
    if s0.poison = true then ruHalt d n o false
    else
      let s := if ruFunc o.desc = 1 then sealSet s0 else s0
      (writesTiles o).foldl (fun d i => wroteTile n i (ruRows o.desc) 0xF d) <|
        putCore d n { putRs (getCore d n) (ruSet o.desc) s with
          mx := (writesTiles o).foldl (fun m i => writeTile m i fun r k =>
            if (ruRows o.desc).testBit r ∧ k < 4 then some ((rowOut o.desc s r).getD k 0) else none) (getMx d n) } := by
  unfold runRowout
  rw [checkSet_clean clean]
  rfl

/-- An operation on a poisoned set that it does not start anew halts. -/
theorem runRu_poisoned {d : Dev} {n : Nat} {o : MxOp} (clean : CleanCore d n) (ru : isRu o.kind = true)
    (set : o.kind ≠ .ruMap) (poison : (getRs (getCore d n) (ruSet o.desc)).poison = true)
    (kept : ¬((o.kind = .ruSmax1 ∨ o.kind = .ruStat) ∧ restarts (getCore d n) o = true)) :
    runRu d n o = ruHalt d n o false := by
  have accumulate (h : o.kind = .ruSmax1 ∨ o.kind = .ruStat) : runAccumulate d n o = ruHalt d n o false := by
    have old : restarts (getCore d n) o = false := Bool.eq_false_iff.mpr fun r => kept ⟨h, r⟩
    rw [runAccumulate_clean clean, old, poison]
    rfl
  unfold runRu
  split
  · next h => exact accumulate (.inl h)
  · next h => exact accumulate (.inr h)
  · rw [runRowout_clean clean]
    exact if_pos poison
  · have uses : usesSet o.kind = true := by rw [usesSet, ru]; exact decide_eq_true set
    rw [runWriting_eq, readOperands_clean clean, uses, poison]
    rfl

/-! ## Row state updates (R160, R164) -/

/-- One segment: the set after row `r` of the array at position `x.2`. -/
def segmentUpdate (c : Core) (o : MxOp) (t : Int) (x : Nat × Nat) (s : RowSet) (r : Nat) : RowSet :=
  let v := segment (getTile c.mx (tileIx x.1 (ruSrc o.desc))) (o.factor.getD x.2 0) r
  if o.kind = .ruSmax1 then smaxRow t s r v (incLanes o x.2 r) else statRow s r v (incLanes o x.2 r)

theorem ruUpdate_eq (c : Core) (o : MxOp) (t : Int) (s : RowSet) (as : List (Nat × Nat)) :
    ruUpdate c o t s as = as.foldl (fun s x => (List.range 16).foldl (segmentUpdate c o t x) s) s := rfl

theorem getD_setRow {α : Type} (l : List α) (dv v : α) (r : Nat) {i : Nat} (hi : i < 16) :
    (setRow l dv r v).getD i dv = if i = r then v else l.getD i dv := by
  rw [setRow, List.getD_eq_getElem?_getD, List.getElem?_map, List.getElem?_range hi]
  rfl

/-- An update of a row leaves the set's mode, seal and poison and counts the included lanes. -/
structure RowCounted (s s' : RowSet) (r k : Nat) : Prop where
  mode : s'.mode = s.mode
  unsealed : s'.sealed = s.sealed
  poison : s'.poison = s.poison
  count : s'.n = if k = 0 then s.n else setRow s.n 0 r (addN (s.n.getD r 0) k)

theorem rowCounted_smaxRow (t : Int) (s : RowSet) (r : Nat) (x : List Word) (inc : List Nat) :
    RowCounted s (smaxRow t s r x inc) r inc.length := by
  cases inc with
  | nil => exact ⟨rfl, rfl, rfl, rfl⟩
  | cons c l =>
    unfold smaxRow
    rw [if_neg (List.cons_ne_nil c l)]
    dsimp only
    split
    · exact ⟨rfl, rfl, rfl, rfl⟩
    · split <;> exact ⟨rfl, rfl, rfl, rfl⟩

theorem rowCounted_statRow (s : RowSet) (r : Nat) (x : List Word) (inc : List Nat) :
    RowCounted s (statRow s r x inc) r inc.length := by
  cases inc with
  | nil => exact ⟨rfl, rfl, rfl, rfl⟩
  | cons c l => exact ⟨rfl, rfl, rfl, rfl⟩

theorem rowCounted_segmentUpdate (c : Core) (o : MxOp) (t : Int) (x : Nat × Nat) (s : RowSet) (r : Nat) :
    RowCounted s (segmentUpdate c o t x s r) r (incLanes o x.2 r).length := by
  unfold segmentUpdate
  split
  · exact rowCounted_smaxRow _ _ _ _ _
  · exact rowCounted_statRow _ _ _ _

section
variable {s s' : RowSet} {r k : Nat} (h : RowCounted s s' r k)
include h

theorem RowCounted.other {i : Nat} (hi : i < 16) (ne : i ≠ r) : s'.n.getD i 0 = s.n.getD i 0 := by
  rw [h.count]
  split
  · rfl
  · rw [getD_setRow _ _ _ _ hi, if_neg ne]

theorem RowCounted.same (hr : r < 16) (small : s.n.getD r 0 < 2 ^ 32) : s'.n.getD r 0 = addN (s.n.getD r 0) k := by
  rw [h.count]
  split
  · next none => rw [none, addN, Nat.add_zero, Nat.min_eq_left (by omega)]
  · rw [getD_setRow _ _ _ _ hr, if_pos rfl]

end

section
variable (c : Core) (o : MxOp) (t : Int)

/-- The mode, the seal and the poison of a set. -/
def setStatus (s : RowSet) : RsMode × Bool × Bool := (s.mode, s.sealed, s.poison)

theorem setStatus_rows (x : Nat × Nat) (l : List Nat) (s : RowSet) :
    setStatus (l.foldl (segmentUpdate c o t x) s) = setStatus s := by
  induction l generalizing s with
  | nil => rfl
  | cons r l ih =>
    have row := rowCounted_segmentUpdate c o t x s r
    rw [List.foldl_cons, ih, setStatus, row.mode, row.unsealed, row.poison, setStatus]

theorem setStatus_ruUpdate (as : List (Nat × Nat)) (s : RowSet) : setStatus (ruUpdate c o t s as) = setStatus s := by
  rw [ruUpdate_eq]
  induction as generalizing s with
  | nil => rfl
  | cons x as ih => rw [List.foldl_cons, ih, setStatus_rows]

theorem count_rows_other (x : Nat × Nat) (l : List Nat) (s : RowSet) {r : Nat} (hr : r < 16) (h : r ∉ l) :
    (l.foldl (segmentUpdate c o t x) s).n.getD r 0 = s.n.getD r 0 := by
  induction l generalizing s with
  | nil => rfl
  | cons i l ih =>
    simp only [List.mem_cons, not_or] at h
    obtain ⟨ne, tail⟩ := h
    rw [List.foldl_cons, ih _ tail, (rowCounted_segmentUpdate c o t x s i).other hr ne]

theorem count_rows (x : Nat × Nat) {l : List Nat} (once : l.Nodup) (s : RowSet) {r : Nat} (hr : r < 16) (h : r ∈ l)
    (small : s.n.getD r 0 < 2 ^ 32) :
    (l.foldl (segmentUpdate c o t x) s).n.getD r 0 = addN (s.n.getD r 0) (incLanes o x.2 r).length := by
  induction l generalizing s with
  | nil => cases h
  | cons i l ih =>
    rw [List.nodup_cons] at once
    obtain ⟨fresh, once⟩ := once
    have row := rowCounted_segmentUpdate c o t x s i
    rw [List.foldl_cons]
    rcases List.mem_cons.mp h with rfl | h
    · rw [count_rows_other c o t x l _ hr fresh, row.same hr small]
    · have ne : r ≠ i := fun eq => fresh (eq ▸ h)
      have kept := row.other hr ne
      rw [ih once _ h (kept ▸ small), kept]

theorem addN_lt (n k : Nat) : addN n k < 2 ^ 32 := by
  unfold addN
  omega

/-- Each row's count grows by its included elements, array after array. -/
theorem count_ruUpdate (as : List (Nat × Nat)) (s : RowSet) {r : Nat} (hr : r < 16) (small : s.n.getD r 0 < 2 ^ 32) :
    (ruUpdate c o t s as).n.getD r 0 =
      (as.map Prod.snd).foldl (fun v q => addN v (incLanes o q r).length) (s.n.getD r 0) := by
  rw [ruUpdate_eq]
  induction as generalizing s with
  | nil => rfl
  | cons x as ih =>
    have rows := count_rows c o t x List.nodup_range s hr (List.mem_range.mpr hr) small
    rw [List.foldl_cons, ih _ (rows ▸ addN_lt _ _), rows, List.map_cons, List.foldl_cons]

end

theorem startSet_restarts {c : Core} {o : MxOp} (h : restarts c o = true) :
    startSet c o = if o.kind = .ruSmax1 then smaxInit else statInit := by
  rw [startSet, h]
  rfl

theorem startSet_kept {c : Core} {o : MxOp} (h : restarts c o = false) : startSet c o = getRs c (ruSet o.desc) := by
  rw [startSet, h]
  rfl

theorem getD_startSet_n (c : Core) (o : MxOp) {r : Nat} (hr : r < 16) : (startSet c o).n.getD r 0 =
    if restarts c o = true then 0 else (getRs c (ruSet o.desc)).n.getD r 0 := by
  have zero : (List.replicate 16 0).getD r 0 = 0 := List.getD_replicate _ hr
  split
  · next h =>
    rw [startSet_restarts h]
    split <;> exact zero
  · next h => rw [startSet_kept (Bool.eq_false_iff.mpr h)]

/-! ## Results (R147, R148, R161, R166, R167) -/

theorem getCore_tilesWrote (n : Nat) {α : Type} (ix cols : α → Nat) (rows : Nat) (l : List α) (d : Dev) :
    getCore (l.foldl (fun d x => wroteTile n (ix x) rows (cols x) d) d) n = getCore d n := by
  induction l generalizing d with
  | nil => rfl
  | cons a l ih => rw [List.foldl_cons, ih]; rfl

/-- The tiles after an operation has stored its results in tiles. -/
theorem getMx_storeResults {d : Dev} {n : Nat} {o : MxOp} (tile : ruAfb o.desc = false)
    (good : ∀ a ∈ arraysOf (ruArrays o.desc), (getTile (getMx d n) (tileIx a (ruSrc o.desc))).poison = false) :
    getMx (storeResults d n o) n = (positions o).foldl (fun m x => writeTile m (tileIx x.1 (ruDst o.desc)) fun r k =>
      ruOut (sealedCore (getCore d n) o) o (ruThreshold d n) (setInForce (getCore d n) o) (positions o) r (16 * x.2 + k))
      (getMx d n) := by
  have as := goodArrays_eq (m := (sealedCore (getCore d n) o).mx) (o := o) (by rw [sealedCore_mx]; exact good)
  unfold storeResults
  dsimp only
  rw [tile, if_neg Bool.false_ne_true, as, getMx, getCore_tilesWrote, putMx, getCore_putCore, sealedCore_mx]
  rfl

/-- The result at one element. -/
theorem ruOut_at (c : Core) (o : MxOp) (t : Int) (s : RowSet) {a q : Nat} (h : (a, q) ∈ positions o) (r : Nat) {j : Nat}
    (hj : j < 16) : ruOut c o t s (positions o) r (16 * q + j) =
      if included o.kind o.desc q r j then
        some (ruResult o.kind o.desc t s r
          (ruValue (getTile c.mx (tileIx a (ruSrc o.desc))) (o.factor.getD q 0) r j))
      else none := by
  have row : (16 * q + j) / 16 = q := by omega
  have col : (16 * q + j) % 16 = j := by omega
  have found : ((positions o).find? fun x => decide (x.2 = q)) = some (a, q) := by
    cases find : (positions o).find? fun x => decide (x.2 = q) with
    | none => exact absurd (decide_eq_true rfl) (List.find?_eq_none.mp find (a, q) h)
    | some y =>
      have at' : y.2 = q := of_decide_eq_true (List.find?_some find :)
      rw [eq_of_mem_positions (List.mem_of_find?_eq_some find) h at']
  rw [ruOut, row, col, found]

theorem tileIx_nodup (l : List Nat) (once : l.Nodup) (t : Nat) : (l.map fun a => tileIx a t).Nodup :=
  once.map fun a b h => by unfold tileIx at h; omega

end Sys2Proof.Machine
end

section
/-! RU_OP_START: what each operation of the row unit writes and leaves (05 R146 to R170). -/

namespace Sys2Proof.Machine

/-! ## The event -/

theorem exec_ruOpStart (core : BitVec 11) (s : State) :
    exec (.ruOpStart core) s = gated s "RU_OP_START" (ruStart core s.dev) := rfl

/-- The oldest operation that has not started begins. -/
theorem ruStart_of_find {core : BitVec 11} {d : Dev} {o : MxOp}
    (oldest : ((getMx d core.toNat).q.find? fun p => isRu p.kind && !p.started) = some o)
    (up : coreUp d core.toNat = true) (may : mayStart (getCore d core.toNat) o = true) :
    ruStart core d = some (markStarted (runRu d core.toNat o) core.toNat o.id) := by
  unfold ruStart
  dsimp only
  rw [← getMx, oldest]
  exact if_pos (by rw [up, may]; rfl)

/-- The queue of core `n` with operation `id` started. -/
def startedQueue (m : Mx) (id : Nat) : List MxOp := m.q.map fun p => if p.id = id then { p with started := true } else p

theorem getCore_markStarted (d : Dev) (n id : Nat) : getCore (markStarted d n id) n =
    { getCore d n with mx := { getMx d n with q := startedQueue (getMx d n) id } } := getCore_putCore _ _ _

theorem getMx_markStarted (d : Dev) (n id : Nat) :
    getMx (markStarted d n id) n = { getMx d n with q := startedQueue (getMx d n) id } := by
  rw [getMx, getCore_markStarted]

theorem getTile_markStarted (d : Dev) (n id i : Nat) :
    getTile (getMx (markStarted d n id) n) i = getTile (getMx d n) i := by
  rw [getMx_markStarted]
  rfl

theorem ru_markStarted (d : Dev) (n id : Nat) : (getCore (markStarted d n id) n).ru = (getCore d n).ru := by
  rw [getCore_markStarted]

/-- What starting an operation leaves, whatever it reads. -/
theorem started_frame (s : State) (n : Nat) (o : MxOp) {t : State}
    (ht : t = s.withDev (markStarted (runRu s.dev n o) n o.id)) :
    Started s t n o ∧ (∀ m, m ≠ n → getCore t.dev m = getCore s.dev m) ∧ t.dev.mem = s.dev.mem := by
  subst ht
  have only := ruOnly_runRu n s.dev o
  refine ⟨?_, fun m hm => (getCore_putCore_other _ _ _ _ hm).trans (only.others m hm), only.mem⟩
  rw [Started, withDev_dev, getMx_markStarted, startedQueue, only.queue]

/-! ## Each operation -/

theorem runRu_writing {d : Dev} {n : Nat} {o : MxOp} (h : o.kind = .ruMap ∨ o.kind = .ruSmax2 ∨ o.kind = .ruNorm) :
    runRu d n o = runWriting d n o := by
  rcases h with h | h | h <;> rw [runRu, h]

theorem runRu_accumulate {d : Dev} {n : Nat} {o : MxOp} (h : o.kind = .ruSmax1 ∨ o.kind = .ruStat) :
    runRu d n o = runAccumulate d n o := by
  rcases h with h | h <;> rw [runRu, h]

theorem runRu_rowout {d : Dev} {n : Nat} {o : MxOp} (h : o.kind = .ruRowout) : runRu d n o = runRowout d n o := by
  rw [runRu, h]

theorem positions_tiles (o : MxOp) (t : Nat) :
    ((positions o).map fun x => tileIx x.1 t) = (arraysOf (ruArrays o.desc)).map fun a => tileIx a t := by
  rw [← positions_fst, List.map_map]
  rfl

theorem writesTiles_writing {o : MxOp} (h : o.kind = .ruMap ∨ o.kind = .ruSmax2 ∨ o.kind = .ruNorm)
    (tile : ruAfb o.desc = false) :
    writesTiles o = (positions o).map fun x => tileIx x.1 (ruDst o.desc) := by
  rw [positions_tiles]
  rcases h with h | h | h <;> rw [writesTiles, h] <;> simp only [tile, Bool.false_eq_true, if_false]

theorem writesTiles_rowout_nodup {o : MxOp} (h : o.kind = .ruRowout) : (writesTiles o).Nodup := by
  rw [writesTiles, h]
  exact tileIx_nodup _ ((List.take_sublist 1 _).nodup (arraysOf_nodup _)) _

theorem ruResult_copy {o : MxOp} (h : o.kind = .ruMap) (copy : ruFunc o.desc = 10) (t : Int) (s : RowSet) (r : Nat)
    (x : Word) : ruResult o.kind o.desc t s r x = x := by
  have map : ruResult o.kind o.desc t s r x = mapL (ruFunc o.desc) t (ruParamL o.desc) x := by rw [h]; rfl
  rw [map, copy]
  rfl

/-- RU.MAP asks nothing of the set; the others use it sealed. -/
theorem ruResult_setInForce (c : Core) {o : MxOp} (h : o.kind = .ruMap ∨ o.kind = .ruSmax2 ∨ o.kind = .ruNorm) (t : Int)
    (r : Nat) (x : Word) : ruResult o.kind o.desc t (setInForce c o) r x =
      ruResult o.kind o.desc t (sealSet (getRs c (ruSet o.desc))) r x := by
  rcases h with h | h | h
  · rw [h]
    rfl
  all_goals
    have uses : usesSet o.kind = true := by rw [h]; rfl
    rw [setInForce, if_pos uses]

section
variable {d : Dev} {n : Nat} {o : MxOp}

/-- The tiles after RU.MAP, RU.SMAX2 or RU.NORM. -/
theorem getTile_runWriting (clean : CleanCore d n) (kind : o.kind = .ruMap ∨ o.kind = .ruSmax2 ∨ o.kind = .ruNorm)
    (tile : ruAfb o.desc = false) (good : ∀ i ∈ readsTiles o, (getTile (getMx d n) i).poison = false)
    (set : o.kind ≠ .ruMap → (getRs (getCore d n) (ruSet o.desc)).poison = false) :
    (∀ i, i ∉ writesTiles o → getTile (getMx (runRu d n o) n) i = getTile (getMx d n) i) ∧
    ∀ a q, (arraysOf (ruArrays o.desc))[q]? = some a →
      getTile (getMx (runRu d n o) n) (tileIx a (ruDst o.desc)) =
        written (getTile (getMx d n) (tileIx a (ruDst o.desc))) fun r k =>
          ruOut (sealedCore (getCore d n) o) o (ruThreshold d n) (setInForce (getCore d n) o) (positions o) r (16 * q + k) := by
  have ru : isRu o.kind = true := by rcases kind with h | h | h <;> rw [h] <;> rfl
  have reads : o.kind ≠ .ruRowout := by rcases kind with h | h | h <;> rw [h] <;> decide
  have sources := good_sources ru reads good
  have known (uses : usesSet o.kind = true) : (getRs (getCore d n) (ruSet o.desc)).poison = false := by
    refine set fun map => ?_
    rw [map] at uses
    cases uses
  rw [runRu_writing kind, runWriting_good clean known sources, getMx_storeResults tile sources,
    writesTiles_writing kind tile]
  have once : ((positions o).map fun x => tileIx x.1 (ruDst o.desc)).Nodup := by
    rw [positions_tiles]
    exact tileIx_nodup _ (arraysOf_nodup _) _
  exact ⟨fun i hi => getTile_writeTiles_other _ _ _ _ hi,
    fun a q h => getTile_writeTiles _ _ _ _ once (mem_positions h)⟩

/-- A destination tile after RU.MAP, RU.SMAX2 or RU.NORM: its class, and each element (R147, R148). -/
theorem tileEl_runWriting (clean : CleanCore d n) (kind : o.kind = .ruMap ∨ o.kind = .ruSmax2 ∨ o.kind = .ruNorm)
    (tile : ruAfb o.desc = false) (good : ∀ i ∈ readsTiles o, (getTile (getMx d n) i).poison = false)
    (set : o.kind ≠ .ruMap → (getRs (getCore d n) (ruSet o.desc)).poison = false)
    {a q : Nat} (h : (arraysOf (ruArrays o.desc))[q]? = some a) {T0 T : Tile}
    (hT0 : T0 = getTile (getMx d n) (tileIx a (ruDst o.desc)))
    (hT : T = getTile (getMx (runRu d n o) n) (tileIx a (ruDst o.desc))) :
    (T.int = false ∧ T.scale = oneF ∧ T.empty = false) ∧ ∀ r j, r < 16 → j < 16 → tileEl T r j =
      if included o.kind o.desc q r j = true then
        ruResult o.kind o.desc (ruThreshold d n) (sealSet (getRs (getCore d n) (ruSet o.desc))) r
          (ruValue (getTile (getMx d n) (tileIx a (ruSrc o.desc))) (o.factor.getD q 0) r j)
      else if T0.empty then 0 else tileEl T0 r j := by
  have named := (getTile_runWriting clean kind tile good set).2 a q h
  rw [← hT0, ← hT] at named
  rw [named]
  refine ⟨openDst_class T0, fun r j hr hj => ?_⟩
  rw [tileEl_written _ _ hr hj, ruOut_at _ _ _ _ (mem_positions h) r hj, sealedCore_mx, ruResult_setInForce _ kind]
  split <;> rfl

/-- The set after RU.SMAX1 or RU.STAT. -/
theorem getCore_runAccumulate (clean : CleanCore d n) (kind : o.kind = .ruSmax1 ∨ o.kind = .ruStat)
    (good : ∀ i ∈ readsTiles o, (getTile (getMx d n) i).poison = false)
    (set : restarts (getCore d n) o = true ∨ (getRs (getCore d n) (ruSet o.desc)).poison = false) :
    getCore (runRu d n o) n = updatedCore d n o (positions o) := by
  have ru : isRu o.kind = true := by rcases kind with h | h <;> rw [h] <;> rfl
  have reads : o.kind ≠ .ruRowout := by rcases kind with h | h <;> rw [h] <;> decide
  rw [runRu_accumulate kind, runAccumulate_good clean set (good_sources ru reads good), getCore_putCore]

theorem getRs_runAccumulate (clean : CleanCore d n) (kind : o.kind = .ruSmax1 ∨ o.kind = .ruStat)
    (good : ∀ i ∈ readsTiles o, (getTile (getMx d n) i).poison = false)
    (set : restarts (getCore d n) o = true ∨ (getRs (getCore d n) (ruSet o.desc)).poison = false) :
    getRs (getCore (runRu d n o) n) (ruSet o.desc) =
      ruUpdate (getCore d n) o (ruThreshold d n) (startSet (getCore d n) o) (positions o) := by
  rw [getCore_runAccumulate clean kind good set]
  exact mapGet_put_same _ _ _ _

/-- A set that is started anew is open, not poisoned, and of the operation's mode. -/
theorem status_of_restarts (kind : o.kind = .ruSmax1 ∨ o.kind = .ruStat) (anew : restarts (getCore d n) o = true)
    (t : Int) (as : List (Nat × Nat)) :
    setStatus (ruUpdate (getCore d n) o t (startSet (getCore d n) o) as) =
      (if o.kind = .ruSmax1 then .smax else .stat, false, false) := by
  rw [setStatus_ruUpdate, startSet_restarts anew]
  rcases kind with h | h <;> rw [h] <;> rfl

/-- The counts of a set that is started anew, or that holds counts of 32 bits. -/
theorem count_updated (small : restarts (getCore d n) o = true ∨
      ∀ r, (getRs (getCore d n) (ruSet o.desc)).n.getD r 0 < 2 ^ 32) (t : Int) {r : Nat} (hr : r < 16) :
    (ruUpdate (getCore d n) o t (startSet (getCore d n) o) (positions o)).n.getD r 0 =
      (List.range (arraysOf (ruArrays o.desc)).length).foldl (fun v q => addN v (incLanes o q r).length)
        (if restarts (getCore d n) o = true then 0 else (getRs (getCore d n) (ruSet o.desc)).n.getD r 0) := by
  have start := getD_startSet_n (getCore d n) o hr
  have bound : (startSet (getCore d n) o).n.getD r 0 < 2 ^ 32 := by
    rw [start]
    split
    · decide
    · next old => exact small.resolve_left old r
  rw [count_ruUpdate _ _ _ _ _ hr bound, positions_snd, start]

/-- The tiles after RU.SMAX1 or RU.STAT, also where the set is poisoned. -/
theorem tiles_runAccumulate (clean : CleanCore d n) (kind : o.kind = .ruSmax1 ∨ o.kind = .ruStat)
    (good : ∀ i ∈ readsTiles o, (getTile (getMx d n) i).poison = false) :
    (getMx (runRu d n o) n).tiles = (getMx d n).tiles := by
  by_cases set : restarts (getCore d n) o = true ∨ (getRs (getCore d n) (ruSet o.desc)).poison = false
  · rw [getMx, getCore_runAccumulate clean kind good set]
    rfl
  · simp only [not_or, Bool.not_eq_false] at set
    obtain ⟨old, poison⟩ := set
    have ru : isRu o.kind = true := by rcases kind with h | h <;> rw [h] <;> rfl
    have map : o.kind ≠ .ruMap := by rcases kind with h | h <;> rw [h] <;> decide
    rw [runRu_poisoned clean ru map poison fun h => old h.2, getMx, getCore_ruHalt]

/-- The set that RU.ROWOUT shows (R167). -/
def shownSet (c : Core) (o : MxOp) : RowSet :=
  if ruFunc o.desc = 1 then sealSet (getRs c (ruSet o.desc)) else getRs c (ruSet o.desc)

/-- The tiles after RU.ROWOUT. -/
theorem getTile_runRowout (clean : CleanCore d n) (kind : o.kind = .ruRowout)
    (set : (getRs (getCore d n) (ruSet o.desc)).poison = false) {i : Nat} (hi : i ∈ writesTiles o) :
    getTile (getMx (runRu d n o) n) i = written (getTile (getMx d n) i) fun r k =>
      if (ruRows o.desc).testBit r ∧ k < 4 then some ((rowOut o.desc (shownSet (getCore d n) o) r).getD k 0) else none := by
  have once : ((writesTiles o).map id).Nodup := by rw [List.map_id]; exact writesTiles_rowout_nodup kind
  rw [runRu_rowout kind, runRowout_clean clean]
  dsimp only
  rw [set, if_neg Bool.false_ne_true, getMx, getCore_tilesWrote, getCore_putCore]
  exact getTile_writeTiles id (fun _ => _) _ _ once hi

end

/-- Settles O30: without error marks every read is clean, so that the operation runs as its rule gives; with them it
still changes no other core, no memory and no more of the queue than its own mark. -/
theorem rowUnitOperationsWriteTheirResults : Obligations.RowUnitOperationsWriteTheirResults := by
  unfold Obligations.RowUnitOperationsWriteTheirResults
  intro core s o oldest up may
  have ru : isRu o.kind = true := by
    have hit : (isRu o.kind && !o.started) = true := (List.find?_some oldest :)
    exact (Bool.and_eq_true_iff.mp hit).1
  refine ⟨_, by rw [exec_ruOpStart, ruStart_of_find oldest up may, gated_some], ?_⟩
  obtain ⟨started, others, mem⟩ := started_frame s core.toNat o rfl
  refine ⟨started, others, mem, fun clean => ⟨?writing, ?accumulate, ?rowout, ?poisoned⟩⟩
  case writing =>
    intro kind tile good set
    simp only [withDev_dev, getTile_markStarted]
    refine ⟨(getTile_runWriting clean kind tile good set).1, fun a q h T0 T hT0 hT => ?_⟩
    obtain ⟨⟨int, scale, full⟩, element⟩ := tileEl_runWriting clean kind tile good set h hT0 hT
    refine ⟨int, scale, full, fun r j hr hj => ?_⟩
    rw [element r j hr hj]
    exact ⟨fun out => if_neg (Bool.eq_false_iff.mp out), fun inc => if_pos inc,
      fun inc map copy => (if_pos inc).trans (ruResult_copy map copy _ _ _ _)⟩
  case accumulate =>
    intro kind good S0 S hS0 hS
    simp only [withDev_dev] at hS ⊢
    replace hS : S = getRs (getCore (runRu s.dev core.toNat o) core.toNat) (ruSet o.desc) := by
      rw [hS, getRs, ru_markStarted, getRs]
    simp only [hS0, ← or_assoc, ← restarts_iff]
    refine ⟨fun init mode poison => ?_, fun anew => ?_, fun known r hr => ?_, ?_⟩
    · have old : restarts (getCore s.dev core.toNat) o = false := by
        rw [restarts, init, decide_eq_false mode]
        rfl
      rw [hS, getRs_runAccumulate clean kind good (.inr poison), startSet_kept old, positions]
    · have status := status_of_restarts kind anew (ruThreshold s.dev core.toNat) (positions o)
      rw [← getRs_runAccumulate clean kind good (.inl anew), ← hS, setStatus, Prod.mk.injEq, Prod.mk.injEq] at status
      obtain ⟨mode, unsealed, poison⟩ := status
      exact ⟨unsealed, poison, mode⟩
    · rw [hS, getRs_runAccumulate clean kind good (known.imp_right And.left),
        count_updated (known.imp_right And.right) _ hr]
      rfl
    · rw [getMx_markStarted]
      exact tiles_runAccumulate clean kind good
  case rowout =>
    intro kind set i hi r j hr hj
    simp only [withDev_dev, getTile_markStarted]
    rw [getTile_runRowout clean kind set hi, tileEl_written _ _ hr hj]
    by_cases shown : (ruRows o.desc).testBit r = true ∧ j < 4
    · rw [if_pos shown, if_pos shown, Option.getD_some, shownSet]
    · rw [if_neg shown, if_neg shown, Option.getD_none]
  case poisoned =>
    intro map poison kept
    rw [withDev_dev, ru_markStarted, getMx_markStarted,
      runRu_poisoned clean ru map poison fun h => kept ⟨h.1, (restarts_iff _ _).mp h.2⟩]
    simp only [getMx, getCore_ruHalt]
    exact ⟨trivial, trivial, _, rfl, rfl, rfl, rfl⟩

end Sys2Proof.Machine
end

section
/-! BANK_WAKE_COMPLETE, SPX_BANK_STATE_WRITE and SPX_CORRECTION_WRITEBACK: a bank that has woken, banks turned OFF by
firmware, and a corrected byte written back (07 R209, R214, R222). -/

namespace Sys2Proof.Machine

theorem exec_bankWakeComplete (core : BitVec 11) (bank : BitVec 4) (s : State) :
    exec (.bankWakeComplete core bank) s = gated s "BANK_WAKE_COMPLETE" (bankWakeComplete core bank s.dev) := (rfl)

theorem exec_spxBankStateWrite (core : BitVec 11) (v : D64) (s : State) :
    exec (.spxBankStateWrite core v) s = ok s (spxBankStateWrite core v s.dev) := (rfl)

theorem exec_spxCorrectionWriteback (core : BitVec 11) (off : BitVec 19) (s : State) :
    exec (.spxCorrectionWriteback core off) s =
      gated s "SPX_CORRECTION_WRITEBACK" (spxCorrectionWriteback core off s.dev) := (rfl)

/-! ## A bank that has woken (07 R209, R212) -/

/-- Equal banks hold equal bytes. -/
theorem spadByte_of_bankAt {d e : Dev} {n o : Nat} (h : bankAt e n (o / 32768) = bankAt d n (o / 32768)) :
    spadByte e n o = spadByte d n o := by
  rw [spadByte_eq e n rfl, spadByte_eq d n rfl, h]

/-- A bank's state is apart from every byte. -/
theorem spadByte_setBankState (d : Dev) (n b v o : Nat) : spadByte (setBankState d n b v) n o = spadByte d n o := by
  simp only [spadByte, setBankState, getCore_putCore]

theorem spadByte_clearBank (d : Dev) (n b o : Nat) :
    spadByte (clearBank d n b) n o = if o / 32768 = b then 0 else spadByte d n o := by
  rw [spadByte_eq _ n rfl, bankAt_clearBank]
  split
  · rfl
  · rw [spadByte_eq d n rfl]

/-- A task that starts writes itself and words of owners: every bank stays as it is, and so does every other core. -/
theorem startWhenOn_frame (d : Dev) (n : Nat) (pos : Bool) :
    (∀ b, bankAt (startWhenOn d n pos) n b = bankAt d n b) ∧
    ∀ m, m ≠ n → getCore (startWhenOn d n pos) m = getCore d m := by
  unfold startWhenOn
  dsimp only
  split
  · split
    · refine ⟨fun b => ?_, fun m hm => getCore_putCore_other _ _ _ _ hm⟩
      rw [bankAt, getCore_putCore, putTask_spx]
      rfl
    · exact ⟨fun _ => rfl, fun _ _ => rfl⟩
  · exact ⟨fun _ => rfl, fun _ _ => rfl⟩

/-- The device with bank `b` of core `n` ON, initialised where it was to be. -/
def bankOnDev (d : Dev) (n b : Nat) : Dev :=
  setBankState (if bit (getCore d n).spx.initing b then clearBank d n b else d) n b bankOn

theorem bankWakeComplete_of_waking {core : BitVec 11} {bank : BitVec 4} {d : Dev} (up : coreUp d core.toNat = true)
    (waking : bankState (getCore d core.toNat).spx bank.toNat = bankWaking) : bankWakeComplete core bank d =
      some (startWhenOn (startWhenOn (bankOnDev d core.toNat bank.toNat) core.toNat false) core.toNat true) := by
  simp only [bankWakeComplete, up, decide_eq_true waking, Bool.and_self, if_true, bankOnDev]

theorem bankOnDev_only (d : Dev) (n b : Nat) : SpxOnly n d (bankOnDev d n b) := by
  refine SpxOnly.trans ?_ (setBankState_only _ n b bankOn)
  split
  · exact clearBank_only d n b
  · exact .refl n d

theorem state_bankOnDev (d : Dev) (n : Nat) {b : Nat} (hb : b < 16) : (bankAt (bankOnDev d n b) n b).state = bankOn := by
  rw [bankOnDev, bankAt_setBankState _ n hb (by decide), if_pos rfl]

theorem spadByte_bankOnDev (d : Dev) (n b o : Nat) : spadByte (bankOnDev d n b) n o =
    if o / 32768 = b ∧ bit (getCore d n).spx.initing b = true then 0 else spadByte d n o := by
  rw [bankOnDev, spadByte_setBankState]
  by_cases fresh : bit (getCore d n).spx.initing b = true
  · simp only [fresh, if_true, and_true, spadByte_clearBank]
  · rw [if_neg fresh, if_neg fun h => fresh h.2]

/-! ## Banks turned OFF by a write (07 R214) -/

/-- A bank that is OFF, with what else the scratchpad holds of it (07 R208). -/
def offView (v : BankView) : BankView := { v with state := bankOff, tag := 0, byte := fun _ => 0 }

section
variable (d : Dev) (n : Nat) (p : Nat → Prop) [DecidablePred p]

/-- One step of `turnOffBanks`. -/
def turnOffBank (d : Dev) (b : Nat) : Dev := if p b then bankTurnOff d n b else d

/-- The device with the banks of core `n` that satisfy `p` turned OFF. -/
def turnOffBanks : Dev := (List.range 16).foldl (turnOffBank n p) d

theorem turnOffBank_only (b : Nat) : SpxOnly n d (turnOffBank n p d b) := by
  unfold turnOffBank
  split
  · exact bankTurnOff_only d n b
  · exact .refl n d

theorem bankAt_turnOffBank (b : Nat) {c : Nat} (hc : c < 16) : bankAt (turnOffBank n p d b) n c =
    if c = b then (if p c then offView (bankAt d n c) else bankAt d n c) else bankAt d n c := by
  unfold turnOffBank
  by_cases hp : p b
  · rw [if_pos hp, bankAt_bankTurnOff d n b hc]
    split
    · rename_i same
      rw [same, if_pos hp]
      rfl
    · rfl
  · rw [if_neg hp]
    split
    · rename_i same
      rw [same, if_neg hp]
    · rfl

theorem turnOffBanks_views : SpxOnly n d (turnOffBanks d n p) ∧
    ∀ c, c < 16 → bankAt (turnOffBanks d n p) n c = if p c then offView (bankAt d n c) else bankAt d n c := by
  have h := foldl_banks (turnOffBank n p) (fun b v => if p b then offView v else v) (fun d b => turnOffBank_only d n p b)
    (fun d b _ hc => bankAt_turnOffBank d n p b hc) (List.nodup_range (n := 16)) d
  refine ⟨h.1, fun c hc => (h.2 c hc).trans ?_⟩
  rw [if_pos (List.mem_range.mpr hc)]

theorem bankTurnOff_frame (b : Nat) :
    bankTurnOff d n b = { d with cores := (bankTurnOff d n b).cores, errs := (bankTurnOff d n b).errs } := (rfl)

/-- Nothing but cores and error marks changes. -/
theorem turnOffBanks_frame :
    turnOffBanks d n p = { d with cores := (turnOffBanks d n p).cores, errs := (turnOffBanks d n p).errs } := by
  unfold turnOffBanks
  generalize List.range 16 = l
  induction l generalizing d with
  | nil => rfl
  | cons b l ih =>
    rw [List.foldl_cons, ih, turnOffBank]
    split
    · rw [bankTurnOff_frame]
    · rfl

end

theorem spxBankStateWrite_of_fenced {core : BitVec 11} {d : Dev} (fenced : coreFenced d core.toNat = true) (v : D64) :
    spxBankStateWrite core v d = d := by
  simp only [spxBankStateWrite, fenced, if_true]

theorem spxBankStateWrite_of_not_fenced {core : BitVec 11} {d : Dev} (clear : coreFenced d core.toNat = false)
    (v : D64) : spxBankStateWrite core v d = turnOffBanks d core.toNat fun b => bits v (2 * b) 2 = 0 ∧
      bankState (getCore d core.toNat).spx b = bankRetain ∧ inAnySet (getCore d core.toNat) b = false := by
  simp only [spxBankStateWrite, clear, Bool.false_eq_true, if_false]
  rfl

/-! ## A corrected byte written back (07 R222) -/

theorem markOf_clearMark (d : Dev) (mem unit index : Nat) :
    markOf (clearMark d mem unit index) mem unit index = none := by
  rw [markOf, clearMark, List.find?_eq_none]
  intro e he hit
  have kept := (List.mem_filter.mp he).2
  rw [hit] at kept
  exact absurd kept (by decide)

/-- Settles O24: waking, and turning OFF, act on one bank after another, so that each bank's view tells its state, tag and
bytes; writing back removes the byte's mark. -/
theorem banksWakeAndTurnOff : Obligations.BanksWakeAndTurnOff := by
  unfold Obligations.BanksWakeAndTurnOff
  refine ⟨?wake, ?turnOff, ?writeBack⟩
  case wake =>
    intro core bank s up waking
    refine ⟨_, by rw [exec_bankWakeComplete, bankWakeComplete_of_waking up waking, gated_some], ?_⟩
    rw [withDev_dev]
    obtain ⟨views, others⟩ := startWhenOn_frame (bankOnDev s.dev core.toNat bank.toNat) core.toNat false
    obtain ⟨views', others'⟩ :=
      startWhenOn_frame (startWhenOn (bankOnDev s.dev core.toNat bank.toNat) core.toNat false) core.toNat true
    have byte (o : Nat) := (spadByte_of_bankAt ((views' (o / 32768)).trans (views (o / 32768)))).trans
      (spadByte_bankOnDev s.dev core.toNat bank.toNat o)
    refine ⟨?_, fun o ho => ?_, fun o ho => ?_, fun n hn => ?_⟩
    · exact (congrArg BankView.state ((views' bank.toNat).trans (views bank.toNat))).trans
        (state_bankOnDev s.dev core.toNat bank.isLt)
    · simp only [byte, ho, true_and]
    · rw [byte, if_neg fun h => ho h.1]
    · rw [others' n hn, others n hn, (bankOnDev_only s.dev core.toNat bank.toNat).others n hn]
  case turnOff =>
    intro core v s
    refine ⟨_, by rw [exec_spxBankStateWrite, ok_eq], ?_⟩
    rw [withDev_dev]
    cases fenced : coreFenced s.dev core.toNat with
    | true =>
      rw [spxBankStateWrite_of_fenced fenced]
      exact ⟨rfl, fun _ => rfl, nofun, fun _ _ => rfl⟩
    | false =>
      rw [spxBankStateWrite_of_not_fenced fenced]
      obtain ⟨only, views⟩ := turnOffBanks_views s.dev core.toNat fun b => bits v (2 * b) 2 = 0 ∧
        bankState (getCore s.dev core.toNat).spx b = bankRetain ∧ inAnySet (getCore s.dev core.toNat) b = false
      refine ⟨turnOffBanks_frame _ _ _, nofun, fun _ b hb => ⟨fun off => ?_, fun stays => ?_⟩, only.others⟩
      · have view := (views b hb).trans (if_pos off)
        refine ⟨congrArg BankView.state view, congrArg BankView.tag view, fun o ho => ?_⟩
        rw [spadByte_eq _ _ ho, view, offView]
      · have view := (views b hb).trans (if_neg stays)
        refine ⟨congrArg BankView.state view, fun o ho => ?_⟩
        subst ho
        exact spadByte_of_bankAt view
  case writeBack =>
    intro core off s m marked seen single
    refine ⟨s.withDev (clearMark s.dev 0x05 core.toNat off.toNat), ?_, rfl, markOf_clearMark _ _ _ _⟩
    rw [exec_spxCorrectionWriteback, spxCorrectionWriteback, marked]
    simp only [seen, single, Bool.not_false, Bool.and_self, if_true, gated_some]

end Sys2Proof.Machine
end

section
/-! The range of a window access bank by bank, and the status that its banks answer (07 R200, R207, R219). -/

namespace Sys2Proof.Machine

theorem exec_spxWindowAccess (core : BitVec 11) (acc : WinAccess) (s : State) :
    exec (.spxWindowAccess core acc) s = gated s "SPX_WINDOW_ACCESS" (spxWindowAccess core acc s.dev) := (rfl)

/-! ## The banks of a range -/

theorem mem_banksIn {off len b : Nat} :
    b ∈ banksIn (off, len) ↔ 0 < len ∧ off < 32768 * (b + 1) ∧ 32768 * b < off + len := by
  unfold banksIn
  dsimp only
  split
  · rename_i none
    simp [none]
  · rw [List.mem_map]
    constructor
    · rintro ⟨i, hi, rfl⟩
      rw [List.mem_range] at hi
      omega
    · intro h
      exact ⟨b - off / 32768, List.mem_range.mpr (by omega), by omega⟩

theorem banksIn_sorted (off len : Nat) : (banksIn (off, len)).Pairwise (· < ·) := by
  unfold banksIn
  split
  · exact .nil
  · exact List.pairwise_lt_range.map _ fun i j h => Nat.add_lt_add_left h _

/-- Inside the scratchpad the banks of a range are those of the 16 that it meets. -/
theorem banksIn_eq_filter {off len : Nat} (some : 0 < len) (inside : off + len ≤ 0x80000) : banksIn (off, len) =
    (List.range 16).filter fun b => decide (off < 32768 * (b + 1)) && decide (32768 * b < off + len) := by
  refine (banksIn_sorted off len).eq_of_mem_iff (List.pairwise_lt_range.filter _) fun b => ?_
  rw [mem_banksIn, List.mem_filter, List.mem_range, Bool.and_eq_true, decide_eq_true_iff, decide_eq_true_iff]
  omega

/-- Where the part of a range in bank `b` starts, and how long it is. -/
def partStart (off b : Nat) : Nat := max off (32768 * b)
def partLen (off len b : Nat) : Nat := min (off + len) (32768 * (b + 1)) - max off (32768 * b)

/-- The part of a range in bank `b`, as an entry of `winParts`. -/
def winPart (off len b : Nat) : Nat × Nat × Nat := (b, partStart off b, partLen off len b)

theorem winParts_eq (off len : Nat) : winParts off len = (banksIn (off, len)).map (winPart off len) := (rfl)

theorem mem_part {off len b o : Nat} : (partStart off b ≤ o ∧ o < partStart off b + partLen off len b) ↔
    (off ≤ o ∧ o < off + len ∧ o / 32768 = b) := by
  unfold partStart partLen
  omega

/-- The parts of a range, one after the other, are the range. -/
theorem flatMap_parts {α : Type} (f : Nat → α) (off len : Nat) :
    ((banksIn (off, len)).flatMap fun b => (List.range (partLen off len b)).map fun i => f (partStart off b + i)) =
      (List.range len).map fun i => f (off + i) := by
  have upTo (k : Nat) : (((List.range k).map fun i => off / 32768 + i).flatMap fun b =>
      (List.range (partLen off len b)).map fun i => f (partStart off b + i)) =
        (List.range (min len (32768 * (off / 32768 + k) - off))).map fun i => f (off + i) := by
    induction k with
    | zero =>
      have none : min len (32768 * (off / 32768 + 0) - off) = 0 := by omega
      rw [none]
      rfl
    | succ k ih =>
      have grows : min len (32768 * (off / 32768 + (k + 1)) - off) =
          min len (32768 * (off / 32768 + k) - off) + partLen off len (off / 32768 + k) := by
        unfold partLen
        omega
      rw [List.range_succ, List.map_append, List.flatMap_append, ih, grows, List.range_add, List.map_append,
        List.map_map]
      refine congrArg _ ?_
      rw [List.map_singleton, List.flatMap_singleton]
      refine List.map_congr_left fun i hi => congrArg f ?_
      have inPart := List.mem_range.mp hi
      unfold partLen at inPart
      unfold partStart
      dsimp only
      omega
  unfold banksIn
  dsimp only
  split
  · rename_i none
    rw [none]
    rfl
  · rw [upTo]
    congr 2
    omega

/-! ## The status of a range -/

theorem winBank_eq (d : Dev) (n b : Nat) : winBank d n b = windowBank d n b := by
  simp only [winBank, windowBank, isOn, Bool.or_eq_true, Bool.not_eq_true', decide_eq_false_iff_not, or_assoc]
  refine if_congr Iff.rfl rfl ?_
  rw [← ite_not]
  refine if_congr ?_ rfl rfl
  tauto

/-- The first number of a list that is not 0, and 0 where there is none. -/
def firstFailing (l : List Nat) : Nat := l.foldl (fun a v => if a = 0 then v else a) 0

theorem firstFailing_cons (v : Nat) (l : List Nat) : firstFailing (v :: l) = if v = 0 then firstFailing l else v := by
  unfold firstFailing
  rw [List.foldl_cons, if_pos rfl]
  by_cases hv : v = 0
  · rw [hv, if_pos rfl]
  · rw [if_neg hv]
    induction l with
    | nil => rfl
    | cons w l ih => rw [List.foldl_cons, if_neg hv, ih]

theorem firstFailing_eq_find (l : List Nat) : firstFailing l = (l.find? fun s => s != 0).getD 0 := by
  induction l with
  | nil => rfl
  | cons v l ih => by_cases hv : v = 0 <;> simp [firstFailing_cons, hv, ih]

theorem firstFailing_eq_zero {l : List Nat} : firstFailing l = 0 ↔ ∀ v ∈ l, v = 0 := by
  induction l with
  | nil => simp [firstFailing]
  | cons v l ih => by_cases hv : v = 0 <;> simp [firstFailing_cons, hv, ih]

section
variable {off len : Nat} (inside : off + len ≤ 0x80000) (d : Dev) (n : Nat)
include inside

theorem windowStatus_eq : windowStatus d n off len = firstFailing ((banksIn (off, len)).map (windowBank d n)) := by
  unfold windowStatus
  split
  · rename_i none
    rw [none]
    rfl
  · rename_i some
    rw [banksIn_eq_filter (Nat.pos_of_ne_zero some) inside, firstFailing]

theorem winStatus_eq : winStatus d n off len = windowStatus d n off len := by
  rw [windowStatus_eq inside, firstFailing_eq_find, winStatus, winParts_eq, List.map_map]
  simp only [winBank_eq]
  rfl

theorem windowStatus_eq_zero : windowStatus d n off len = 0 ↔ ∀ b ∈ banksIn (off, len), windowBank d n b = 0 := by
  rw [windowStatus_eq inside, firstFailing_eq_zero, List.forall_mem_map]

end

end Sys2Proof.Machine
end

section
/-! A write through the scratchpad window: the bytes of the banks that pass, and no others (07 R219, R221). -/

namespace Sys2Proof.Machine

/-! ## Writing bytes -/

/-- The check bits of a word are no part of a core. -/
theorem getCore_writeWord (d : Dev) (target mem unit index m : Nat) :
    getCore (writeWord d target mem unit index) m = getCore d m := by
  rw [getCore, getCore, (sweepOnly_writeWord d target mem unit index).frame]

theorem spadByte_spxPut (d : Dev) (n off : Nat) (v : Byte) (o : Nat) :
    spadByte (spxPut d n off v) n o = if o = off then v else spadByte d n o := by
  simp only [spadByte, spxPut, getCore_putCore, getCore_writeWord]
  split
  · rename_i same
    rw [same, mapGet_put_same]
  · rename_i other
    rw [mapGet_put_other _ _ _ _ _ other]

theorem spxPuts_concat (d : Dev) (n off : Nat) (vs : List Byte) (v : Byte) :
    spxPuts d n off (vs ++ [v]) = spxPut (spxPuts d n off vs) n (off + vs.length) v := by
  simp only [spxPuts, List.length_append, List.length_singleton, List.range_succ,
    List.zip_append (List.length_range (n := vs.length)), List.foldl_append]
  rfl

theorem spadByte_spxPuts (d : Dev) (n off : Nat) (vs : List Byte) (o : Nat) : spadByte (spxPuts d n off vs) n o =
    if off ≤ o ∧ o < off + vs.length then vs.getD (o - off) 0 else spadByte d n o := by
  induction vs using List.reverseRecOn with
  | nil =>
    rw [List.length_nil, if_neg (by omega)]
    rfl
  | append_singleton vs v ih =>
    rw [spxPuts_concat, spadByte_spxPut, ih, List.length_append, List.length_singleton]
    by_cases last : o = off + vs.length
    · rw [if_pos last, if_pos (by omega), last, Nat.add_sub_cancel_left, List.getD_append_right _ _ _ _ (Nat.le_refl _),
        Nat.sub_self]
      rfl
    · rw [if_neg last]
      by_cases inside : off ≤ o ∧ o < off + vs.length
      · rw [if_pos inside, if_pos (by omega), List.getD_append _ _ _ _ (by omega)]
      · rw [if_neg inside, if_neg (by omega)]

/-! ## Writing the parts of a range -/

section
variable (n off : Nat) (data : List Byte)

/-- The data that falls in bank `b`. -/
def partData (b : Nat) : List Byte := (data.drop (partStart off b - off)).take (partLen off data.length b)

theorem length_partData (b : Nat) : (partData off data b).length = partLen off data.length b := by
  rw [partData, List.length_take, List.length_drop]
  unfold partStart partLen
  omega

theorem getD_partData {b o : Nat} (ho : partStart off b ≤ o ∧ o < partStart off b + partLen off data.length b) :
    (partData off data b).getD (o - partStart off b) 0 = data.getD (o - off) 0 := by
  have place : partStart off b - off + (o - partStart off b) = o - off := by
    have : off ≤ partStart off b := Nat.le_max_left _ _
    omega
  have taken : o - partStart off b < partLen off data.length b := by omega
  rw [partData, List.getD_eq_getElem?_getD, List.getElem?_take_of_lt taken, List.getElem?_drop, place,
    List.getD_eq_getElem?_getD]

/-- The write of the part in bank `b`, where the bank passes in `d`. -/
def writePart (d e : Dev) (b : Nat) : Dev :=
  if windowBank d n b = 0 then spxPuts e n (partStart off b) (partData off data b) else e

theorem winWrite_eq (d : Dev) : winWrite d n off data =
    (winStatus d n off data.length, (banksIn (off, data.length)).foldl (writePart n off data d) d) := by
  simp only [winWrite, winParts_eq, List.foldl_map, winBank_eq]
  rfl

/-- The write reaches the byte at `o`: the range holds it and its bank passes. -/
abbrev WriteReaches (d : Dev) (o : Nat) : Prop := off ≤ o ∧ o < off + data.length ∧ windowBank d n (o / 32768) = 0

theorem spadByte_writePart (d e : Dev) (b o : Nat) : spadByte (writePart n off data d e b) n o =
    if o / 32768 = b ∧ WriteReaches n off data d o then data.getD (o - off) 0 else spadByte e n o := by
  unfold writePart
  by_cases pass : windowBank d n b = 0
  · rw [if_pos pass, spadByte_spxPuts, length_partData]
    refine ite_congr (propext ?_) (fun h => getD_partData off data (mem_part.mpr ⟨h.2.1, h.2.2.1, h.1⟩)) fun _ => rfl
    rw [mem_part]
    constructor
    · rintro ⟨first, last, rfl⟩
      exact ⟨rfl, first, last, pass⟩
    · rintro ⟨bank, first, last, -⟩
      exact ⟨first, last, bank⟩
  · rw [if_neg pass, if_neg]
    rintro ⟨rfl, -, -, h⟩
    exact pass h

/-- The banks of a list, each written where it passes. -/
theorem spadByte_writeParts (d : Dev) (o : Nat) (bs : List Nat) (e : Dev) :
    spadByte (bs.foldl (writePart n off data d) e) n o =
      if o / 32768 ∈ bs ∧ WriteReaches n off data d o then data.getD (o - off) 0 else spadByte e n o := by
  induction bs generalizing e with
  | nil => rw [List.foldl_nil, if_neg fun h => List.not_mem_nil h.1]
  | cons b bs ih =>
    have split : (o / 32768 ∈ b :: bs ∧ WriteReaches n off data d o) ↔
        (o / 32768 ∈ bs ∧ WriteReaches n off data d o) ∨ (o / 32768 = b ∧ WriteReaches n off data d o) := by
      rw [List.mem_cons, or_comm, or_and_right]
    rw [List.foldl_cons, ih, spadByte_writePart, ← ite_or]
    exact if_congr split.symm rfl rfl

theorem spadByte_winWrite (d : Dev) (o : Nat) : spadByte (winWrite d n off data).2 n o =
    if off ≤ o ∧ o < off + data.length ∧ windowBank d n (o / 32768) = 0 then data.getD (o - off) 0
    else spadByte d n o := by
  rw [winWrite_eq, spadByte_writeParts]
  refine if_congr ⟨And.right, fun reached => ⟨?_, reached⟩⟩ rfl rfl
  obtain ⟨first, last, -⟩ := reached
  exact mem_banksIn.mpr (by omega)

end

theorem spxWindowAccess_write {core : BitVec 11} {acc : WinAccess} {d : Dev} (write : acc.write = true)
    (inside : acc.off.toNat + acc.data.length ≤ 0x80000) : spxWindowAccess core acc d =
      some { (winWrite d core.toNat acc.off.toNat acc.data).2 with
        win := (windowStatus d core.toNat acc.off.toNat acc.data.length, []) } := by
  simp only [spxWindowAccess, write, if_true, Nat.not_lt.mpr inside, if_false, winWrite_eq, winStatus_eq inside]

end Sys2Proof.Machine
end

section
/-! A read through the scratchpad window: the bytes of a range whose banks all pass, and the answer to an uncorrectable
error (07 R219, R222, R223). -/

namespace Sys2Proof.Machine

/-! ## Bytes without error marks -/

theorem spxGet_clean {d : Dev} {n off : Nat} (clean : markOf d 0x05 n off = none) :
    spxGet d n off = (some (spadByte d n off), d) := by
  simp only [spxGet, clean, spadByte]

theorem spxGets_clean {d : Dev} {n off len : Nat}
    (clean : ∀ o, off ≤ o → o < off + len → markOf d 0x05 n o = none) :
    spxGets d n off len = (some ((List.range len).map fun i => spadByte d n (off + i)), d) := by
  induction len with
  | zero => rfl
  | succ len ih =>
    have last := spxGet_clean (clean (off + len) (by omega) (by omega))
    simp only [spxGets, ih fun o h h' => clean o h (by omega), last, List.range_succ, List.map_append, List.map_singleton]

/-! ## One part of a range -/

/-- One step of `winRead`. -/
def readPart (n : Nat) (s : (Nat × List Byte) × Dev) (p : Nat × Nat × Nat) : (Nat × List Byte) × Dev :=
  if s.1.1 ≠ 0 then s
  else if windowBank s.2 n p.1 ≠ 0 then ((windowBank s.2 n p.1, []), s.2)
  else match spxGets s.2 n p.2.1 p.2.2 with
    | (some l, d) => ((0, s.1.2 ++ l), d)
    | (none, d) => ((5, []), d)

theorem winRead_eq (d : Dev) (n off len : Nat) : winRead d n off len =
    ((banksIn (off, len)).map (winPart off len)).foldl (readPart n) ((0, []), d) := by
  simp only [winRead, winParts_eq, winBank_eq]
  rfl

section
variable {n : Nat} {s : (Nat × List Byte) × Dev} {p : Nat × Nat × Nat}

theorem readPart_stopped (h : s.1.1 ≠ 0) : readPart n s p = s := if_pos h

theorem readPart_failing (h : s.1.1 = 0) (fails : windowBank s.2 n p.1 ≠ 0) :
    readPart n s p = ((windowBank s.2 n p.1, []), s.2) := by
  rw [readPart, if_neg (not_not.mpr h), if_pos fails]

theorem readPart_data (h : s.1.1 = 0) (pass : windowBank s.2 n p.1 = 0) {l : List Byte} {e : Dev}
    (gets : spxGets s.2 n p.2.1 p.2.2 = (some l, e)) : readPart n s p = ((0, s.1.2 ++ l), e) := by
  rw [readPart, if_neg (not_not.mpr h), if_neg (not_not.mpr pass), gets]

theorem readPart_error (h : s.1.1 = 0) (pass : windowBank s.2 n p.1 = 0)
    (gets : (spxGets s.2 n p.2.1 p.2.2).1 = none) :
    readPart n s p = ((5, []), (spxGets s.2 n p.2.1 p.2.2).2) := by
  rw [readPart, if_neg (not_not.mpr h), if_neg (not_not.mpr pass)]
  generalize spxGets s.2 n p.2.1 p.2.2 = r at gets ⊢
  obtain ⟨l, e⟩ := r
  cases gets
  rfl

theorem readParts_stopped (h : s.1.1 ≠ 0) (ps : List (Nat × Nat × Nat)) : ps.foldl (readPart n) s = s := by
  induction ps with
  | nil => rfl
  | cons p ps ih => rw [List.foldl_cons, readPart_stopped h, ih]

end

/-! ## A range without error marks -/

/-- The bytes of the part of a range in bank `b`. -/
def partBytes (d : Dev) (n off len b : Nat) : List Byte :=
  (List.range (partLen off len b)).map fun i => spadByte d n (partStart off b + i)

section
variable {d : Dev} {n off len : Nat} (clean : ∀ o, off ≤ o → o < off + len → markOf d 0x05 n o = none)
include clean

/-- The parts are read up to the first bank that fails, and then nothing of them is answered. -/
theorem readParts_clean (bs : List Nat) (acc : List Byte) :
    (bs.map (winPart off len)).foldl (readPart n) ((0, acc), d) =
      ((firstFailing (bs.map (windowBank d n)),
        if firstFailing (bs.map (windowBank d n)) = 0 then acc ++ bs.flatMap (partBytes d n off len) else []), d) := by
  induction bs generalizing acc with
  | nil => simp [firstFailing]
  | cons b bs ih =>
    rw [List.map_cons, List.map_cons, List.foldl_cons, firstFailing_cons]
    by_cases pass : windowBank d n b = 0
    · have gets : spxGets d n (partStart off b) (partLen off len b) = (some (partBytes d n off len b), d) :=
        spxGets_clean fun o first last => by
          obtain ⟨low, high, -⟩ := mem_part.mp ⟨first, last⟩
          exact clean o low high
      have data : readPart n ((0, acc), d) (winPart off len b) = ((0, acc ++ partBytes d n off len b), d) :=
        readPart_data (s := ((0, acc), d)) (p := winPart off len b) rfl pass gets
      rw [data, ih, if_pos pass, List.flatMap_cons, List.append_assoc]
    · have fails : readPart n ((0, acc), d) (winPart off len b) = ((windowBank d n b, []), d) :=
        readPart_failing (s := ((0, acc), d)) (p := winPart off len b) rfl pass
      rw [fails, readParts_stopped (s := ((windowBank d n b, []), d)) pass, if_neg pass, if_neg pass]

theorem winRead_clean (inside : off + len ≤ 0x80000) : winRead d n off len =
    ((windowStatus d n off len, if windowStatus d n off len = 0 then
      (List.range len).map fun i => spadByte d n (off + i) else []), d) := by
  rw [winRead_eq, readParts_clean clean, windowStatus_eq inside, ← flatMap_parts (spadByte d n) off len, List.nil_append]
  rfl

end

/-! ## What reading a byte leaves -/

/-- From `d` to `e` bytes of core `n`'s scratchpad were read: no core, no fence and no uncorrectable error of them has
changed. -/
structure SpadRead (n : Nat) (d e : Dev) : Prop where
  cores : e.cores = d.cores
  fence : coreFenced e n = coreFenced d n
  errors : ∀ o m, markOf d 0x05 n o = some m → m.dbl = true → markOf e 0x05 n o = some m

theorem SpadRead.refl (n : Nat) (d : Dev) : SpadRead n d d := ⟨rfl, rfl, fun _ _ h _ => h⟩

theorem SpadRead.trans {n : Nat} {d e f : Dev} (h : SpadRead n d e) (k : SpadRead n e f) : SpadRead n d f :=
  ⟨k.cores.trans h.cores, k.fence.trans h.fence, fun o m hm dbl => k.errors o m (h.errors o m hm dbl) dbl⟩

theorem SpadRead.windowBank {n : Nat} {d e : Dev} (h : SpadRead n d e) (b : Nat) :
    windowBank e n b = windowBank d n b := by
  have same : getCore e n = getCore d n := by rw [getCore, getCore, h.cores]
  simp only [Machine.windowBank, same, h.fence]

/-- Counting and recording leave cores and marks. -/
theorem spadRead_of_errs {n : Nat} {d e : Dev} (cores : e.cores = d.cores) (errs : e.errs = d.errs)
    (fence : regGet e (aCoreFence (n / 64)) = regGet d (aCoreFence (n / 64))) : SpadRead n d e :=
  ⟨cores, by rw [coreFenced, coreFenced, fence], fun o m h _ => by rwa [markOf, errs]⟩

theorem spadRead_regSet (n : Nat) (d : Dev) (lo w v : Nat) :
    SpadRead n d (regSet d (aSpxErr n) lo w v) := by
  refine spadRead_of_errs (regSet_cores d _ lo w v) (regSet_errs d _ lo w v) (regGet_regSet_other d _ _ lo w v ?_)
  unfold aCoreFence aSpxErr ccw
  omega

theorem spadRead_post (n : Nat) (d : Dev) (r : ErrRec) : SpadRead n d (post d r) := by
  refine spadRead_of_errs (by rw [post_only]) (by rw [post_only]) (post_regGet d r _ ?_)
  unfold aCoreFence aErrStatus
  omega

theorem spadRead_withFunnel (n : Nat) (d : Dev) (f : Funnel) : SpadRead n d { d with funnel := f } :=
  spadRead_of_errs rfl rfl rfl

theorem spadRead_memRecord (n : Nat) (d : Dev) (s : Word) (code mem unit l1 l2 det : Nat) (inj : Bool) :
    SpadRead n d (memRecord d s code mem unit l1 l2 det inj) := by
  unfold memRecord
  dsimp only
  split
  · unfold postMerged
    dsimp only
    split
    · exact (spadRead_withFunnel n d _).trans (spadRead_post n _ _)
    · exact spadRead_withFunnel n d _
  · exact spadRead_post n d _

/-- A mark is at a word when it names its memory, unit and index. -/
theorem atWord_iff (e : ErrMark) (mem unit index : Nat) :
    (decide (e.mem = mem) && decide (e.unit = unit) && decide (e.index = index)) = true ↔
      e.mem = mem ∧ e.unit = unit ∧ e.index = index := by
  simp only [Bool.and_eq_true, decide_eq_true_iff, and_assoc]

theorem word_of_markOf {d : Dev} {mem unit index : Nat} {m : ErrMark} (h : markOf d mem unit index = some m) :
    m.mem = mem ∧ m.unit = unit ∧ m.index = index :=
  (atWord_iff m mem unit index).mp (List.find?_some h :)

/-- A mark that is put at one word leaves the marks of the others. -/
theorem markOf_addMark_other (d : Dev) (k : ErrMark) {mem unit index : Nat}
    (other : ¬ (k.mem = mem ∧ k.unit = unit ∧ k.index = index)) :
    markOf (addMark d k) mem unit index = markOf d mem unit index := by
  have new := (not_congr (atWord_iff k mem unit index)).mpr other
  simp only [markOf, addMark, clearMark, List.find?_append, List.find?_filter, List.find?_cons, new, List.find?_nil,
    Option.or_none]
  refine congrArg (fun p => d.errs.find? p) (funext fun e => ?_)
  rw [Bool.eq_iff_iff, decide_eq_true_iff, and_iff_right_iff_imp, atWord_iff, Bool.not_eq_true', ← Bool.not_eq_true,
    atWord_iff]
  rintro ⟨rfl, rfl, rfl⟩ ⟨hmem, hunit, hindex⟩
  exact other ⟨hmem.symm, hunit.symm, hindex.symm⟩

/-- The mark of a single error, seen by a read, stands where the error's did (R222). -/
theorem spadRead_addMark {n off : Nat} {d : Dev} {m : ErrMark} (marked : markOf d 0x05 n off = some m)
    (single : m.dbl = false) : SpadRead n d (addMark d { m with seen := true }) := by
  obtain ⟨hmem, hunit, hindex⟩ := word_of_markOf marked
  refine ⟨rfl, rfl, fun o k hk dbl => (markOf_addMark_other d _ ?_).trans hk⟩
  rintro ⟨-, -, same⟩
  have same : off = o := hindex.symm.trans same
  rw [← same, marked, Option.some.injEq] at hk
  rw [hk, dbl] at single
  cases single

/-- A single error is corrected: its mark is seen, and it is counted and recorded. -/
theorem spxGet_single {d : Dev} {n off : Nat} {m : ErrMark} (marked : markOf d 0x05 n off = some m)
    (single : m.dbl = false) : spxGet d n off = (some (spadByte d n off),
      memRecord (addMark (regSat d (aSpxErr n) 32 32 1) { m with seen := true }) (src 0 n) 1 0x05 n off (off / 32768) 0
        m.inj) := by
  simp only [spxGet, marked, single, Bool.false_eq_true, if_false, spadByte]

/-- An uncorrectable error is recorded, and there is no byte. -/
theorem spxGet_error {d : Dev} {n off : Nat} {m : ErrMark} (marked : markOf d 0x05 n off = some m)
    (dbl : m.dbl = true) : spxGet d n off =
      (none, memRecord (regSet d (aSpxErr n) (off / 32768) 1 1) (src 0 n) 2 0x05 n off (off / 32768) 0 m.inj) := by
  simp only [spxGet, marked, dbl, if_true]

theorem spadRead_spxGet (n : Nat) (d : Dev) (off : Nat) : SpadRead n d (spxGet d n off).2 := by
  cases marked : markOf d 0x05 n off with
  | none =>
    rw [spxGet_clean marked]
    exact .refl n d
  | some m =>
    cases kind : m.dbl with
    | false =>
      have counted : SpadRead n d (regSat d (aSpxErr n) 32 32 1) := spadRead_regSet n d _ _ _
      have marked' : markOf (regSat d (aSpxErr n) 32 32 1) 0x05 n off = some m := by
        rw [markOf, regSat, regSet_errs]
        exact marked
      rw [spxGet_single marked kind]
      dsimp only
      exact (counted.trans (spadRead_addMark marked' kind)).trans (spadRead_memRecord n _ _ _ _ _ _ _ _ _)
    | true =>
      rw [spxGet_error marked kind]
      dsimp only
      exact (spadRead_regSet n d _ _ _).trans (spadRead_memRecord n _ _ _ _ _ _ _ _ _)

theorem spxGets_succ (d : Dev) (n off len : Nat) : spxGets d n off (len + 1) =
    ((spxGets d n off len).1.bind fun l => (spxGet (spxGets d n off len).2 n (off + len)).1.map fun v => l ++ [v],
      (spxGet (spxGets d n off len).2 n (off + len)).2) := by
  rw [spxGets]
  generalize spxGets d n off len = r
  obtain ⟨l, e⟩ := r
  dsimp only
  generalize spxGet e n (off + len) = q
  obtain ⟨v, f⟩ := q
  cases l <;> cases v <;> rfl

theorem spadRead_spxGets (n : Nat) (d : Dev) (off len : Nat) : SpadRead n d (spxGets d n off len).2 := by
  induction len with
  | zero => exact .refl n d
  | succ len ih =>
    rw [spxGets_succ]
    exact ih.trans (spadRead_spxGet n _ _)

/-! ## A byte with an uncorrectable error -/

/-- Bytes with one that has an uncorrectable error are not answered. -/
theorem spxGets_error {d : Dev} {n off len o : Nat} {m : ErrMark} (first : off ≤ o)
    (last : o < off + len) (marked : markOf d 0x05 n o = some m) (dbl : m.dbl = true) : (spxGets d n off len).1 = none := by
  induction len with
  | zero => omega
  | succ len ih =>
    rw [spxGets_succ]
    dsimp only
    by_cases here : o = off + len
    · rw [← here, spxGet_error ((spadRead_spxGets n d off len).errors o m marked dbl) dbl]
      cases (spxGets d n off len).1 <;> rfl
    · rw [ih (by omega)]
      rfl

/-- A read of banks that pass has come so far: it has answered UE, or no bank has failed. -/
def ReadSoFar (n : Nat) (d : Dev) (s : (Nat × List Byte) × Dev) : Prop :=
  SpadRead n d s.2 ∧ (s.1 = (5, []) ∨ s.1.1 = 0)

theorem readPart_soFar {n : Nat} {d : Dev} {s : (Nat × List Byte) × Dev} {p : Nat × Nat × Nat}
    (h : ReadSoFar n d s) (pass : windowBank d n p.1 = 0) : ReadSoFar n d (readPart n s p) := by
  obtain ⟨read, error | none⟩ := h
  · rw [readPart_stopped (by rw [error]; decide)]
    exact ⟨read, .inl error⟩
  · have pass' := (read.windowBank p.1).trans pass
    have gets := read.trans (spadRead_spxGets n s.2 p.2.1 p.2.2)
    cases result : (spxGets s.2 n p.2.1 p.2.2).1 with
    | none =>
      rw [readPart_error none pass' result]
      exact ⟨gets, .inl rfl⟩
    | some l =>
      rw [readPart_data none pass' (Prod.ext result rfl)]
      exact ⟨gets, .inr rfl⟩

theorem readParts_soFar {n : Nat} {d : Dev} {ps : List (Nat × Nat × Nat)}
    (pass : ∀ p ∈ ps, windowBank d n p.1 = 0) {s : (Nat × List Byte) × Dev} (h : ReadSoFar n d s) :
    ReadSoFar n d (ps.foldl (readPart n) s) := by
  induction ps generalizing s with
  | nil => exact h
  | cons p ps ih =>
    obtain ⟨first, rest⟩ := List.forall_mem_cons.mp pass
    exact ih rest (readPart_soFar h first)

/-- The part with the error answers UE, whether or not a part before it has. -/
theorem readPart_ue {n : Nat} {d : Dev} {s : (Nat × List Byte) × Dev} {p : Nat × Nat × Nat}
    (h : ReadSoFar n d s) (pass : windowBank d n p.1 = 0) {o : Nat} {m : ErrMark} (first : p.2.1 ≤ o)
    (last : o < p.2.1 + p.2.2) (marked : markOf d 0x05 n o = some m) (dbl : m.dbl = true) :
    (readPart n s p).1 = (5, []) := by
  obtain ⟨read, error | none⟩ := h
  · rw [readPart_stopped (by rw [error]; decide), error]
  · rw [readPart_error none ((read.windowBank p.1).trans pass)
      (spxGets_error first last (read.errors o m marked dbl) dbl)]

theorem winRead_error {d : Dev} {n off len o : Nat} {m : ErrMark} (first : off ≤ o)
    (last : o < off + len) (marked : markOf d 0x05 n o = some m) (dbl : m.dbl = true)
    (pass : ∀ b ∈ banksIn (off, len), b ≤ o / 32768 → windowBank d n b = 0) : (winRead d n off len).1 = (5, []) := by
  have sorted := banksIn_sorted off len
  have here : o / 32768 ∈ banksIn (off, len) := mem_banksIn.mpr (by omega)
  obtain ⟨before, after, banks⟩ := List.append_of_mem here
  rw [winRead_eq]
  rw [banks] at sorted pass ⊢
  have lower (b : Nat) (hb : b ∈ before) : b < o / 32768 :=
    (List.pairwise_append.mp sorted).2.2 b hb _ List.mem_cons_self
  rw [List.map_append, List.map_cons, List.foldl_append, List.foldl_cons]
  have soFar := readParts_soFar (d := d) (ps := before.map (winPart off len)) (s := ((0, []), d))
    (List.forall_mem_map.mpr fun b hb => pass b (List.mem_append_left _ hb) (Nat.le_of_lt (lower b hb)))
    ⟨.refl n d, .inr rfl⟩
  obtain ⟨low, high⟩ := mem_part.mpr ⟨first, last, rfl⟩
  have ue := readPart_ue (p := winPart off len (o / 32768)) soFar
    (pass _ (List.mem_append_right _ List.mem_cons_self) (Nat.le_refl _)) low high marked dbl
  rw [readParts_stopped (by rw [ue]; decide), ue]

/-! ## The access -/

theorem spxWindowAccess_read {core : BitVec 11} {acc : WinAccess} (read : acc.write = false)
    (inside : acc.off.toNat + acc.len ≤ 0x80000) (d : Dev) : spxWindowAccess core acc d =
      some { (winRead d core.toNat acc.off.toNat acc.len).2 with
        win := (winRead d core.toNat acc.off.toNat acc.len).1 } := by
  simp only [spxWindowAccess, read, Bool.false_eq_true, if_false, Nat.not_lt.mpr inside]

/-- Settles O25: a read goes bank by bank up to the first that fails, and only a byte with an error makes it change the
device; a write gives each bank that passes its own piece of the data. -/
theorem windowReachesMoverBanks : Obligations.WindowReachesMoverBanks := by
  unfold Obligations.WindowReachesMoverBanks
  refine ⟨fun core acc s read inside => ⟨fun clean => ?clean, fun o m first last marked dbl pass => ?error⟩,
    fun core acc s write inside => ?write⟩
  case clean =>
    rw [exec_spxWindowAccess, spxWindowAccess_read read inside, gated_some, winRead_clean clean inside]
  case error =>
    refine ⟨_, by rw [exec_spxWindowAccess, spxWindowAccess_read read inside, gated_some], ?_⟩
    rw [withDev_dev]
    refine winRead_error first last marked dbl fun b hb upTo => ?_
    refine (windowStatus_eq_zero (by omega) _ _).mp pass b (mem_banksIn.mpr ?_)
    have := mem_banksIn.mp hb
    omega
  case write =>
    refine ⟨_, by rw [exec_spxWindowAccess, spxWindowAccess_write write inside, gated_some], ?_⟩
    rw [withDev_dev]
    exact ⟨rfl, spadByte_winWrite core.toNat acc.off.toNat acc.data s.dev⟩

end Sys2Proof.Machine
end

section
/-! A line of the cache die written back to external memory: what that changes, and the bytes it writes (08 R237, R238;
09 R276, R279). -/

namespace Sys2Proof.Machine

/-! ## What leaves the slices of the cache die as they are -/

section
variable (d : Dev)

@[simp] theorem regSat_slices (a lo w n : Nat) : (regSat d a lo w n).slices = d.slices := (rfl)
@[simp] theorem regWrap_slices (a lo w n : Nat) : (regWrap d a lo w n).slices = d.slices := (rfl)
@[simp] theorem clearMark_slices (m u i : Nat) : (clearMark d m u i).slices = d.slices := (rfl)
@[simp] theorem post_slices (r : ErrRec) : (post d r).slices = d.slices := by rw [post_only]
@[simp] theorem event_slices (s : Word) (code l0 l1 l2 det : Nat) : (event d s code l0 l1 l2 det).slices = d.slices :=
  post_slices d _
@[simp] theorem postMerged_slices (k : Nat) (r : ErrRec) : (postMerged d k r).slices = d.slices := by
  rw [postMerged_only]
@[simp] theorem memRecord_slices (s : Word) (code m u l1 l2 det : Nat) (inj : Bool) :
    (memRecord d s code m u l1 l2 det inj).slices = d.slices := by
  unfold memRecord
  dsimp only
  split
  · exact postMerged_slices d m _
  · exact post_slices d _

end

theorem getSlice_of_slices {d e : Dev} (h : e.slices = d.slices) (s : Nat) : getSlice e s = getSlice d s := by
  rw [getSlice, getSlice, h]

theorem getSet_of_slices {d e : Dev} (h : e.slices = d.slices) (s i : Nat) : getSet e s i = getSet d s i := by
  rw [getSet, getSet, getSlice_of_slices h]

theorem getSet_putSet (d : Dev) (s i : Nat) (ls : List CLine) (r j : Nat) :
    getSet (putSet d s i ls) r j = if r = s ∧ j = i then ls else getSet d r j := by
  by_cases hr : r = s
  · subst hr
    rw [getSet, putSet, getSlice_putSlice]
    by_cases hj : j = i
    · rw [if_pos ⟨rfl, hj⟩, hj]
      exact mapGet_put_same _ _ _ _
    · rw [if_neg fun h => hj h.2]
      exact mapGet_put_other _ _ _ _ _ hj
  · rw [if_neg fun h => hr h.1, getSet, putSet, getSlice_putSlice_other _ _ _ _ hr, getSet]

/-! ## What a write to external memory changes -/

/-- No word of the cache die, data or tag, has an error mark (15 Table 15.4). -/
def NoLineMarks (d : Dev) : Prop := ∀ e ∈ d.errs, e.mem ≠ 0x0A ∧ e.mem ≠ 0x0B

theorem NoLineMarks.markOf {d : Dev} (h : NoLineMarks d) (s l : Nat) :
    markOf d 0x0A s l = none ∧ markOf d 0x0B s l = none := by
  refine ⟨List.find?_eq_none.mpr fun e he => ?_, List.find?_eq_none.mpr fun e he => ?_⟩
  · simp [(h e he).1]
  · simp [(h e he).2]

/-- External memory with its marks and check caches, the armed injection and the counts of memory accesses have changed,
nothing else, and no mark has come to the cache die. -/
structure MemoryOnly (d e : Dev) : Prop where
  frame : e = { d with regs := e.regs, mem := e.mem, errs := e.errs, chk := e.chk }
  regs : ∀ a, a ≠ aErrInject → (∀ k, a ≠ aMbw k) → regGet e a = regGet d a
  marks : NoLineMarks d → NoLineMarks e

theorem MemoryOnly.refl (d : Dev) : MemoryOnly d d := ⟨rfl, fun _ _ _ => rfl, id⟩

theorem MemoryOnly.trans {d e f : Dev} (h : MemoryOnly d e) (k : MemoryOnly e f) : MemoryOnly d f :=
  ⟨by rw [k.frame, h.frame], fun a i m => (k.regs a i m).trans (h.regs a i m), fun c => k.marks (h.marks c)⟩

theorem MemoryOnly.slices {d e : Dev} (h : MemoryOnly d e) : e.slices = d.slices := by rw [h.frame]

theorem memoryOnly_withMem (d : Dev) (m : List Host.Cell) : MemoryOnly d { d with mem := m } :=
  ⟨rfl, fun _ _ _ => rfl, id⟩

theorem memoryOnly_clearMark (d : Dev) (m u i : Nat) : MemoryOnly d (clearMark d m u i) :=
  ⟨rfl, fun _ _ _ => rfl, fun h e he => h e (List.mem_filter.mp he).1⟩

/-- A mark of an armed injection is one of the memory that was written. -/
theorem memoryOnly_writeWord (d : Dev) (t u i : Nat) {m : Nat} (hm : m ≠ 0x0A ∧ m ≠ 0x0B) :
    MemoryOnly d (writeWord d t m u i) := by
  have cleared := memoryOnly_clearMark d m u i
  unfold writeWord
  dsimp only
  split
  · refine cleared.trans ⟨rfl, fun a ha _ => regGet_regSet_other _ _ _ _ _ _ ha, fun h e he => ?_⟩
    rcases List.mem_append.mp he with old | new
    · exact h e (List.mem_filter.mp old).1
    · rw [List.mem_singleton.mp new]
      exact hm
  · exact cleared

theorem memoryOnly_checkTouch (d : Dev) (c u : Nat) (w : Bool) : MemoryOnly d (checkTouch d c u w) := by
  unfold checkTouch
  split
  · exact ⟨rfl, fun _ _ _ => rfl, id⟩
  · exact .refl d

theorem memoryOnly_countMbw (d : Dev) (k n : Nat) : MemoryOnly d (countMbw d k n) :=
  ⟨rfl, fun _ _ hk => regGet_regSet_other _ _ _ _ _ _ (hk k), id⟩

theorem memCode_ne (d : Dev) : memCode d ≠ 0x0A ∧ memCode d ≠ 0x0B := by
  unfold memCode
  split <;> decide

/-! ## A whole line written -/

/-- Unit `h` of a line that a write covers whole. -/
def writeUnit (k f i : Nat) (data : Line) (d : Dev) (h : Nat) : Dev :=
  countMbw (checkTouch (writeWord
    { d with mem := memStore d.mem (f * 2 ^ 20 + 128 * i) data (fullMask &&& maskOf (64 * h) 64) } 4 (memCode d)
    (chanOf f (128 * i + 64 * h)) (unitOf f (128 * i + 64 * h))) (chanOf f (128 * i + 64 * h))
    (unitOf f (128 * i + 64 * h)) true) k 1

theorem writeMemLine_fullMask (d : Dev) (k f i dev : Nat) (data : Line) :
    writeMemLine d k f i dev data fullMask = (List.range 2).foldl (writeUnit k f i data) d := by
  refine List.foldl_ext _ _ d fun x h hh => ?_
  have whole : bits fullMask (64 * h) 64 = 2 ^ 64 - 1 := by
    have := List.mem_range.mp hh
    interval_cases h <;> decide
  have covers : ¬ (2 ^ 64 - 1 = 0) := by norm_num
  dsimp only
  rw [whole, if_neg covers, decide_eq_true rfl, if_pos rfl]
  rfl

theorem memoryOnly_writeUnit (k f i : Nat) (data : Line) (d : Dev) (h : Nat) :
    MemoryOnly d (writeUnit k f i data d h) :=
  (memoryOnly_withMem d _).trans ((memoryOnly_writeWord _ _ _ _ (memCode_ne d)).trans
    ((memoryOnly_checkTouch _ _ _ _).trans (memoryOnly_countMbw _ _ _)))

theorem bit_unitMask {j : Nat} (h : Nat) (hj : j < 128) :
    bit (fullMask &&& maskOf (64 * h) 64) j = decide (j / 64 = h) := by
  rw [bit, fullMask, BitVec.allOnes_and, maskOf, BitVec.getLsbD_ofNat, Nat.testBit_mul_two_pow,
    Nat.testBit_two_pow_sub_one, decide_eq_true hj, Bool.true_and, ← Bool.decide_and]
  exact decide_eq_decide.mpr (by omega)

/-- Byte `o` of frame `g` after unit `h` of line `i` of frame `f` is written. -/
theorem memByte_writeUnit {k f i g o : Nat} {data : Line} {d : Dev} {h : Nat} (hi : i < 8192) (ho : o < 2 ^ 20) :
    memByte (writeUnit k f i data d h) g o =
      if g = f ∧ o / 128 = i ∧ o % 128 / 64 = h then lineByte data (o % 128) else memByte d g o := by
  have stored : memByte (writeUnit k f i data d h) g o = mapGet 0 (memStore d.mem (f * 2 ^ 20 + 128 * i) data
      (fullMask &&& maskOf (64 * h) 64)) (g * 2 ^ 20 + o) := by
    rw [memByte, writeUnit, countMbw, regWrap_mem, checkTouch_mem, writeWord_mem]
  rw [stored, memStore_get]
  by_cases here : g = f ∧ o / 128 = i
  · obtain ⟨rfl, rfl⟩ := here
    have offset : g * 2 ^ 20 + o - (g * 2 ^ 20 + 128 * (o / 128)) = o % 128 := by omega
    have mask := bit_unitMask h (Nat.mod_lt o (show 0 < 128 by decide))
    rw [offset]
    refine if_congr ⟨fun hc => ⟨rfl, rfl, of_decide_eq_true (mask ▸ hc.2.2)⟩, fun hc => ⟨by omega, by omega, ?_⟩⟩ rfl rfl
    rw [mask, decide_eq_true hc.2.2]
  · rw [if_neg fun hc => here (by omega), if_neg fun hc => here ⟨hc.1, hc.2.1⟩]
    rfl

theorem memByte_writeMemLine_fullMask {d : Dev} {k f i dev g o : Nat} {data : Line} (hi : i < 8192)
    (ho : o < 2 ^ 20) : memByte (writeMemLine d k f i dev data fullMask) g o =
      if g = f ∧ o / 128 = i then lineByte data (o % 128) else memByte d g o := by
  have two : List.range 2 = [0, 1] := rfl
  rw [writeMemLine_fullMask, two, List.foldl_cons, List.foldl_cons, List.foldl_nil, memByte_writeUnit hi ho,
    memByte_writeUnit hi ho]
  by_cases here : g = f ∧ o / 128 = i
  · rw [if_pos here]
    by_cases high : o % 128 / 64 = 1
    · rw [if_pos ⟨here.1, here.2, high⟩]
    · rw [if_neg fun hc => high hc.2.2, if_pos ⟨here.1, here.2, by omega⟩]
  · rw [if_neg here, if_neg fun hc => here ⟨hc.1, hc.2.1⟩, if_neg fun hc => here ⟨hc.1, hc.2.1⟩]

/-! ## Writing a line back -/

theorem memoryOnly_writeBack (d : Dev) (k : Nat) (c : CLine) : MemoryOnly d (writeBack d k c) := by
  unfold writeBack
  split
  · rw [writeMemLine_fullMask]
    exact (memoryOnly_writeUnit ..).trans (memoryOnly_writeUnit ..)
  · exact .refl d

theorem lineIdx_lt (l : Nat) : lineIdx l < 8192 := Nat.mod_lt l (by decide)

/-- The line holds byte `o` of frame `f`. -/
def Holds (c : CLine) (f o : Nat) : Prop := pteFrame c.pte = f ∧ lineIdx c.line = o / 128

theorem memByte_writeBack_held {d : Dev} {k f o : Nat} {c : CLine} (dirty : c.dirty = true) (ho : o < 2 ^ 20)
    (held : Holds c f o) : memByte (writeBack d k c) f o = lineByte c.data (o % 128) := by
  rw [writeBack, if_pos dirty, memByte_writeMemLine_fullMask (lineIdx_lt _) ho,
    if_pos ⟨held.1.symm, held.2.symm⟩]

theorem memByte_writeBack_other {d : Dev} {k f o : Nat} {c : CLine} (ho : o < 2 ^ 20) (other : ¬ Holds c f o) :
    memByte (writeBack d k c) f o = memByte d f o := by
  unfold writeBack
  split
  · rw [memByte_writeMemLine_fullMask (lineIdx_lt _) ho,
      if_neg fun h => other ⟨h.1.symm, h.2.symm⟩]
  · rfl

end Sys2Proof.Machine
end

section
/-! Records that reach the funnel (15 R451, R452). -/

namespace Sys2Proof.Machine

theorem Logged.congr {d e d' e' : Dev} {source : Word} {cls code l0 l1 l2 : Nat}
    (h : Logged d e source cls code l0 l1 l2) (before : d'.funnel = d.funnel) (after : e'.funnel = e.funnel) :
    Logged d' e' source cls code l0 l1 l2 := by
  unfold Logged at *
  rwa [before, after]

/-- A record joins the queue of its source, or finds it full. -/
theorem logged_post_mkRec (d : Dev) (source : Word) (cls code sev l0 l1 l2 : Nat) (det : D64) :
    Logged d (post d (mkRec source cls code sev (BitVec.ofNat 64 l0) (BitVec.ofNat 64 l1) (BitVec.ofNat 64 l2) det))
      source cls code l0 l1 l2 := by
  refine ⟨fun full => ?full, fun room => ?room⟩
  case full =>
    rw [post, mkRec]
    dsimp only
    rw [if_pos full]
    exact ⟨rfl, mapGet_put_same false d.funnel.overflow source.toNat true⟩
  case room =>
    rw [post, mkRec]
    dsimp only
    rw [if_neg room]
    refine ⟨_, mapGet_put_same _ _ _ _, fun k hk => mapGet_put_other _ _ _ _ _ hk, ?_⟩
    split <;> exact ⟨rfl, rfl, rfl, rfl, rfl, rfl⟩

theorem logged_event (d : Dev) (source : Word) (code l0 l1 l2 det : Nat) :
    Logged d (event d source code l0 l1 l2 det) source 0 code l0 l1 l2 := logged_post_mkRec d source 0 code _ l0 l1 l2 _

theorem logged_fwRecord (d : Dev) (cp code addr value opcode : Nat) :
    Logged d (fwRecord d cp code addr value opcode) (src 8 cp) 5 code addr value opcode :=
  logged_post_mkRec d (src 8 cp) 5 code _ addr value opcode _

end Sys2Proof.Machine
end

section
/-! BANK_RETIRE: the lines of a way leave every set of the slice, and its bank is retired (08 R226, R244, R253, R260). -/

namespace Sys2Proof.Machine

theorem exec_bankRetire (slice : BitVec 11) (v : D64) (s : State) :
    exec (.bankRetire slice v) s = ok s (bankRetire slice v s.dev) := (rfl)

/-! ## What evictions leave of a slice -/

/-- No line of the set lies in way `w`. -/
def NoneIn (w : Nat) (ls : List CLine) : Prop := ∀ c ∈ ls, c.way ≠ w

theorem NoneIn.filter {w : Nat} {ls : List CLine} (h : NoneIn w ls) (p : CLine → Bool) : NoneIn w (ls.filter p) :=
  fun c hc => h c (List.mem_filter.mp hc).1

theorem NoneIn.map {w : Nat} {ls : List CLine} (h : NoneIn w ls) {f : CLine → CLine}
    (moved : ∀ c, (f c).way = c.way ∨ (f c).way ≠ w) : NoneIn w (ls.map f) := by
  intro c hc
  obtain ⟨x, hx, rfl⟩ := List.mem_map.mp hc
  rcases moved x with same | other
  · exact same ▸ h x hx
  · exact other

/-- From `d` to `e` no slice but `s` has changed, the banks and ways of slice `s` serve as before, and no line has come
to way `w` of it. -/
structure LeavesWay (s w : Nat) (d e : Dev) : Prop where
  others : ∀ k, k ≠ s → getSlice e k = getSlice d k
  retired : (getSlice e s).retired = (getSlice d s).retired
  spareFor : (getSlice e s).spareFor = (getSlice d s).spareFor
  out : (getSlice e s).out = (getSlice d s).out
  none : ∀ i, NoneIn w (getSet d s i) → NoneIn w (getSet e s i)

theorem LeavesWay.refl (s w : Nat) (d : Dev) : LeavesWay s w d d := ⟨fun _ _ => rfl, rfl, rfl, rfl, fun _ h => h⟩

theorem LeavesWay.trans {s w : Nat} {d e f : Dev} (h : LeavesWay s w d e) (k : LeavesWay s w e f) : LeavesWay s w d f :=
  ⟨fun j hj => (k.others j hj).trans (h.others j hj), k.retired.trans h.retired, k.spareFor.trans h.spareFor,
    k.out.trans h.out, fun i hi => k.none i (h.none i hi)⟩

theorem LeavesWay.foldl {s w : Nat} {α : Type} (f : Dev → α → Dev) (leaves : ∀ d a, LeavesWay s w d (f d a))
    (l : List α) (d : Dev) : LeavesWay s w d (l.foldl f d) := by
  induction l generalizing d with
  | nil => exact .refl s w d
  | cons a l ih => exact (leaves d a).trans (ih _)

theorem leavesWay_of_slices {s w : Nat} {d e : Dev} (h : e.slices = d.slices) : LeavesWay s w d e :=
  ⟨fun k _ => getSlice_of_slices h k, by rw [getSlice_of_slices h], by rw [getSlice_of_slices h],
    by rw [getSlice_of_slices h], fun i hi => by rwa [getSet_of_slices h]⟩

theorem leavesWay_putSet {s w i : Nat} {d : Dev} {ls : List CLine} (h : NoneIn w (getSet d s i) → NoneIn w ls) :
    LeavesWay s w d (putSet d s i ls) where
  others k hk := getSlice_putSlice_other _ _ _ _ hk
  retired := by rw [putSet, getSlice_putSlice]
  spareFor := by rw [putSet, getSlice_putSlice]
  out := by rw [putSet, getSlice_putSlice]
  none j hj := by
    rw [getSet_putSet]
    split
    · rename_i here
      exact h (here.2 ▸ hj)
    · exact hj

section
variable (s : Nat) {w : Nat} (d : Dev)

theorem leavesWay_clearMark (m u i : Nat) : LeavesWay s w d (clearMark d m u i) := leavesWay_of_slices rfl

theorem leavesWay_regSat (a lo n v : Nat) : LeavesWay s w d (regSat d a lo n v) := leavesWay_of_slices rfl

theorem leavesWay_memRecord (r : Word) (code m u l1 l2 det : Nat) (inj : Bool) :
    LeavesWay s w d (memRecord d r code m u l1 l2 det inj) := leavesWay_of_slices (memRecord_slices d ..)

theorem leavesWay_pinEvicted (l : Nat) : LeavesWay s w d (pinEvicted d s l) := by
  have counted : LeavesWay s w d (putSlice d s { getSlice d s with pinEvents := (getSlice d s).pinEvents + 1 }) := by
    refine ⟨fun k hk => getSlice_putSlice_other _ _ _ _ hk, ?_, ?_, ?_, fun i hi => ?_⟩
    case refine_4 =>
      rw [getSet, getSlice_putSlice]
      exact hi
    all_goals rw [getSlice_putSlice]
  exact counted.trans (leavesWay_of_slices (event_slices ..))

theorem leavesWay_dropLine (l : Nat) : LeavesWay s w d (dropLine d s l) := leavesWay_putSet fun h => h.filter _

/-- A line that is poisoned leaves its way (R253). -/
theorem leavesWay_poisonLine (hw : w ≠ noWay) (c : CLine) : LeavesWay s w d (poisonLine d s c) := by
  have put : LeavesWay s w d (putLine d s { c with poison := true, pinned := false, sect := 0, way := noWay, data := 0 }) := by
    refine leavesWay_putSet fun h => h.map fun x => ?_
    split
    · exact .inr hw.symm
    · exact .inl rfl
  unfold poisonLine
  dsimp only
  split
  · exact put.trans (leavesWay_pinEvicted s _ _)
  · exact put

theorem leavesWay_checkData (hw : w ≠ noWay) (l : Nat) (c : CLine) : LeavesWay s w d (checkData d s l c).2 := by
  unfold checkData
  split
  · exact .refl s w d
  · dsimp only
    split
    · exact leavesWay_clearMark s d _ _ _
    · split
      · dsimp only
        exact ((leavesWay_clearMark s d _ _ _).trans (leavesWay_poisonLine s _ hw _)).trans
          (leavesWay_memRecord s _ _ _ _ _ _ _ _ _)
      · dsimp only
        exact ((leavesWay_clearMark s d _ _ _).trans (leavesWay_regSat s _ _ _ _ _)).trans
          (leavesWay_memRecord s _ _ _ _ _ _ _ _ _)

theorem leavesWay_checkLine (hw : w ≠ noWay) (l : Nat) : LeavesWay s w d (checkLine d s l).2 := by
  unfold checkLine
  split
  · exact .refl s w d
  · split
    · exact leavesWay_checkData s d hw l _
    · dsimp only
      split
      · dsimp only
        exact (((leavesWay_clearMark s d _ _ _).trans (leavesWay_clearMark s _ _ _ _)).trans
          (leavesWay_dropLine s _ _)).trans (leavesWay_memRecord s _ _ _ _ _ _ _ _ _)
      · dsimp only
        exact (((leavesWay_clearMark s d _ _ _).trans (leavesWay_regSat s _ _ _ _ _)).trans
          (leavesWay_memRecord s _ _ _ _ _ _ _ _ _)).trans (leavesWay_checkData s _ hw _ _)

theorem leavesWay_writeBack (k : Nat) (c : CLine) : LeavesWay s w d (writeBack d k c) :=
  leavesWay_of_slices (memoryOnly_writeBack d k c).slices

theorem leavesWay_readBack (hw : w ≠ noWay) (k : Nat) (c : CLine) : LeavesWay s w d (readBack d s k c).2 := by
  unfold readBack
  split
  · exact .refl s w d
  · split
    · exact leavesWay_writeBack s d k c
    · have checked := leavesWay_checkLine s d hw c.line
      split
      · rename_i x e hc
        rw [hc] at checked
        dsimp only
        split
        · exact checked
        · exact checked.trans (leavesWay_writeBack s e k x)
      · rename_i e hc
        rwa [hc] at checked

theorem leavesWay_evict (hw : w ≠ noWay) (c : CLine) : LeavesWay s w d (evict d s c) := by
  have back := leavesWay_readBack s d hw c.cls c
  unfold evict
  split
  · rename_i x e hb
    rw [hb] at back
    split
    · exact back
    · exact back.trans ((leavesWay_dropLine s e _).trans (leavesWay_of_slices (regWrap_slices ..)))
  · rename_i e hb
    rwa [hb] at back

theorem leavesWay_evictSet (hw : w ≠ noWay) (i : Nat) : LeavesWay s w d (evictSet s w d i) := by
  refine LeavesWay.trans (LeavesWay.foldl _ (fun x c => ?_) _ d) (leavesWay_putSet fun h => h.filter _)
  dsimp only
  split
  · exact (leavesWay_evict s x hw c).trans (leavesWay_pinEvicted s _ _)
  · exact leavesWay_evict s x hw c

theorem leavesWay_evictWay (hw : w ≠ noWay) : LeavesWay s w d (evictWay d s w) :=
  LeavesWay.foldl _ (fun x i => leavesWay_evictSet s x hw i) _ d

theorem leavesWay_trimPins (i : Nat) : LeavesWay s w d (trimPins s d i) := by
  unfold trimPins
  dsimp only
  split
  · split
    · refine LeavesWay.trans (leavesWay_putSet fun h => h.map fun c => .inl ?_)
        (LeavesWay.foldl _ (fun x c => leavesWay_pinEvicted s x _) _ _)
      split <;> rfl
    · exact .refl s w d
  · exact .refl s w d

end

/-! ## A way without lines -/

theorem mapGet_eq_default {α : Type} {dv : α} {m : SMap α} {k : Nat} (h : k ∉ m.map (·.1)) : mapGet dv m k = dv := by
  induction m with
  | nil => rfl
  | cons e m ih =>
    simp only [List.map_cons, List.mem_cons, not_or] at h
    rw [mapGet, if_neg (Ne.symm h.1)]
    exact ih h.2

theorem noneIn_evictSet (s w : Nat) (d : Dev) (i : Nat) : NoneIn w (getSet (evictSet s w d i) s i) := by
  rw [evictSet, getSet_putSet, if_pos ⟨rfl, rfl⟩]
  intro c hc
  simpa using (List.mem_filter.mp hc).2

/-- Sets that are visited hold no line of the way, and a set that no key names holds none at all. -/
theorem noneIn_foldl_evictSet {s w : Nat} (hw : w ≠ noWay) (is : List Nat) (d : Dev) (i : Nat)
    (h : i ∈ is ∨ NoneIn w (getSet d s i)) : NoneIn w (getSet (is.foldl (evictSet s w) d) s i) := by
  induction is generalizing d with
  | nil => simpa using h
  | cons j is ih =>
    rw [List.foldl_cons]
    refine ih _ ?_
    by_cases here : i = j
    · exact .inr (here ▸ noneIn_evictSet s w d i)
    · rcases h with visited | none
      · exact .inl (List.mem_of_ne_of_mem here visited)
      · exact .inr ((leavesWay_evictSet s d hw j).none i none)

theorem noneIn_evictWay {s w : Nat} (hw : w ≠ noWay) (d : Dev) (i : Nat) : NoneIn w (getSet (evictWay d s w) s i) := by
  refine noneIn_foldl_evictSet hw _ d i ?_
  by_cases listed : i ∈ (getSlice d s).sets.map (·.1)
  · exact .inl listed
  · right
    rw [getSet, mapGet_eq_default listed]
    exact fun c hc => absurd hc List.not_mem_nil

/-! ## Retiring a bank -/

/-- Way `w` out of service with bank `b` retired, its lines evicted and pinned ways trimmed (R244). -/
def wayOut (d : Dev) (s b w : Nat) : Dev :=
  let v := getSlice (evictWay d s w) s
  let e := putSlice (evictWay d s w) s { v with retired := setBits v.retired b 1 1, out := setBits v.out w 1 1 }
  ((getSlice e s).sets.map (·.1)).foldl (trimPins s) e

/-- The spare in the place of bank `b`, whose lines are evicted (R226). -/
def spareIn (d : Dev) (s b : Nat) : Dev :=
  let v := getSlice (evictWay d s b) s
  putSlice (evictWay d s b) s { v with retired := setBits v.retired b 1 1, spareFor := b }

/-- Nothing but slice `s` of the cache die has changed among the slices, and no line of it lies in way `w`. -/
structure WayGone (s w : Nat) (d e : Dev) : Prop where
  others : ∀ k, k ≠ s → getSlice e k = getSlice d k
  none : ∀ i, NoneIn w (getSet e s i)

theorem spareIn_gone {b : Nat} (hb : b ≠ noWay) (d : Dev) (s : Nat) : WayGone s b d (spareIn d s b) where
  others k hk := (getSlice_putSlice_other _ _ _ _ hk).trans ((leavesWay_evictWay s d hb).others k hk)
  none i := by
    rw [spareIn, getSet, getSlice_putSlice]
    exact noneIn_evictWay hb d i

theorem spareIn_service {b : Nat} (hb : b ≠ noWay) (d : Dev) (s : Nat) :
    (getSlice (spareIn d s b) s).retired = setBits (getSlice d s).retired b 1 1 ∧
    (getSlice (spareIn d s b) s).spareFor = b ∧ (getSlice (spareIn d s b) s).out = (getSlice d s).out := by
  have left := leavesWay_evictWay s d hb
  rw [spareIn, getSlice_putSlice]
  exact ⟨by rw [left.retired], rfl, left.out⟩

theorem wayOut_gone {w : Nat} (hw : w ≠ noWay) (d : Dev) (s b : Nat) : WayGone s w d (wayOut d s b w) := by
  have trimmed (e : Dev) (is : List Nat) : LeavesWay s w e (is.foldl (trimPins s) e) :=
    LeavesWay.foldl _ (fun x i => leavesWay_trimPins s x i) is e
  refine ⟨fun k hk => ?_, fun i => (trimmed _ _).none i ?_⟩
  · rw [wayOut, (trimmed _ _).others k hk, getSlice_putSlice_other _ _ _ _ hk]
    exact (leavesWay_evictWay s d hw).others k hk
  · rw [getSet, getSlice_putSlice]
    exact noneIn_evictWay hw d i

theorem wayOut_service {w : Nat} (hw : w ≠ noWay) (d : Dev) (s b : Nat) :
    (getSlice (wayOut d s b w) s).retired = setBits (getSlice d s).retired b 1 1 ∧
    (getSlice (wayOut d s b w) s).out = setBits (getSlice d s).out w 1 1 ∧
    (getSlice (wayOut d s b w) s).spareFor = (getSlice d s).spareFor := by
  have trimmed (e : Dev) (is : List Nat) : LeavesWay s w e (is.foldl (trimPins s) e) :=
    LeavesWay.foldl _ (fun x i => leavesWay_trimPins s x i) is e
  have left := leavesWay_evictWay s d hw
  rw [wayOut, (trimmed _ _).retired, (trimmed _ _).out, (trimmed _ _).spareFor, getSlice_putSlice]
  exact ⟨by rw [left.retired], by rw [left.out], left.spareFor⟩

/-- Retiring bank `b` of a slice takes way `w` out of service: the way that the spare serves, or the bank's own where
the spare is used or retired (R226, R260). -/
def LosesWay (V : Slice) (b w : Nat) : Prop :=
  b = 16 ∧ V.spareFor ≠ 31 ∧ w = V.spareFor ∨ b < 16 ∧ (V.spareFor ≠ 31 ∨ bit V.retired 16 = true) ∧ w = b

theorem LosesWay.ne_noWay {V : Slice} {b w : Nat} (h : LosesWay V b w) : w ≠ noWay := by
  rcases h with ⟨-, used, rfl⟩ | ⟨hb, -, rfl⟩
  · exact used
  · unfold noWay
    omega

/-- The retirements there are. -/
theorem retirement_cases (V : Slice) (b : Nat) : (16 < b ∨ bit V.retired b = true) ∨ bit V.retired b = false ∧
    (b = 16 ∧ V.spareFor = 31 ∨ b < 16 ∧ V.spareFor = 31 ∧ bit V.retired 16 = false ∨ ∃ w, LosesWay V b w) := by
  by_cases bad : 16 < b ∨ bit V.retired b = true
  · exact .inl bad
  obtain ⟨hb, good⟩ := not_or.mp bad
  refine .inr ⟨Bool.eq_false_iff.mpr good, ?_⟩
  by_cases unused : V.spareFor = 31
  · rcases Nat.lt_or_eq_of_le (Nat.not_lt.mp hb) with lower | spare
    · cases h16 : bit V.retired 16
      · exact .inr (.inl ⟨lower, unused, rfl⟩)
      · exact .inr (.inr ⟨b, .inr ⟨lower, .inr h16, rfl⟩⟩)
    · exact .inl ⟨spare, unused⟩
  · rcases Nat.lt_or_eq_of_le (Nat.not_lt.mp hb) with lower | spare
    · exact .inr (.inr ⟨b, .inr ⟨lower, .inl unused, rfl⟩⟩)
    · exact .inr (.inr ⟨V.spareFor, .inl ⟨spare, unused, rfl⟩⟩)

section
variable {d : Dev} {s b : Nat}

theorem retireBank_bad (h : 16 < b ∨ bit (getSlice d s).retired b = true) : retireBank d s b = (false, d) := by
  unfold retireBank
  dsimp only
  rw [if_pos h]

theorem retireBank_unusedSpare (good : bit (getSlice d s).retired 16 = false) (unused : (getSlice d s).spareFor = 31) :
    retireBank d s 16 =
      (true, putSlice d s { getSlice d s with retired := setBits (getSlice d s).retired 16 1 1 }) := by
  simp [retireBank, good, unused]

theorem retireBank_spareIn (good : bit (getSlice d s).retired b = false) (hb : b < 16)
    (unused : (getSlice d s).spareFor = 31) (spare : bit (getSlice d s).retired 16 = false) :
    retireBank d s b = (true, spareIn d s b) := by
  have named : ¬ (16 < b ∨ bit (getSlice d s).retired b = true) := by simp [good]; omega
  unfold retireBank spareIn
  dsimp only
  rw [if_neg named, if_neg (by omega), if_pos ⟨unused, by rw [spare]; rfl⟩]

theorem retireBank_way {w : Nat} (good : bit (getSlice d s).retired b = false) (h : LosesWay (getSlice d s) b w) :
    retireBank d s b = if waysOf (getSlice d s) ≤ 8 then (false, d) else (true, wayOut d s b w) := by
  rcases h with ⟨rfl, used, rfl⟩ | ⟨hb, used, rfl⟩
  · simp [retireBank, wayOut, good, used]
  · have taken : ¬ ((getSlice d s).spareFor = 31 ∧ (!bit (getSlice d s).retired 16) = true) := by
      rintro ⟨unused, spare⟩
      rcases used with h | h
      · exact h unused
      · simp [h] at spare
    have named : ¬ (16 < w ∨ bit (getSlice d s).retired w = true) := by simp [good]; omega
    unfold retireBank wayOut
    dsimp only
    rw [if_neg named, if_neg (by omega), if_neg taken]

/-- Slices other than the named one stay, whatever the retirement does. -/
theorem getSlice_retireBank_other {k : Nat} (hk : k ≠ s) : getSlice (retireBank d s b).2 k = getSlice d k := by
  rcases retirement_cases (getSlice d s) b with bad | ⟨good, ⟨rfl, unused⟩ | ⟨hb, unused, spare⟩ | ⟨w, h⟩⟩
  · rw [retireBank_bad bad]
  · rw [retireBank_unusedSpare good unused]
    exact getSlice_putSlice_other _ _ _ _ hk
  · rw [retireBank_spareIn good hb unused spare]
    exact (spareIn_gone (by unfold noWay; omega) d s).others k hk
  · rw [retireBank_way good h]
    split
    · rfl
    · exact (wayOut_gone h.ne_noWay d s b).others k hk

end

/-! ## The write of CDC_SLICE_s -/

/-- The device after a retirement without effect: one FIRMWARE record 0x02 of CP1 (R260, log 18). -/
def noRetirement (slice : BitVec 11) (v : D64) (d : Dev) : Dev :=
  ignored d (cdcw (slice.toNat / 1024) + 0x80000 + 8 * (slice.toNat % 1024)) v

section
variable {slice : BitVec 11} {v : D64} {d : Dev}

theorem bankRetire_off (off : bit v 5 = false) : bankRetire slice v d = d := by
  rw [bankRetire, off]
  rfl

theorem bankRetire_of_retireBank (on : bit v 5 = true) {done : Bool} {e : Dev}
    (h : retireBank d slice.toNat (bits v 0 5) = (done, e)) :
    bankRetire slice v d = if done then e else noRetirement slice v e := by
  rw [bankRetire, if_pos on, h]
  rfl

theorem getSlice_noRetirement (k : Nat) : getSlice (noRetirement slice v d) k = getSlice d k :=
  getSlice_of_slices (post_slices d _) k

theorem getSlice_bankRetire_other {k : Nat} (hk : k ≠ slice.toNat) :
    getSlice (bankRetire slice v d) k = getSlice d k := by
  have same := getSlice_retireBank_other (d := d) (b := bits v 0 5) hk
  cases on : bit v 5
  · rw [bankRetire_off on]
  · rcases h : retireBank d slice.toNat (bits v 0 5) with ⟨done, e⟩
    rw [h] at same
    rw [bankRetire_of_retireBank on h]
    split
    · exact same
    · rw [getSlice_noRetirement, same]

/-- A retirement without effect leaves the slice and makes one record. -/
theorem bankRetire_logged (on : bit v 5 = true) (h : retireBank d slice.toNat (bits v 0 5) = (false, d)) :
    getSlice (bankRetire slice v d) slice.toNat = getSlice d slice.toNat ∧
    Logged d (bankRetire slice v d) (src 8 1) 5 0x02
      (cdcw (slice.toNat / 1024) + 0x80000 + 8 * (slice.toNat % 1024)) v.toNat 0 := by
  rw [bankRetire_of_retireBank on h, if_neg Bool.false_ne_true]
  exact ⟨getSlice_noRetirement _, logged_fwRecord d 1 0x02 _ v.toNat 0⟩

end

/-- Settles O34: an eviction brings no line to the way it clears (`leavesWay_evict`), so none is left in the way once
every set that holds lines is visited. -/
theorem banksRetireIntoTheSpare : Obligations.BanksRetireIntoTheSpare := by
  unfold Obligations.BanksRetireIntoTheSpare
  intro slice v s
  refine ⟨s.withDev (bankRetire slice v s.dev), by rw [exec_bankRetire, ok_eq], rfl, fun off => ?_,
    fun k hk => getSlice_bankRetire_other hk, fun on b V W hb hV hW => ⟨fun bad => ?_, fun _ good =>
      ⟨fun lower unused spare => ?_, fun isSpare unused => ?_, fun w loses => ⟨fun few => ?_, fun many => ?_⟩⟩⟩⟩
  case refine_1 => rw [bankRetire_off off]; rfl
  all_goals
    rw [withDev_dev] at hW
    subst hb hV
  case refine_2 => exact hW ▸ bankRetire_logged on (retireBank_bad bad)
  case refine_3 =>
    have way : bits v 0 5 ≠ noWay := by unfold noWay; omega
    rw [bankRetire_of_retireBank on (retireBank_spareIn good lower unused spare), if_pos rfl] at hW
    obtain ⟨retired, spareFor, out⟩ := spareIn_service way s.dev slice.toNat
    exact ⟨hW ▸ retired, hW ▸ spareFor, hW ▸ out, fun i => hW ▸ (spareIn_gone way s.dev slice.toNat).none i⟩
  case refine_4 =>
    rw [isSpare] at good
    have retired := retireBank_unusedSpare good unused
    rw [← isSpare] at retired
    rw [bankRetire_of_retireBank on retired, if_pos rfl, getSlice_putSlice, isSpare] at hW
    exact hW
  case refine_5 =>
    exact hW ▸ bankRetire_logged on (by rw [retireBank_way good loses, if_pos few])
  case refine_6 =>
    rw [bankRetire_of_retireBank on (by rw [retireBank_way good loses, if_neg (Nat.not_le.mpr many)]), if_pos rfl] at hW
    have way : w ≠ noWay := LosesWay.ne_noWay loses
    obtain ⟨retired, out, spareFor⟩ := wayOut_service way s.dev slice.toNat (bits v 0 5)
    exact ⟨hW ▸ retired, hW ▸ out, hW ▸ spareFor, fun i => hW ▸ (wayOut_gone way s.dev slice.toNat _).none i⟩

end Sys2Proof.Machine
end

section
/-! WRITEBACK_ALL and WRITEBACK_ALL_DONE: a sweep of sets leaves their lines clean, with their dirty bytes in external
memory (08 R253, R256; log 17). -/

namespace Sys2Proof.Machine

theorem exec_writebackAll (half : BitVec 1) (v : D64) (s : State) :
    exec (.writebackAll half v) s = ok s (writebackAll half v s.dev) := (rfl)

theorem exec_writebackAllDone (half : BitVec 1) (s : State) :
    exec (.writebackAllDone half) s = gated s "WRITEBACK_ALL_DONE" (writebackAllDone half s.dev) := (rfl)

/-! ## Lines written back -/

/-- From `d` to `e` every byte that a line of `W` holds is that byte of one of them, and every other byte of external
memory is as it was. -/
def BytesOf (W : CLine → Prop) (d e : Dev) : Prop := ∀ f o, o < 2 ^ 20 →
  (∃ c, W c ∧ Holds c f o ∧ memByte e f o = lineByte c.data (o % 128)) ∨
    (∀ c, W c → ¬ Holds c f o) ∧ memByte e f o = memByte d f o

/-- The lines of `W` have been written back, and nothing has changed but the cache die, external memory with its marks
and check caches, the armed injection and the counts of memory accesses. -/
structure WroteBack (W : CLine → Prop) (d e : Dev) : Prop where
  frame : e = { d with regs := e.regs, slices := e.slices, mem := e.mem, errs := e.errs, chk := e.chk }
  regs : ∀ a, a ≠ aErrInject → (∀ k, a ≠ aMbw k) → regGet e a = regGet d a
  marks : NoLineMarks d → NoLineMarks e
  bytes : BytesOf W d e

theorem WroteBack.refl (d : Dev) : WroteBack (fun _ => False) d d :=
  ⟨rfl, fun _ _ _ => rfl, id, fun _ _ _ => .inr ⟨fun _ h => h.elim, rfl⟩⟩

theorem WroteBack.trans {W V U : CLine → Prop} {d e f : Dev} (h : WroteBack W d e) (k : WroteBack V e f)
    (all : ∀ c, U c ↔ W c ∨ V c) : WroteBack U d f where
  frame := by rw [k.frame, h.frame]
  regs a i m := (k.regs a i m).trans (h.regs a i m)
  marks c := k.marks (h.marks c)
  bytes g o ho := by
    rcases k.bytes g o ho with ⟨c, hc, held, byte⟩ | ⟨none, same⟩
    · exact .inl ⟨c, (all c).mpr (.inr hc), held, byte⟩
    · rcases h.bytes g o ho with ⟨c, hc, held, byte⟩ | ⟨none', same'⟩
      · exact .inl ⟨c, (all c).mpr (.inl hc), held, same.trans byte⟩
      · exact .inr ⟨fun c hc => ((all c).mp hc).elim (none' c) (none c), same.trans same'⟩

theorem wroteBack_putSet (d : Dev) (s i : Nat) (ls : List CLine) : WroteBack (fun _ => False) d (putSet d s i ls) :=
  ⟨rfl, fun _ _ _ => rfl, id, fun _ _ _ => .inr ⟨fun _ h => h.elim, rfl⟩⟩

theorem wroteBack_writeBack (d : Dev) (k : Nat) {c : CLine} (dirty : c.dirty = true) :
    WroteBack (· = c) d (writeBack d k c) := by
  have only := memoryOnly_writeBack d k c
  refine ⟨?frame, only.regs, only.marks, fun f o ho => ?bytes⟩
  case frame => rw [only.frame]
  case bytes =>
    by_cases held : Holds c f o
    · exact .inl ⟨c, rfl, held, memByte_writeBack_held dirty ho held⟩
    · exact .inr ⟨fun x hx => hx ▸ held, memByte_writeBack_other ho held⟩

/-! ## One line of a sweep -/

/-- The line in its set once it is written. -/
def cleaned (c : CLine) : CLine := { c with dirty := false }

theorem readBack_unmarked {d : Dev} (unmarked : NoLineMarks d) (s k : Nat) {c : CLine} (dirty : c.dirty = true)
    (sound : c.poison = false) : readBack d s k c = (some c, writeBack d k c) := by
  obtain ⟨data, tag⟩ := unmarked.markOf s c.line
  simp [readBack, dirty, sound, data, tag]

theorem sweepLine_unmarked {x : Nat × Dev} (unmarked : NoLineMarks x.2) (s i : Nat) {c : CLine} (dirty : c.dirty = true)
    (sound : c.poison = false) : (sweepLine s i x c).2 = putSet (writeBack x.2 7 c) s i
      ((getSet x.2 s i).map fun z => if z = c then cleaned c else z) := by
  rw [sweepLine, readBack_unmarked unmarked s 7 dirty sound]
  simp only [sound, Bool.false_eq_true, if_false, cleaned, getSet_of_slices (memoryOnly_writeBack x.2 7 c).slices]

/-- A line of a set when the lines `cs` of it have been written. -/
def cleanIn (cs : List CLine) (z : CLine) : CLine := if z ∈ cs then cleaned z else z

theorem cleanIn_cons {c : CLine} {cs : List CLine} (dirty : ∀ x ∈ cs, x.dirty = true) (z : CLine) :
    cleanIn cs (if z = c then cleaned c else z) = cleanIn (c :: cs) z := by
  by_cases here : z = c
  · subst here
    have gone : cleaned z ∉ cs := fun h => absurd (dirty _ h) Bool.false_ne_true
    rw [if_pos rfl, cleanIn, cleanIn, if_neg gone, if_pos List.mem_cons_self]
  · rw [if_neg here, cleanIn, cleanIn]
    exact if_congr (by simp [here]) rfl rfl

/-- Lines of one set written one after the other. -/
theorem sweepLines_unmarked (s i : Nat) (cs : List CLine) (due : ∀ c ∈ cs, c.dirty = true ∧ c.poison = false)
    (x : Nat × Dev) (unmarked : NoLineMarks x.2) : WroteBack (· ∈ cs) x.2 (cs.foldl (sweepLine s i) x).2 ∧
    ∀ r j, getSet (cs.foldl (sweepLine s i) x).2 r j =
      if r = s ∧ j = i then (getSet x.2 s i).map (cleanIn cs) else getSet x.2 r j := by
  induction cs generalizing x with
  | nil =>
    refine ⟨(WroteBack.refl x.2).trans (WroteBack.refl x.2) (by simp), fun r j => ?_⟩
    split
    · rename_i here
      have same : cleanIn [] = id := funext fun z => if_neg List.not_mem_nil
      rw [here.1, here.2, same, List.map_id]
      rfl
    · rfl
  | cons c cs ih =>
    obtain ⟨dirty, sound⟩ := due c List.mem_cons_self
    have due' : ∀ c ∈ cs, c.dirty = true ∧ c.poison = false := fun y hy => due y (List.mem_cons_of_mem _ hy)
    have first : WroteBack (· = c) x.2 (sweepLine s i x c).2 := by
      rw [sweepLine_unmarked unmarked s i dirty sound]
      exact (wroteBack_writeBack x.2 7 dirty).trans (wroteBack_putSet _ _ _ _) (by simp)
    obtain ⟨wrote, sets⟩ := ih due' (sweepLine s i x c) (first.marks unmarked)
    refine ⟨first.trans wrote fun y => List.mem_cons, fun r j => ?_⟩
    rw [List.foldl_cons, sets, sweepLine_unmarked unmarked s i dirty sound]
    split
    · rw [getSet_putSet, if_pos ⟨rfl, rfl⟩, List.map_map]
      exact List.map_congr_left fun z _ => cleanIn_cons (fun y hy => (due' y hy).1) z
    · rename_i elsewhere
      rw [getSet_putSet, if_neg elsewhere]
      exact getSet_of_slices (memoryOnly_writeBack x.2 7 c).slices r j

/-! ## One set of a sweep -/

/-- A line as a sweep leaves it: clean, but for a poisoned one. -/
def sweptLine (c : CLine) : CLine := if c.poison then c else { c with dirty := false }

/-- A set as a sweep leaves it. -/
def sweptSet (drop : Bool) (ls : List CLine) : List CLine :=
  (ls.map sweptLine).filter fun c => !drop || c.pinned || c.poison

theorem sweptLine_of_swept {c : CLine} (h : c.dirty = true → c.poison = true) : sweptLine c = c := by
  unfold sweptLine
  split
  · rfl
  · rename_i sound
    have clean : c.dirty = false := Bool.eq_false_iff.mpr fun dirty => sound (h dirty)
    rw [← clean]

theorem poison_of_mem_sweptSet {drop : Bool} {ls : List CLine} {c : CLine} (h : c ∈ sweptSet drop ls)
    (dirty : c.dirty = true) : c.poison = true := by
  obtain ⟨x, -, rfl⟩ := List.mem_map.mp (List.mem_filter.mp h).1
  unfold sweptLine at dirty ⊢
  split at dirty
  · rename_i poisoned
    rwa [if_pos poisoned]
  · exact absurd dirty Bool.false_ne_true

/-- A set swept again stays as it is. -/
theorem sweptSet_sweptSet (drop : Bool) (ls : List CLine) : sweptSet drop (sweptSet drop ls) = sweptSet drop ls := by
  have same : (sweptSet drop ls).map sweptLine = sweptSet drop ls := by
    refine (List.map_congr_left fun c hc => ?_).trans (List.map_id _)
    exact sweptLine_of_swept (poison_of_mem_sweptSet hc)
  rw [sweptSet, same]
  exact List.filter_eq_self.mpr fun c hc => (List.mem_filter.mp hc).2

/-- The lines that a sweep of the sets of `P` writes. -/
def DirtyIn (d : Dev) (P : Nat → Nat → Prop) (c : CLine) : Prop :=
  ∃ r j, P r j ∧ c ∈ getSet d r j ∧ c.dirty = true ∧ c.poison = false

/-- The sets of `P` have been swept, and the others stay. -/
structure Swept (drop : Bool) (P : Nat → Nat → Prop) (d e : Dev) : Prop where
  wrote : WroteBack (DirtyIn d P) d e
  sets : ∀ r j, P r j → getSet e r j = sweptSet drop (getSet d r j)
  others : ∀ r j, ¬ P r j → getSet e r j = getSet d r j

theorem Swept.refl (drop : Bool) (d : Dev) : Swept drop (fun _ _ => False) d d :=
  ⟨(WroteBack.refl d).trans (WroteBack.refl d) (by simp [DirtyIn]), fun _ _ h => h.elim, fun _ _ _ => rfl⟩

/-- A set swept again has no line to write and stays as it is. -/
theorem Swept.trans {drop : Bool} {P Q R : Nat → Nat → Prop} {d e f : Dev} (h : Swept drop P d e) (k : Swept drop Q e f)
    (all : ∀ r j, R r j ↔ P r j ∨ Q r j) : Swept drop R d f where
  wrote := by
    refine h.wrote.trans k.wrote fun c => ⟨fun ⟨r, j, hR, hc, dirty, sound⟩ => ?_, fun written => ?_⟩
    · by_cases hP : P r j
      · exact .inl ⟨r, j, hP, hc, dirty, sound⟩
      · exact .inr ⟨r, j, ((all r j).mp hR).resolve_left hP, h.others r j hP ▸ hc, dirty, sound⟩
    · rcases written with ⟨r, j, hP, hc, dirty, sound⟩ | ⟨r, j, hQ, hc, dirty, sound⟩
      · exact ⟨r, j, (all r j).mpr (.inl hP), hc, dirty, sound⟩
      · have fresh : ¬ P r j := fun hP => by
          rw [h.sets r j hP] at hc
          exact Bool.false_ne_true (sound.symm.trans (poison_of_mem_sweptSet hc dirty))
        exact ⟨r, j, (all r j).mpr (.inr hQ), h.others r j fresh ▸ hc, dirty, sound⟩
  sets r j hR := by
    by_cases hQ : Q r j
    · rw [k.sets r j hQ]
      by_cases hP : P r j
      · rw [h.sets r j hP, sweptSet_sweptSet]
      · rw [h.others r j hP]
    · rw [k.others r j hQ, h.sets r j (((all r j).mp hR).resolve_right hQ)]
  others r j hR := by
    rw [k.others r j fun hQ => hR ((all r j).mpr (.inr hQ)), h.others r j fun hP => hR ((all r j).mpr (.inl hP))]

/-- A sweep in steps, each of which sweeps the sets of its own. -/
theorem Swept.foldl {drop : Bool} {α : Type} {f : Nat × Dev → α → Nat × Dev} {P : α → Nat → Nat → Prop}
    (step : ∀ x a, NoLineMarks x.2 → Swept drop (P a) x.2 (f x a).2) (l : List α) (x : Nat × Dev)
    (unmarked : NoLineMarks x.2) : Swept drop (fun r j => ∃ a ∈ l, P a r j) x.2 (l.foldl f x).2 := by
  induction l generalizing x with
  | nil => exact (Swept.refl drop x.2).trans (Swept.refl drop x.2) (by simp)
  | cons a l ih =>
    have first := step x a unmarked
    exact first.trans (ih (f x a) (first.wrote.marks unmarked)) fun r j => by simp

/-- Sets that hold no line count as swept. -/
theorem Swept.empty {drop : Bool} {P Q : Nat → Nat → Prop} {d e : Dev} (h : Swept drop P d e)
    (more : ∀ r j, P r j → Q r j) (none : ∀ r j, Q r j → ¬ P r j → getSet d r j = []) : Swept drop Q d e := by
  have skip : Swept drop (fun r j => Q r j ∧ ¬ P r j) d d := by
    refine ⟨(WroteBack.refl d).trans (WroteBack.refl d) fun c => ?_, fun r j hr => ?_, fun _ _ _ => rfl⟩
    · simp only [or_self, iff_false]
      rintro ⟨r, j, hr, hc, -⟩
      rw [none r j hr.1 hr.2] at hc
      exact List.not_mem_nil hc
    · rw [none r j hr.1 hr.2]
      rfl
  refine skip.trans h fun r j => ⟨fun hQ => ?_, fun hr => hr.elim (·.1) (more r j)⟩
  by_cases hP : P r j
  · exact .inr hP
  · exact .inl ⟨hQ, hP⟩

theorem map_cleanIn_due (ls : List CLine) :
    ls.map (cleanIn (ls.filter fun c => c.dirty && !c.poison)) = ls.map sweptLine := by
  refine List.map_congr_left fun c hc => ?_
  by_cases due : c.dirty = true ∧ c.poison = false
  · rw [cleanIn, if_pos (List.mem_filter.mpr ⟨hc, by simp [due]⟩), sweptLine, if_neg (by simp [due.2])]
    rfl
  · rw [cleanIn, if_neg fun h => due (by simpa using (List.mem_filter.mp h).2), sweptLine_of_swept]
    exact fun dirty => Bool.not_eq_false _ ▸ fun sound => due ⟨dirty, sound⟩

/-- One set: its dirty lines are written, and then the lines that may go are dropped. -/
theorem sweepSet_swept (drop : Bool) (i s : Nat) (x : Nat × Dev) (unmarked : NoLineMarks x.2) :
    Swept drop (fun r j => r = s ∧ j = i) x.2 (sweepSet drop i x s).2 := by
  obtain ⟨wrote, sets⟩ := sweepLines_unmarked s i ((getSet x.2 s i).filter fun c => c.dirty && !c.poison)
    (fun c hc => by simpa using (List.mem_filter.mp hc).2) x unmarked
  have due (c : CLine) : DirtyIn x.2 (fun r j => r = s ∧ j = i) c ↔
      c ∈ (getSet x.2 s i).filter fun c => c.dirty && !c.poison := by
    simp only [DirtyIn, List.mem_filter, Bool.and_eq_true, Bool.not_eq_true']
    exact ⟨fun ⟨r, j, ⟨hr, hj⟩, h⟩ => hr ▸ hj ▸ h, fun h => ⟨s, i, ⟨rfl, rfl⟩, h⟩⟩
  rw [sweepSet]
  generalize ((getSet x.2 s i).filter fun c => c.dirty && !c.poison).foldl (sweepLine s i) x = e at wrote sets ⊢
  have here : getSet e.2 s i = (getSet x.2 s i).map sweptLine := by
    rw [sets, if_pos ⟨rfl, rfl⟩, map_cleanIn_due]
  have away (r j : Nat) (h : ¬ (r = s ∧ j = i)) : getSet e.2 r j = getSet x.2 r j := by rw [sets, if_neg h]
  cases drop
  · refine ⟨wrote.trans (WroteBack.refl e.2) fun c => by rw [due, or_false], fun r j h => ?_, away⟩
    rw [h.1, h.2, sweptSet]
    exact here.trans (List.filter_eq_self.mpr fun _ _ => rfl).symm
  · refine ⟨wrote.trans (wroteBack_putSet _ _ _ _) fun c => by rw [due, or_false], fun r j h => ?_, fun r j h => ?_⟩
    · exact (getSet_putSet _ _ _ _ _ _).trans (by rw [if_pos h, here, h.1, h.2]; rfl)
    · exact (getSet_putSet _ _ _ _ _ _).trans (by rw [if_neg h, away r j h])

/-! ## The half -/

/-- A slice that the cache die does not list holds no line. -/
theorem getSet_of_not_listed {d : Dev} {s : Nat} (h : s ∉ d.slices.map (·.1)) (i : Nat) : getSet d s i = [] := by
  rw [getSet, getSlice, mapGet_eq_default h]
  rfl

/-- Set `i` of every slice of half `h`. -/
theorem sweepSets_swept (drop : Bool) (h i : Nat) (x : Nat × Dev) (unmarked : NoLineMarks x.2) :
    Swept drop (fun r j => halfOf r = h ∧ j = i) x.2 ((slicesOf x.2 h).foldl (sweepSet drop i) x).2 := by
  refine (Swept.foldl (fun x s => sweepSet_swept drop i s x) (slicesOf x.2 h) x unmarked).empty
    (fun r j ⟨s, hs, hr, hj⟩ => ⟨?_, hj⟩) fun r j ⟨half, hj⟩ missing => ?_
  · exact hr ▸ of_decide_eq_true (List.mem_filter.mp hs).2
  · refine getSet_of_not_listed (fun listed => missing ⟨r, ?_, rfl, hj⟩) j
    exact List.mem_filter.mpr ⟨listed, decide_eq_true half⟩

/-- What a sweep of the sets `is` of a half does before it counts them. -/
def sweepSets (drop : Bool) (h : Nat) (is : List Nat) (d : Dev) : Nat × Dev :=
  is.foldl (fun x i => (slicesOf x.2 h).foldl (sweepSet drop i) x) (0, d)

theorem sweepSets_all (drop : Bool) (h : Nat) (is : List Nat) {d : Dev} (unmarked : NoLineMarks d) :
    Swept drop (fun r j => halfOf r = h ∧ j ∈ is) d (sweepSets drop h is d).2 := by
  have all := Swept.foldl (drop := drop) (fun x i => sweepSets_swept drop h i x) is (0, d) unmarked
  exact (Swept.refl drop d).trans all fun r j => by simp; tauto

/-- The sets that a sweep has left. -/
def setsLeft (d : Dev) (h : Nat) : List Nat :=
  (List.range (3072 - regField d (aWbStatus h) 32 12)).map (regField d (aWbStatus h) 32 12 + ·)

theorem mem_setsLeft {d : Dev} {h i : Nat} : i ∈ setsLeft d h ↔ regField d (aWbStatus h) 32 12 ≤ i ∧ i < 3072 := by
  simp only [setsLeft, List.mem_map, List.mem_range]
  exact ⟨fun ⟨a, ha, hi⟩ => by omega, fun hi => ⟨i - regField d (aWbStatus h) 32 12, by omega, by omega⟩⟩

/-- The device when every set of a half has been swept. -/
def sweptHalf (d : Dev) (h : Nat) : Nat × Dev := sweepSets (bit (regGet d (aWbCtrl h)) 1) h (setsLeft d h) d

/-- The end of a sweep in half `h` that wrote `x.1` lines: the counts of Table 8.11, and DONE instead of BUSY. -/
def sweepEnd (h : Nat) (x : Nat × Dev) : Dev :=
  regSet (regSet (regSat (regSet x.2 (aWbStatus h) 32 12 3072) (aWbStatus h) 0 32 x.1) (aWbStatus h) 63 1 0)
    (aWbStatus h) 62 1 1

theorem writebackAllDone_sweeping {half : BitVec 1} {d : Dev} (busy : bit (regGet d (aWbStatus half.toNat)) 63 = true) :
    writebackAllDone half d = some (sweepEnd half.toNat (sweptHalf d half.toNat)) := by
  have next : min 3072 (regField d (aWbStatus half.toNat) 32 12 + 3072) = 3072 := by omega
  rw [writebackAllDone]
  dsimp only
  rw [if_pos busy, sweepHalf]
  dsimp only
  rw [next]
  rfl

/-- Only registers have changed. -/
def RegsFrom (d e : Dev) : Prop := e = { d with regs := e.regs }

theorem RegsFrom.trans {d e f : Dev} (h : RegsFrom d e) (k : RegsFrom e f) : RegsFrom d f := by
  unfold RegsFrom at *
  rw [k, h]

theorem RegsFrom.records {d e : Dev} (h : RegsFrom d e) : e = { d with regs := e.regs, funnel := e.funnel } := by
  rw [h]

theorem regsFrom_regSet (d : Dev) (a lo w v : Nat) : RegsFrom d (regSet d a lo w v) := (rfl)

theorem regsFrom_sweepEnd (h : Nat) (x : Nat × Dev) : RegsFrom x.2 (sweepEnd h x) :=
  ((regsFrom_regSet _ _ _ _ _).trans (regsFrom_regSet _ _ _ _ _)).trans
    ((regsFrom_regSet _ _ _ _ _).trans (regsFrom_regSet _ _ _ _ _))

theorem bit_setBits {n : Nat} (x : BitVec n) (lo w v : Nat) {i : Nat} (hi : i < n) :
    bit (setBits x lo w v) i = if lo ≤ i ∧ i < lo + w then v.testBit (i - lo) else bit x i :=
  getLsbD_setBits x lo w v i hi

theorem sweepEnd_done (h : Nat) (x : Nat × Dev) : bit (regGet (sweepEnd h x) (aWbStatus h)) 63 = false ∧
    bit (regGet (sweepEnd h x) (aWbStatus h)) 62 = true := by
  rw [sweepEnd, regGet_regSet, regGet_regSet]
  constructor
  · rw [bit_setBits _ _ _ _ (by decide), if_neg (by decide), bit_setBits _ _ _ _ (by decide), if_pos (by decide)]
    rfl
  · rw [bit_setBits _ _ _ _ (by decide), if_pos (by decide)]
    rfl

/-- Registers written after a sweep leave what the sweep did. -/
theorem Swept.regsFrom {drop : Bool} {P : Nat → Nat → Prop} {d x e : Dev} (k : Swept drop P d x) (h : RegsFrom x e) :
    e = { d with regs := e.regs, slices := e.slices, mem := e.mem, errs := e.errs, chk := e.chk } ∧
    (∀ r j, getSet e r j = getSet x r j) ∧ BytesOf (DirtyIn d P) d e := by
  have slices : e.slices = x.slices := by rw [h]
  have mem : e.mem = x.mem := by rw [h]
  have same (f o : Nat) : memByte e f o = memByte x f o := by rw [memByte, memByte, mem]
  refine ⟨by rw [h, k.wrote.frame], fun r j => getSet_of_slices slices r j, fun f o ho => ?_⟩
  rw [same]
  exact k.wrote.bytes f o ho

/-- WRITEBACK_ALL_DONE of a half whose lines have no error marks (R253, R256). -/
theorem writebackAllDone_next {half : BitVec 1} {s : State} (busy : bit (regGet s.dev (aWbStatus half.toNat)) 63 = true)
    (unmarked : NoLineMarks s.dev) : ∃ t, exec (.writebackAllDone half) s = .next t ∧ t.pending = s.pending ∧
      t.dev = { s.dev with regs := t.dev.regs, slices := t.dev.slices, mem := t.dev.mem, errs := t.dev.errs,
                           chk := t.dev.chk } ∧
      bit (regGet t.dev (aWbStatus half.toNat)) 63 = false ∧ bit (regGet t.dev (aWbStatus half.toNat)) 62 = true ∧
      (∀ r j, getSet t.dev r j = if halfOf r = half.toNat ∧ j ∈ setsLeft s.dev half.toNat then
        sweptSet (bit (regGet s.dev (aWbCtrl half.toNat)) 1) (getSet s.dev r j) else getSet s.dev r j) ∧
      BytesOf (DirtyIn s.dev fun r j => halfOf r = half.toNat ∧ j ∈ setsLeft s.dev half.toNat) s.dev t.dev := by
  have swept := sweepSets_all (bit (regGet s.dev (aWbCtrl half.toNat)) 1) half.toNat (setsLeft s.dev half.toNat) unmarked
  obtain ⟨busyOff, done⟩ := sweepEnd_done half.toNat (sweptHalf s.dev half.toNat)
  obtain ⟨frame, sets, bytes⟩ := Swept.regsFrom swept (regsFrom_sweepEnd half.toNat (sweptHalf s.dev half.toNat))
  refine ⟨s.withDev (sweepEnd half.toNat (sweptHalf s.dev half.toNat)), ?_, rfl, frame, busyOff, done, fun r j => ?_, bytes⟩
  · rw [exec_writebackAllDone, writebackAllDone_sweeping busy, gated_some]
  · rw [withDev_dev, sets]
    split
    · rename_i here
      exact swept.sets r j here
    · rename_i away
      exact swept.others r j away

/-- The lines of `DirtyAt` are those that the sweep writes, where they hold the byte. -/
theorem dirtyAt_iff {d : Dev} {h f o : Nat} {c : CLine} : DirtyAt d h (regField d (aWbStatus h) 32 12) f o c ↔
    DirtyIn d (fun r j => halfOf r = h ∧ j ∈ setsLeft d h) c ∧ Holds c f o := by
  simp only [DirtyAt, DirtyIn, Holds, mem_setsLeft]
  constructor
  · rintro ⟨sl, i, half, low, high, mem, dirty, sound, frame, line⟩
    exact ⟨⟨sl, i, ⟨half, low, high⟩, mem, dirty, sound⟩, frame, line⟩
  · rintro ⟨⟨sl, i, ⟨half, low, high⟩, mem, dirty, sound⟩, frame, line⟩
    exact ⟨sl, i, half, low, high, mem, dirty, sound, frame, line⟩

/-! ## The write of CDC_WB_CTRL -/

theorem aWbCtrl_ne_aWbStatus (h : Nat) : aWbCtrl h ≠ aWbStatus h := by unfold aWbCtrl aWbStatus; omega

/-- START where no sweep is under way. -/
def Starts (h : Nat) (v : D64) (d : Dev) : Prop := bit v 0 = true ∧ bit (regGet d (aWbStatus h)) 63 = false

/-- The status of a sweep that begins: BUSY, nothing swept, nothing written (Table 8.11). -/
def beginSweep (d : Dev) (h : Nat) : Dev :=
  regSet (regSet (regSet d (aWbStatus h) 63 1 1) (aWbStatus h) 32 12 0) (aWbStatus h) 0 32 0

section
variable {half : BitVec 1} {v : D64} {d : Dev}

theorem regGet_wbCtrl_other {a : Nat} (h : a ≠ aWbCtrl half.toNat) :
    regGet (regSet d (aWbCtrl half.toNat) 1 1 (bits v 1 1)) a = regGet d a := regGet_regSet_other _ _ _ _ _ _ h

theorem writebackAll_start (h : Starts half.toNat v d) :
    writebackAll half v d = beginSweep (regSet d (aWbCtrl half.toNat) 1 1 (bits v 1 1)) half.toNat := by
  rw [writebackAll]
  rw [regGet_wbCtrl_other (aWbCtrl_ne_aWbStatus _).symm, h.1, h.2]
  rfl

theorem writebackAll_keep (h : ¬ Starts half.toNat v d) :
    writebackAll half v d = regSet d (aWbCtrl half.toNat) 1 1 (bits v 1 1) := by
  rw [writebackAll]
  rw [regGet_wbCtrl_other (aWbCtrl_ne_aWbStatus _).symm]
  exact if_neg (by simpa [Starts] using h)

theorem regsFrom_beginSweep (d : Dev) (h : Nat) : RegsFrom d (beginSweep d h) :=
  ((regsFrom_regSet _ _ _ _ _).trans (regsFrom_regSet _ _ _ _ _)).trans (regsFrom_regSet _ _ _ _ _)

theorem regGet_beginSweep_other {h a : Nat} (ha : a ≠ aWbStatus h) : regGet (beginSweep d h) a = regGet d a := by
  rw [beginSweep, regGet_regSet_other _ _ _ _ _ _ ha, regGet_regSet_other _ _ _ _ _ _ ha,
    regGet_regSet_other _ _ _ _ _ _ ha]

theorem beginSweep_status (h : Nat) : bit (regGet (beginSweep d h) (aWbStatus h)) 63 = true ∧
    bits (regGet (beginSweep d h) (aWbStatus h)) 0 44 = 0 := by
  rw [beginSweep, regGet_regSet, regGet_regSet, regGet_regSet]
  constructor
  · rw [bit_setBits _ _ _ _ (by decide), if_neg (by decide), bit_setBits _ _ _ _ (by decide), if_neg (by decide),
      bit_setBits _ _ _ _ (by decide), if_pos (by decide)]
    rfl
  · refine Nat.eq_of_testBit_eq fun i => ?_
    rw [testBit_bits, Nat.zero_testBit]
    by_cases hi : i < 44
    · rw [getLsbD_setBits _ _ _ _ _ (by omega)]
      by_cases low : i < 32
      · rw [if_pos (by omega), Nat.zero_testBit, Bool.and_false]
      · rw [if_neg (by omega), getLsbD_setBits _ _ _ _ _ (by omega), if_pos (by omega), Nat.zero_testBit, Bool.and_false]
    · rw [decide_eq_false hi, Bool.false_and]

theorem regsFrom_writebackAll : RegsFrom d (writebackAll half v d) := by
  by_cases h : Starts half.toNat v d
  · rw [writebackAll_start h]
    exact (regsFrom_regSet _ _ _ _ _).trans (regsFrom_beginSweep _ _)
  · rw [writebackAll_keep h]
    exact regsFrom_regSet _ _ _ _ _

/-- Registers other than the status are as the write of DROP_CLEAN leaves them. -/
theorem regGet_writebackAll_other {a : Nat} (ha : a ≠ aWbStatus half.toNat) :
    regGet (writebackAll half v d) a = regGet (regSet d (aWbCtrl half.toNat) 1 1 (bits v 1 1)) a := by
  by_cases h : Starts half.toNat v d
  · rw [writebackAll_start h, regGet_beginSweep_other ha]
  · rw [writebackAll_keep h]

theorem dropClean_writebackAll : bit (regGet (writebackAll half v d) (aWbCtrl half.toNat)) 1 = bit v 1 := by
  rw [regGet_writebackAll_other (aWbCtrl_ne_aWbStatus _), regGet_regSet, bit_setBits _ _ _ _ (by decide),
    if_pos (by decide), Nat.sub_self, testBit_bits]
  rfl

end

end Sys2Proof.Machine
end

section
/-! CNT_CLEAR and THRASH_WINDOW_END: the counters of a class, and the windows of thrash detection (08 R254, R255, R259);
then the maintenance of the cache die as a whole. -/

namespace Sys2Proof.Machine

theorem exec_cntClear (half : BitVec 1) (v : D64) (s : State) :
    exec (.cntClear half v) s = ok s (cntClear half v s.dev) := (rfl)

theorem exec_thrashWindowEnd (half : BitVec 1) (cls : BitVec 3) (s : State) :
    exec (.thrashWindowEnd half cls) s = ok s (thrashWindowEnd half cls s.dev) := (rfl)

/-! ## Clearing counters -/

/-- Registers and the windows of thrash detection have changed, nothing else. -/
def CountersFrom (d e : Dev) : Prop := e = { d with regs := e.regs, thrash := e.thrash }

theorem CountersFrom.trans {d e f : Dev} (h : CountersFrom d e) (k : CountersFrom e f) : CountersFrom d f := by
  unfold CountersFrom at *
  rw [k, h]

theorem countersFrom_putThrash (d : Dev) (h k : Nat) (t : Thrash) : CountersFrom d (putThrash d h k t) := (rfl)

theorem countersFrom_regSet (d : Dev) (a lo w v : Nat) : CountersFrom d (regSet d a lo w v) := (rfl)

theorem CountersFrom.foldl {α : Type} {f : Dev → α → Dev} (only : ∀ d a, CountersFrom d (f d a)) (l : List α) (d : Dev) :
    CountersFrom d (l.foldl f d) := by
  induction l generalizing d with
  | nil => rfl
  | cons a l ih => exact (only d a).trans (ih _)

theorem countersFrom_clearClass (h : Nat) (d : Dev) (k : Nat) : CountersFrom d (clearClass h d k) :=
  (countersFrom_putThrash d h k _).trans (CountersFrom.foldl (fun x _ => countersFrom_regSet x _ _ _ _) _ _)

theorem countersFrom_cntClear (half : BitVec 1) (v : D64) (d : Dev) : CountersFrom d (cntClear half v d) :=
  CountersFrom.foldl (countersFrom_clearClass half.toNat) _ d

/-- The counters have registers of their own (Table 8.14). -/
theorem aCnt_inj {h k e h' k' e' : Nat} (hk : k < 8) (he : e < 6) (hk' : k' < 8) (he' : e' < 6)
    (same : aCnt h k e = aCnt h' k' e') : h = h' ∧ k = k' ∧ e = e' := by
  unfold aCnt cdcw at same
  omega

theorem cnt_putThrash (d : Dev) (h k : Nat) (t : Thrash) (h' k' e : Nat) :
    cnt (putThrash d h k t) h' k' e = cnt d h' k' e := by
  rw [cnt, cnt, regField, regField, regGet_putThrash]

theorem cnt_regSet_same (d : Dev) (h k e : Nat) : cnt (regSet d (aCnt h k e) 0 48 0) h k e = 0 := by
  rw [cnt, regField, regGet_regSet, bits_setBits_same _ _ _ _ (by decide) (by decide)]

theorem cnt_regSet_other {d : Dev} {a h k e : Nat} (lo w v : Nat) (ne : aCnt h k e ≠ a) :
    cnt (regSet d a lo w v) h k e = cnt d h k e := by
  rw [cnt, regField, regGet_regSet_other _ _ _ _ _ _ ne]
  rfl

/-- Counters cleared one after the other. -/
theorem cnt_foldl_regSet (h k : Nat) (hk : k < 8) (es : List Nat) (hes : ∀ e ∈ es, e < 6) (d : Dev) {h' k' e' : Nat}
    (hk' : k' < 8) (he' : e' < 6) : cnt (es.foldl (fun d e => regSet d (aCnt h k e) 0 48 0) d) h' k' e' =
      if h' = h ∧ k' = k ∧ e' ∈ es then 0 else cnt d h' k' e' := by
  induction es generalizing d with
  | nil => simp
  | cons e es ih =>
    rw [List.foldl_cons, ih fun x hx => hes x (List.mem_cons_of_mem _ hx)]
    by_cases later : h' = h ∧ k' = k ∧ e' ∈ es
    · rw [if_pos later, if_pos ⟨later.1, later.2.1, List.mem_cons_of_mem _ later.2.2⟩]
    · rw [if_neg later]
      by_cases now : h' = h ∧ k' = k ∧ e' = e
      · obtain ⟨rfl, rfl, rfl⟩ := now
        rw [cnt_regSet_same, if_pos ⟨rfl, rfl, List.mem_cons_self⟩]
      · rw [cnt_regSet_other _ _ _ fun same => now (aCnt_inj hk' he' hk (hes e List.mem_cons_self) same), if_neg]
        rintro ⟨hh, hkk, hm⟩
        rcases List.mem_cons.mp hm with he | hm
        · exact now ⟨hh, hkk, he⟩
        · exact later ⟨hh, hkk, hm⟩

theorem cnt_clearClass (h : Nat) (d : Dev) {k h' k' e' : Nat} (hk : k < 8) (hk' : k' < 8) (he' : e' < 6) :
    cnt (clearClass h d k) h' k' e' = if h' = h ∧ k' = k then 0 else cnt d h' k' e' := by
  rw [clearClass]
  rw [cnt_foldl_regSet h k hk _ (fun e he => List.mem_range.mp he) _ hk' he', cnt_putThrash]
  exact if_congr (by simp [he']) rfl rfl

theorem cnt_foldl_clearClass (h : Nat) (ks : List Nat) (hks : ∀ k ∈ ks, k < 8) (d : Dev) {h' k' e' : Nat} (hk' : k' < 8)
    (he' : e' < 6) : cnt (ks.foldl (clearClass h) d) h' k' e' = if h' = h ∧ k' ∈ ks then 0 else cnt d h' k' e' := by
  induction ks generalizing d with
  | nil => simp
  | cons k ks ih =>
    rw [List.foldl_cons, ih (fun x hx => hks x (List.mem_cons_of_mem _ hx)),
      cnt_clearClass h d (hks k List.mem_cons_self) hk' he', ← ite_or]
    exact if_congr (by simp only [List.mem_cons]; tauto) rfl rfl

theorem cnt_cntClear (half : BitVec 1) (v : D64) (d : Dev) {h k e : Nat} (hk : k < 8) (he : e < 6) :
    cnt (cntClear half v d) h k e = if h = half.toNat ∧ bit v k = true then 0 else cnt d h k e := by
  rw [cntClear, cnt_foldl_clearClass _ _ (fun k hk => List.mem_range.mp (List.mem_filter.mp hk).1) d hk he]
  exact if_congr (by simp [hk]) rfl rfl

/-! ## The window of a class -/

/-- Registers and the funnel have changed, nothing else. -/
def RecordsFrom (d e : Dev) : Prop := e = { d with regs := e.regs, funnel := e.funnel }

theorem RecordsFrom.trans {d e f : Dev} (h : RecordsFrom d e) (k : RecordsFrom e f) : RecordsFrom d f := by
  unfold RecordsFrom at *
  rw [k, h]

theorem recordsFrom_regSet (d : Dev) (a lo w v : Nat) : RecordsFrom d (regSet d a lo w v) := (rfl)

theorem recordsFrom_event (d : Dev) (s : Word) (code l0 l1 l2 det : Nat) : RecordsFrom d (event d s code l0 l1 l2 det) :=
  event_only d s code l0 l1 l2 det

theorem aThrashStatus_ne_aCnt (h h' : Nat) {k e : Nat} (hk : k < 8) (he : e < 6) : aCnt h' k e ≠ aThrashStatus h := by
  unfold aCnt aThrashStatus cdcw
  omega

theorem aThrashStatus_ne_aErrStatus (h : Nat) : aThrashStatus h ≠ aErrStatus := by
  unfold aThrashStatus aErrStatus cdcw
  omega

theorem aCnt_ne_aErrStatus {h k e : Nat} (hk : k < 8) (he : e < 6) : aCnt h k e ≠ aErrStatus := by
  unfold aCnt aErrStatus cdcw
  omega

/-- Counts of a window, from a counter that wraps. -/
theorem since_eq {now start n : Nat} (hn : n < 2 ^ 48) (h : (start + n) % 2 ^ 48 = now) : since now start = n := by
  unfold since
  omega

/-- What THRASH_WINDOW_END finds at the end of a window (R255): whether the window is high, the run of high windows,
whether the class was armed, whether the run is long enough, and whether that raises the event. -/
structure Window where
  high : Bool
  run : Nat
  armed : Bool
  above : Bool
  raised : Bool

/-- The window of a class with `hits` and `misses`. -/
def windowOf (T : Thrash) (cfg : D64) (hits misses : Nat) : Window :=
  let high := decide (2 ^ bits cfg 24 4 ≤ hits + misses) && decide (bits cfg 0 8 * (hits + misses) < misses * 256)
  let run := if high then min (T.run + 1) 15 else 0
  let armed := if high then T.armed else true
  let above := decide (max (bits cfg 20 4) 1 ≤ run)
  { high := high, run := run, armed := armed, above := above, raised := above && armed && bit cfg 31 }

/-- The status of the class, and the event where it is raised. -/
def noteWindow (d : Dev) (h k : Nat) (w : Window) (hits misses : Nat) : Dev :=
  let d := regSet d (aThrashStatus h) k 1 (b2n w.above)
  if w.raised then
    regSet (event d (src 1 (1024 * h)) 0x0302 h k hits misses) (aThrashStatus h) (8 + k) 1 1
  else d

/-- What the next window starts from. -/
def nextWindow (d : Dev) (h k : Nat) (w : Window) : Thrash :=
  { hits0 := cnt d h k 0, miss0 := cnt d h k 1, run := w.run, armed := w.armed && !w.raised }

section
variable {d : Dev} {h k : Nat} {w : Window} {hits misses : Nat}

theorem cnt_noteWindow {g j e : Nat} (hj : j < 8) (he : e < 6) : cnt (noteWindow d h k w hits misses) g j e = cnt d g j e := by
  have apart := aThrashStatus_ne_aCnt h g hj he
  unfold noteWindow
  dsimp only
  split
  · rw [cnt_regSet_other _ _ _ apart, cnt, regField, event, post_regGet _ _ _ (aCnt_ne_aErrStatus hj he)]
    exact cnt_regSet_other _ _ _ apart
  · exact cnt_regSet_other _ _ _ apart

theorem recordsFrom_noteWindow : RecordsFrom d (noteWindow d h k w hits misses) := by
  have status := recordsFrom_regSet d (aThrashStatus h) k 1 (b2n w.above)
  unfold noteWindow
  dsimp only
  split
  · exact status.trans ((recordsFrom_event _ _ _ _ _ _ _).trans (recordsFrom_regSet _ _ _ _ _))
  · exact status

/-- The status register of the half after the window. -/
theorem regGet_noteWindow : regGet (noteWindow d h k w hits misses) (aThrashStatus h) =
    if w.raised then setBits (setBits (regGet d (aThrashStatus h)) k 1 (b2n w.above)) (8 + k) 1 1
    else setBits (regGet d (aThrashStatus h)) k 1 (b2n w.above) := by
  unfold noteWindow
  dsimp only
  split
  · rw [regGet_regSet, event, post_regGet _ _ _ (aThrashStatus_ne_aErrStatus h), regGet_regSet]
  · rw [regGet_regSet]

theorem status_noteWindow (hk : k < 8) : bit (regGet (noteWindow d h k w hits misses) (aThrashStatus h)) k = w.above := by
  have above : bit (setBits (regGet d (aThrashStatus h)) k 1 (b2n w.above)) k = w.above := by
    rw [bit_setBits _ _ _ _ (by omega), if_pos (by omega), Nat.sub_self]
    cases w.above <;> rfl
  rw [regGet_noteWindow]
  split
  · rw [bit_setBits _ _ _ _ (by omega), if_neg (by omega), above]
  · exact above

theorem sticky_noteWindow (hk : k < 8) : bit (regGet (noteWindow d h k w hits misses) (aThrashStatus h)) (8 + k) =
    (w.raised || bit (regGet d (aThrashStatus h)) (8 + k)) := by
  have kept : bit (setBits (regGet d (aThrashStatus h)) k 1 (b2n w.above)) (8 + k) =
      bit (regGet d (aThrashStatus h)) (8 + k) := by
    rw [bit_setBits _ _ _ _ (by omega), if_neg (by omega)]
  rw [regGet_noteWindow]
  cases w.raised
  · simpa using kept
  · rw [if_pos rfl, bit_setBits _ _ _ _ (by omega), if_pos (by omega), Nat.sub_self]
    rfl

theorem noteWindow_logged (raised : w.raised = true) :
    Logged d (noteWindow d h k w hits misses) (src 1 (1024 * h)) 0 0x0302 h k hits := by
  unfold noteWindow
  dsimp only
  rw [if_pos raised]
  exact (logged_event _ (src 1 (1024 * h)) 0x0302 h k hits misses).congr
    (regSet_funnel d _ _ _ _).symm (regSet_funnel _ _ _ _ _)

theorem noteWindow_funnel (quiet : w.raised = false) : (noteWindow d h k w hits misses).funnel = d.funnel := by
  rw [noteWindow, quiet]
  exact regSet_funnel d _ _ _ _

end

/-- THRASH_WINDOW_END of a window with `hits` and `misses`. -/
def windowEnd (d : Dev) (h k hits misses : Nat) : Dev :=
  let w := windowOf (getThrash d h k) (regGet d (aThrashCfg h k)) hits misses
  putThrash (noteWindow d h k w hits misses) h k (nextWindow (noteWindow d h k w hits misses) h k w)

theorem thrashWindowEnd_eq (half : BitVec 1) (cls : BitVec 3) (d : Dev) : thrashWindowEnd half cls d =
    windowEnd d half.toNat cls.toNat
      (since (cnt d half.toNat cls.toNat 0) (getThrash d half.toNat cls.toNat).hits0)
      (since (cnt d half.toNat cls.toNat 1) (getThrash d half.toNat cls.toNat).miss0) := (rfl)

theorem getThrash_putThrash (d : Dev) (h k : Nat) (t : Thrash) : getThrash (putThrash d h k t) h k = t :=
  mapGet_put_same _ _ _ _

theorem windowEnd_frame (d : Dev) (h k hits misses : Nat) : windowEnd d h k hits misses =
    { d with regs := (windowEnd d h k hits misses).regs, thrash := (windowEnd d h k hits misses).thrash,
             funnel := (windowEnd d h k hits misses).funnel } := by
  have noted := recordsFrom_noteWindow (d := d) (h := h) (k := k) (hits := hits) (misses := misses)
    (w := windowOf (getThrash d h k) (regGet d (aThrashCfg h k)) hits misses)
  unfold windowEnd
  dsimp only
  generalize noteWindow _ _ _ _ _ _ = e at noted ⊢
  rw [noted]
  rfl

section
variable {T : Thrash} {cfg : D64} {hits misses : Nat}

/-- A window is high with enough accesses and enough misses among them. -/
theorem windowOf_high : (windowOf T cfg hits misses).high = true ↔
    2 ^ bits cfg 24 4 ≤ hits + misses ∧ bits cfg 0 8 * (hits + misses) < misses * 256 := by
  simp only [windowOf, Bool.and_eq_true, decide_eq_true_eq]

theorem windowOf_run : (windowOf T cfg hits misses).run =
    if (windowOf T cfg hits misses).high then min (T.run + 1) 15 else 0 := (rfl)

theorem windowOf_above : (windowOf T cfg hits misses).above = true ↔
    max (bits cfg 20 4) 1 ≤ (windowOf T cfg hits misses).run := decide_eq_true_iff

theorem windowOf_armed : (windowOf T cfg hits misses).armed = true ↔
    ((windowOf T cfg hits misses).high = true → T.armed = true) := by
  have cases : (windowOf T cfg hits misses).armed = if (windowOf T cfg hits misses).high then T.armed else true := rfl
  rw [cases]
  split
  · rename_i high
    exact ⟨fun h _ => h, fun h => h high⟩
  · rename_i low
    exact ⟨fun _ h => absurd h low, fun _ => rfl⟩

theorem windowOf_raised : (windowOf T cfg hits misses).raised = true ↔
    (windowOf T cfg hits misses).above = true ∧ (windowOf T cfg hits misses).armed = true ∧ bit cfg 31 = true := by
  have all : (windowOf T cfg hits misses).raised =
    ((windowOf T cfg hits misses).above && (windowOf T cfg hits misses).armed && bit cfg 31) := rfl
  rw [all, Bool.and_eq_true, Bool.and_eq_true, and_assoc]

end

/-- THRASH_WINDOW_END in the words of R255. -/
theorem windowEnd_spec (d : Dev) {h k : Nat} (hk : k < 8) (hits misses : Nat) {T : Thrash} {cfg : D64}
    (hT : T = getThrash d h k) (hcfg : cfg = regGet d (aThrashCfg h k)) :
    let e := windowEnd d h k hits misses
    let high := 2 ^ bits cfg 24 4 ≤ hits + misses ∧ bits cfg 0 8 * (hits + misses) < misses * 256
    let run := if high then min (T.run + 1) 15 else 0
    let above := max (bits cfg 20 4) 1 ≤ run
    let ev := above ∧ (high → T.armed = true) ∧ bit cfg 31 = true
    (getThrash e h k).run = run ∧ (bit (regGet e (aThrashStatus h)) k = true ↔ above) ∧
    (bit (regGet e (aThrashStatus h)) (8 + k) = true ↔ ev ∨ bit (regGet d (aThrashStatus h)) (8 + k) = true) ∧
    ((getThrash e h k).armed = true ↔ (high → T.armed = true) ∧ ¬ ev) ∧
    (getThrash e h k).hits0 = cnt d h k 0 ∧ (getThrash e h k).miss0 = cnt d h k 1 ∧
    (ev → Logged d e (src 1 (1024 * h)) 0 0x0302 h k hits) ∧ (¬ ev → e.funnel = d.funnel) ∧
    ∀ g j i, j < 8 → i < 6 → cnt e g j i = cnt d g j i := by
  intro e high run above ev
  let w := windowOf T cfg hits misses
  have we : e = putThrash (noteWindow d h k w hits misses) h k (nextWindow (noteWindow d h k w hits misses) h k w) := by
    simp only [e, w, hT, hcfg, windowEnd]
  have whigh : w.high = true ↔ high := windowOf_high
  have wrun : w.run = run := windowOf_run.trans (if_congr whigh rfl rfl)
  have wabove : w.above = true ↔ above := by
    rw [windowOf_above, show (windowOf T cfg hits misses).run = run from wrun]
  have warmed : w.armed = true ↔ (high → T.armed = true) := windowOf_armed.trans (by rw [← whigh])
  have wraised : w.raised = true ↔ ev := windowOf_raised.trans (by rw [wabove, warmed])
  clear_value e w
  subst we
  simp only [getThrash_putThrash, regGet_putThrash, cnt_putThrash]
  refine ⟨wrun, ?_, ?_, ?_, cnt_noteWindow hk (by decide), cnt_noteWindow hk (by decide), fun he => ?_, fun he => ?_,
    fun g j i hj hi => cnt_noteWindow hj hi⟩
  · rw [status_noteWindow hk, wabove]
  · rw [sticky_noteWindow hk, Bool.or_eq_true, wraised]
  · rw [← wraised, ← warmed, nextWindow, Bool.and_eq_true, Bool.not_eq_true', Bool.not_eq_true]
  · exact (noteWindow_logged (wraised.mpr he)).congr rfl (putThrash_funnel _ _ _ _)
  · exact (putThrash_funnel _ _ _ _).trans (noteWindow_funnel (Bool.eq_false_iff.mpr fun h => he (wraised.mp h)))

/-- Settles O33: counters have registers of their own (`cnt_cntClear`), a window is what `windowEnd_spec` says, and the
steps of a sweep compose (`Swept.trans`), since a set swept twice has no line left to write. -/
theorem cacheMaintenanceCountersAndSweeps : Obligations.CacheMaintenanceCountersAndSweeps := by
  unfold Obligations.CacheMaintenanceCountersAndSweeps
  refine ⟨fun half v s => ?clear, fun half cls s => ?window, fun half v s => ?start, fun half s busy unmarked done hdone => ?done⟩
  case clear =>
    exact ⟨s.withDev (cntClear half v s.dev), by rw [exec_cntClear, ok_eq], rfl, countersFrom_cntClear half v s.dev,
      fun h k e _ hk he => cnt_cntClear half v s.dev hk he⟩
  case window =>
    refine ⟨s.withDev (thrashWindowEnd half cls s.dev), by rw [exec_thrashWindowEnd, ok_eq], rfl, ?_, ?_⟩
    · rw [withDev_dev, thrashWindowEnd_eq]
      exact windowEnd_frame _ _ _ _ _
    · intro h k T cfg hits misses hh hk hT hcfg bh bm hhits hmisses
      subst hh hk
      obtain ⟨ran, status, sticky, armed, fromHits, fromMisses, logged, quiet, counters⟩ :=
        windowEnd_spec s.dev cls.isLt hits misses hT hcfg
      rw [withDev_dev, thrashWindowEnd_eq, ← hT, since_eq bh hhits, since_eq bm hmisses]
      exact ⟨ran, status, sticky, armed, fromHits, fromMisses, logged, quiet, fun g j i _ hj hi => counters g j i hj hi⟩
  case start =>
    refine ⟨s.withDev (writebackAll half v s.dev), by rw [exec_writebackAll, ok_eq], ⟨rfl, ?_⟩, ?_, dropClean_writebackAll,
      fun starts => ?_, fun keeps => ?_, fun a notCtrl notStatus => ?_⟩
    all_goals rw [withDev_dev]
    · exact regsFrom_writebackAll.records
    · rw [regsFrom_writebackAll]
    · rw [writebackAll_start starts]
      exact beginSweep_status _
    · rw [writebackAll_keep keeps, regGet_wbCtrl_other (aWbCtrl_ne_aWbStatus _).symm]
    · rw [regGet_writebackAll_other notStatus, regGet_wbCtrl_other notCtrl]
  case done =>
    subst hdone
    obtain ⟨t, next, pending, frame, busyOff, doneOn, sets, bytes⟩ := writebackAllDone_next busy unmarked
    refine ⟨t, next, pending, frame, busyOff, doneOn, fun sl i => ?_, fun f o c ho dirty only => ?_, fun f o ho none => ?_⟩
    · rw [sets]
      exact if_congr (and_congr_right fun _ => mem_setsLeft) rfl rfl
    · rcases bytes f o ho with ⟨c', written, held, byte⟩ | ⟨none, -⟩
      · rw [byte, only c' (dirtyAt_iff.mpr ⟨written, held⟩)]
      · exact absurd (dirtyAt_iff.mp dirty).2 (none c (dirtyAt_iff.mp dirty).1)
    · rcases bytes f o ho with ⟨c', written, held, -⟩ | ⟨-, same⟩
      · exact absurd (dirtyAt_iff.mpr ⟨written, held⟩) (none c')
      · exact same

end Sys2Proof.Machine
end

section
/-! How a command of the block completes: its meaning answers a next state, or one where its guard holds (00 R14). -/

namespace Sys2Proof.Machine

section
variable {c : Instr} {s : State} {n : String}

theorem completes_gated {r : Option Dev} (e : exec c s = gated s n r) (h : r.isSome = true) : Completes c s := by
  obtain ⟨d, rfl⟩ := Option.isSome_iff_exists.mp h
  exact ⟨_, e⟩

theorem completes_when {P : Prop} {inst : Decidable P} {r : Option Dev} (e : exec c s = gated s n (if P then r else none))
    (h : P) (answers : r.isSome = true := by rfl) : Completes c s :=
  completes_gated e ((if_pos h).symm ▸ answers)

theorem completes_unless {P : Prop} {inst : Decidable P} {r : Option Dev} (e : exec c s = gated s n (if P then none else r))
    (h : ¬ P) (answers : r.isSome = true := by rfl) : Completes c s :=
  completes_gated e ((if_neg h).symm ▸ answers)

theorem completes_map {α : Type} {o : Option α} {f : α → Dev} (e : exec c s = gated s n (o.map f))
    (h : o.isSome = true) : Completes c s :=
  completes_gated e (Option.isSome_map.trans h)

theorem sci_isSome {q : SciReq} {opcode : Nat} {ordered : Bool} {f : Resp → Dev → Dev}
    (h : Arrives s q opcode ordered) : (sci opcode ordered q f s.dev).isSome = true := by
  obtain ⟨r, d, begins, accepted, -⟩ := h
  exact Option.isSome_iff_exists.mpr ⟨_, (sci_some_iff ..).mpr ⟨begins, r, d, accepted, rfl⟩⟩

theorem isSome_ite {α : Type} {P : Prop} {inst : Decidable P} {a b : Option α} (ha : a.isSome = true)
    (hb : b.isSome = true) : (if P then a else b).isSome = true := by
  split
  · exact ha
  · exact hb

/-- An SCI command that arrives is answered, whatever it answers (12 R376, R379). -/
theorem completes_sci {q : SciReq} {opcode : Nat} {ordered : Bool} {f : Resp → Dev → Dev}
    (e : exec c s = gated s n (sci opcode ordered q f s.dev)) (h : Arrives s q opcode ordered) : Completes c s :=
  completes_gated e (sci_isSome h)

end

/-! ## Core instructions' returns, barriers and tasks (02, 03) -/

section
variable {s : State}

theorem any_unperformed_eq_false {rs : List Req} {p : Req → Bool} (h : ∀ r ∈ rs, p r = true → r.st = .performed) :
    (rs.filter p).any unperformed = false := by
  refine List.any_eq_false.mpr fun r hr => ?_
  obtain ⟨mem, named⟩ := List.mem_filter.mp hr
  simp [unperformed, h r mem named]

theorem completes_loadDataReturn {core : BitVec 11} {id : Nat} {p : PendLoad}
    (pending : getLoad (getCore s.dev core.toNat) id = some p) (load : p.kind ≠ .atom)
    (performed : ∀ r ∈ s.dev.reqs, p.reqs.contains r.id = true → r.st = .performed) :
    Completes (.loadDataReturn core id) s := by
  refine completes_gated rfl ?_
  have ready : ¬ (p.kind = .atom ∨ (s.dev.reqs.filter fun r => p.reqs.contains r.id).any unperformed = true) := by
    rw [any_unperformed_eq_false performed]
    exact not_or.mpr ⟨load, Bool.false_ne_true⟩
  simp only [loadDataReturn, pending, if_neg ready]
  split
  · rfl
  · split
    · split <;> rfl
    · rfl

theorem completes_atomicReturn {core : BitVec 11} {id : Nat} {p : PendLoad}
    (pending : getLoad (getCore s.dev core.toNat) id = some p) (atomic : p.kind = .atom)
    (performed : ∀ r ∈ s.dev.reqs, p.reqs.contains r.id = true → r.st = .performed) :
    Completes (.atomicReturn core id) s := by
  refine completes_gated rfl ?_
  have ready : ¬ (p.kind ≠ .atom ∨ (s.dev.reqs.filter fun r => p.reqs.contains r.id).any unperformed = true) := by
    rw [any_unperformed_eq_false performed]
    exact not_or.mpr ⟨not_not.mpr atomic, Bool.false_ne_true⟩
  simp only [atomicReturn, pending, if_neg ready]
  split
  · rfl
  · split
    · split <;> rfl
    · rfl

theorem completes_storeAcknowledge {core : BitVec 11} {id : Nat} {r : Req} (pending : getReq s.dev id = some r)
    (mine : r.core = core.toNat) (write : isWrite r = true) (kept : r.ret = false) (performed : r.st = .performed) :
    Completes (.storeAcknowledge core id) s := by
  refine completes_gated rfl ?_
  have acknowledged : r.core = core.toNat ∧ isWrite r = true ∧ (!r.ret) = true ∧ (!unperformed r) = true :=
    ⟨mine, write, by rw [kept]; rfl, by rw [unperformed, performed]; rfl⟩
  simp only [storeAcknowledge, pending, if_pos acknowledged]
  split <;> rfl

theorem completes_fenceDrained {x : At} {g : Group} {k : FenceKind} {id : Nat}
    (grp : getGroup (getCore s.dev x.core.toNat) x.slot.toNat = some g) (hold : g.hold = some (.fence k id))
    (up : coreUp s.dev x.core.toNat = true) (ready : fenceReady s.dev x.core.toNat g.uid id k = true) :
    Completes (.fenceDrained x) s := by
  refine completes_gated rfl ?_
  simp only [fenceDrained, grp, hold, up, ready]
  rfl

theorem completes_faultBarrierStall {x : At} {g : Group} {lim : Nat} {p : Nat × Option (BitVec 3)}
    (grp : getGroup (getCore s.dev x.core.toNat) x.slot.toNat = some g) (limit : barLimit s.dev x.core.toNat = some lim)
    (parked : parkedLane g = some p) (up : coreUp s.dev x.core.toNat = true) (stalled : lim ≤ g.stall) :
    Completes (.faultBarrierStall x) s := by
  refine completes_gated rfl ?_
  simp only [faultBarrierStall, grp, limit, parked, up, decide_eq_true stalled]
  rfl

theorem getTask_takeLeft (d : Dev) (n : Nat) (pos : Bool) :
    (getTask (getCore (takeLeft d n pos) n) pos).isSome = (getTask (getCore d n) pos).isSome := by
  rw [takeLeft]
  dsimp only
  rw [getCore_putCore]
  cases pos
  · exact Option.isSome_map
  · exact Option.isSome_map

theorem completes_taskRelease {core : BitVec 11} {pos : Bool} (up : coreUp s.dev core.toNat = true)
    (idle : releaseBusy s.dev core.toNat pos = false) (task : (getTask (getCore s.dev core.toNat) pos).isSome = true) :
    Completes (.taskRelease core pos) s := by
  refine completes_unless rfl (by simp [up, idle]) ?_
  obtain ⟨T, left⟩ := Option.isSome_iff_exists.mp ((getTask_takeLeft s.dev core.toNat pos).trans task)
  rw [left]
  rfl

end

/-! ## Matrix arrays, row unit and fabric (04 to 06) -/

section
variable {s : State} {core : BitVec 11}

theorem exists_find?_eq_some {α : Type} {p : α → Bool} {l : List α} {a : α} (mem : a ∈ l) (hp : p a = true) :
    ∃ b, l.find? p = some b :=
  Option.isSome_iff_exists.mp (List.find?_isSome.mpr ⟨a, mem, hp⟩)

theorem completes_mxMmaComplete (up : coreUp s.dev core.toNat = true) {o : MxOp} (mem : o ∈ (getMx s.dev core.toNat).q)
    (mma : o.kind = .mma) (started : o.started = true) : Completes (.mxMmaComplete core) s := by
  refine completes_gated rfl ?_
  obtain ⟨b, found⟩ := exists_find?_eq_some (p := fun o : MxOp => decide (o.kind = .mma) && o.started) mem
    (by simp [mma, started])
  simp only [mmaComplete, found, up]
  rfl

theorem completes_tileMoverOpComplete (up : coreUp s.dev core.toNat = true)
    (moving : (getCore s.dev core.toNat).spx.mover.isSome = true) : Completes (.tileMoverOpComplete core) s := by
  refine completes_gated rfl ?_
  obtain ⟨id, mover⟩ := Option.isSome_iff_exists.mp moving
  simp only [moverComplete, mover, up]
  rfl

theorem completes_ruOpStart (up : coreUp s.dev core.toNat = true) {o : MxOp}
    (first : (getMx s.dev core.toNat).q.find? (fun o => isRu o.kind && !o.started) = some o)
    (may : mayStart (getCore s.dev core.toNat) o = true) : Completes (.ruOpStart core) s := by
  refine completes_gated rfl ?_
  rw [getMx] at first
  simp only [ruStart, first, up, may]
  rfl

theorem completes_ruOpComplete (up : coreUp s.dev core.toNat = true) {o : MxOp} (mem : o ∈ (getMx s.dev core.toNat).q)
    (ru : isRu o.kind = true) (started : o.started = true) : Completes (.ruOpComplete core) s := by
  refine completes_gated rfl ?_
  obtain ⟨b, found⟩ := exists_find?_eq_some (p := fun o : MxOp => isRu o.kind && o.started) mem (by simp [ru, started])
  simp only [ruComplete, found, up]
  rfl

theorem completes_ffxSlotSwitch (up : coreUp s.dev core.toNat = true) {o : FfxOp}
    (next : nextFfx (getCore s.dev core.toNat).ffx = some o) (other : o.target ≠ (getCore s.dev core.toNat).ffx.active)
    (loaded : ffxLoading (getCore s.dev core.toNat).ffx o = false) : Completes (.ffxSlotSwitch core) s := by
  refine completes_gated rfl ?_
  simp only [ffxSlotSwitch, next, up, loaded, decide_eq_true other]
  rfl

end

/-! ## The scratchpad (07) -/

section
variable {s : State} {core : BitVec 11}

theorem completes_spxWindowAccess {acc : WinAccess}
    (inside : acc.off.toNat + (if acc.write then acc.data.length else acc.len) ≤ 0x80000) :
    Completes (.spxWindowAccess core acc) s := by
  refine completes_unless rfl (Nat.not_lt.mpr inside) ?_
  split <;> rfl

theorem completes_spxCorrectionWriteback {off : BitVec 19} {m : ErrMark}
    (marked : markOf s.dev 0x05 core.toNat off.toNat = some m) (seen : m.seen = true) (single : m.dbl = false) :
    Completes (.spxCorrectionWriteback core off) s := by
  refine completes_gated rfl ?_
  simp only [spxCorrectionWriteback, marked, seen, single]
  rfl

end

/-! ## Accesses at a home, fills and ranges (08, 10) -/

section
variable {s : State} {d : Dev} {id : Nat} {r : Req}

/-- A request that may arrive, at a half that holds no misses, is performed, joins a miss, or is told to try again. -/
theorem performReq_isSome (pending : getReq d id = some r) (may : mayArrive d r = true)
    (open_ : bit (regGet d (aCdcStatus (halfOf (reqHome r)))) 62 = false) : (performReq d id).isSome = true := by
  have same : regGet (spendReq (leaveNet d r) r) (aCdcStatus (halfOf (reqHome r))) =
      regGet d (aCdcStatus (halfOf (reqHome r))) := by
    unfold spendReq
    split <;> rfl
  have home : reqHome { r with spent := true } = reqHome r := rfl
  simp only [performReq, pending, may, home, same, open_, Bool.and_false, Bool.not_true, Bool.false_eq_true, if_false]
  refine isSome_ite rfl (isSome_ite rfl ?_)
  split
  · rfl
  · exact isSome_ite rfl (isSome_ite rfl rfl)

/-- A request takes its bank, which is free, and nothing else of the device (10 R302). -/
theorem takeBank_of_free (free : BankFree d r) : takeBank d r = some d ∨
    ∃ b p, takeBank d r = some (putPort d (reqHome r) b p) := by
  unfold takeBank
  split
  · exact .inl rfl
  · rename_i b bank
    obtain ⟨holder, waits⟩ := free b bank
    exact .inr ⟨b, _, if_neg (by simp [holder, waits])⟩

theorem homeKind_isSome {want : ReqOp → Bool} (served : MayBeServed s id r) (kind : want r.op = true) :
    (homeKind want s.dev id).isSome = true := by
  obtain ⟨pending, may, free, -, -, -, open_, -⟩ := served
  rw [homeKind, pending]
  dsimp only
  rw [if_pos kind]
  rcases takeBank_of_free free with taken | ⟨b, p, taken⟩
  · rw [taken]
    exact performReq_isSome pending may open_
  · rw [taken]
    exact performReq_isSome (d := putPort s.dev (reqHome r) b p) pending may open_

theorem rangeStep_isSome {kind : Nat} {act : Dev → D64 → Nat → Bool × Dev} (turn : RangeTurn s id kind) :
    (rangeStep kind id act s.dev).isSome = true := by
  obtain ⟨n, r, found, hkind, budget, free, alone⟩ := turn
  have misses : ¬ (kind ≠ 1 ∧ (s.dev.miss.any fun m => decide (m.line = r.next)) = true) := by
    rintro ⟨other, waits⟩
    obtain ⟨m, mem, line⟩ := List.any_eq_true.mp waits
    exact (alone.resolve_left other) m mem (of_decide_eq_true line)
  have due : ¬ (r.kind ≠ kind ∨ (kind ≠ 1 ∧ (s.dev.miss.any fun m => decide (m.line = r.next)) = true) ∨
      (!budgetOk s.dev n) = true ∨ rangeHeld s.dev n r kind = true) := by
    rw [budget, free]
    exact not_or.mpr ⟨not_not.mpr hkind, not_or.mpr ⟨misses, by decide⟩⟩
  rw [rangeStep, found]
  dsimp only
  rw [if_neg due]
  split <;> rfl

theorem completes_missSlotFreed {half : BitVec 1} {cls : BitVec 3} (room : mayMiss s.dev half.toNat cls.toNat = true)
    (mem : r ∈ s.dev.reqs) (retried : r.st = .retried) (hcls : r.cls = cls.toNat) (hhalf : reqHalf r = half.toNat) :
    Completes (.missSlotFreed half cls) s :=
  completes_when rfl ⟨room, List.any_eq_true.mpr ⟨r, mem, by simp [retried, hcls, hhalf]⟩⟩

theorem completes_lineFill {m : Miss} (missed : s.dev.miss.find? (fun m => decide (m.id = id)) = some m)
    (open_ : bit (regGet s.dev (aCdcStatus m.half)) 62 = false)
    (room : m.cmd = true ∨ mayCommand s.dev (controllerOf m.pte m.line) m.cls = true) : Completes (.lineFill id) s := by
  refine completes_gated rfl ?_
  have command : (m.cmd || mayCommand s.dev (controllerOf m.pte m.line) m.cls) = true := Bool.or_eq_true_iff.mpr room
  simp only [lineFill, missed, open_, command]
  rfl

end

/-! ## Pages, controllers and the scrubber (09) -/

section
variable {s : State}

theorem completes_shootdownDone {k : Shoot} (running : s.dev.shoot = some k) (ready : shootReady s.dev k = true)
    (quiet : s.dev.boot.quiesce = false) : Completes .shootdownDone s := by
  refine completes_gated rfl ?_
  simp only [shootdownDone, running, ready, quiet]
  rfl

theorem any_eq_false_of_ne {l : List (Nat × D64)} {p : Nat} (h : ∀ x ∈ l, x.1 ≠ p) :
    (l.any fun x => decide (x.1 = p)) = false :=
  List.any_eq_false.mpr fun x hx => by simp [h x hx]

theorem completes_burstCrcFail {ch : BitVec 5} {req : Nat} {fails : BitVec 3} (some_ : 1 ≤ fails.toNat)
    (few : fails.toNat ≤ 4) (on : bit (regGet s.dev (aChan ch.toNat)) 63 = true) :
    Completes (.burstCrcFail ch req fails) s := by
  refine completes_unless rfl (by rw [on]; simp; omega) ?_
  rw [if_pos (by omega)]
  rfl

end

/-! ## Bank ports (10 R302, R303) -/

section
variable {d : Dev} {h : PortReq}

/-- A port whose holder is at work runs on to the last cycle of the access, when nothing else arrives. -/
theorem bankRun_holder (as : List BankReq) (fuel t : Nat) (later : ∀ u, t ≤ u → ∀ a ∈ as, a.delay ≠ u) (p : BankPort)
    (holder : p.holder = some h) (ended : p.ended = false) (waits : p.waits = []) (enough : p.left < fuel) :
    ∃ q u, t ≤ u ∧ bankRun d as fuel t p = some (q, h, u) := by
  induction fuel generalizing t p with
  | zero => omega
  | succ fuel ih =>
    have none : as.filter (fun a => decide (a.delay = t)) = [] :=
      List.filter_eq_nil_iff.mpr fun a ha => by simpa using later t (Nat.le_refl t) a ha
    have quiet : headPrios d [] = [] := rfl
    by_cases last : p.left ≤ 1
    · refine ⟨{ p with holder := Option.none, left := 0, ended := true }, t, Nat.le_refl t, ?_⟩
      simp [bankRun, bankCycle, none, quiet, holder, ended, waits, last]
    · obtain ⟨q, u, after, run⟩ := ih (t + 1) (fun u hu => later u (by omega))
        { p with left := p.left - 1 } holder ended waits (by simp only; omega)
      refine ⟨q, u, by omega, ?_⟩
      rw [← run]
      simp [bankRun, bankCycle, none, quiet, holder, ended, waits, last]

end

end Sys2Proof.Machine
end

section
/-! The meanings that split their state further: a bank port's cycles, fills and the scrubber (09, 10). -/

namespace Sys2Proof.Machine

section
variable {d : Dev}

theorem bankWinner_singleton {x : PortReq} (rot : Nat) (ranked : x.prio.isSome = true) (who : x.who < 6) :
    bankWinner [x] rot = some x := by
  have heads : [x].filter (fun r => r.prio.isSome) = [x] := by simp [ranked]
  have turn : x.who ∈ (List.range 6).map fun i => (rot + i) % 6 :=
    List.mem_map.mpr ⟨(x.who + 6 - rot % 6) % 6, List.mem_range.mpr (Nat.mod_lt _ (by omega)), by omega⟩
  unfold bankWinner
  dsimp only
  rw [heads]
  generalize hw : ((List.range 6).map fun i => (rot + i) % 6).findSome? (fun w =>
    [x].find? fun r => decide (r.who = w) && decide (prioOf r = [x].foldl (fun m r => max m (prioOf r)) 0)) = winner
  cases winner with
  | none => exact absurd (List.findSome?_eq_none_iff.mp hw _ turn) (by simp)
  | some y =>
    obtain ⟨w, -, found⟩ := List.exists_of_findSome?_eq_some hw
    rw [List.mem_singleton.mp (List.mem_of_find?_eq_some found)]

/-- A free port takes the one request that reaches it, and works on it in the same cycle. -/
theorem bankCycle_of_free {p : BankPort} (holder : p.holder = none) (waits : p.waits = []) {q : PortReq} (who : q.who < 6) :
    ∃ x : PortReq, ∃ rot, x.req = q.req ∧ x.cycles = q.cycles ∧ bankCycle d p [q] =
      (if x.cycles ≤ 1 then ({ holder := none, left := 0, ended := true, waits := [], rot := rot }, some x)
       else ({ holder := some x, left := x.cycles - 1, ended := false, waits := [], rot := rot }, none)) := by
  have ranks : headPrios d [q] = [{ q with prio := some (q.prio.getD (basePrio d q.cls)) }] := rfl
  have pop (x : PortReq) : popHead [x] x.who = [] := by simp [popHead]
  have took (n : Nat) : bankWinner [{ q with prio := some n }] p.rot = some { q with prio := some n } :=
    bankWinner_singleton p.rot rfl who
  cases ended : p.ended
  · refine ⟨{ q with prio := some (q.prio.getD (basePrio d q.cls)) }, (q.who + 1) % 6, rfl, rfl, ?_⟩
    simp [bankCycle, holder, waits, ended, ranks, took, pop]
  · refine ⟨{ q with prio := some (min (q.prio.getD (basePrio d q.cls) + 1) 15) }, (q.who + 1) % 6, rfl, rfl, ?_⟩
    simp [bankCycle, holder, waits, ended, ranks, took, pop]

/-- A request that reaches a free port alone is answered when its cycles have run. -/
theorem bankRun_of_free {p : BankPort} (holder : p.holder = none) (waits : p.waits = []) {a : BankReq}
    (who : a.who.toNat < 6) (now : a.delay = 0) (fuel : Nat) (enough : bankCycles a.kind ≤ fuel) :
    ∃ q h t, bankRun d [a] (fuel + 1) 0 p = some (q, h, t) ∧ h.req = a.req := by
  have arrives : [a].filter (fun a => decide (a.delay = 0)) = [a] := by simp [now]
  obtain ⟨x, rot, req, cycles, first⟩ := bankCycle_of_free (d := d) holder waits
    (q := { who := a.who.toNat, cls := a.cls.toNat, cycles := bankCycles a.kind, prio := none, req := a.req }) who
  rw [bankRun, arrives]
  rw [List.map_cons, List.map_nil, first]
  by_cases short : x.cycles ≤ 1
  · rw [if_pos short]
    exact ⟨_, x, 0, rfl, req⟩
  · rw [if_neg short]
    obtain ⟨q, t, -, run⟩ := bankRun_holder (d := d) (h := x) [a] fuel 1 (by simp [now]; omega)
      { holder := some x, left := x.cycles - 1, ended := false, waits := [], rot := rot } rfl rfl rfl
      (by simp only at cycles ⊢; omega)
    exact ⟨q, x, t, run, req⟩

end

section
variable {s : State}

theorem completes_bankAccessPerform {slice : BitVec 11} {bank : BitVec 5} {a : BankReq} (inSlice : bank.toNat ≤ 16)
    (who : a.who.toNat ≤ 5) (now : a.delay = 0) (walk : a.req = 0)
    (holder : (getPort s.dev slice.toNat bank.toNat).holder = none)
    (waits : (getPort s.dev slice.toNat bank.toNat).waits = []) :
    Completes (.bankAccessPerform slice bank [a]) s := by
  have last : [a].foldl (fun m a => max m a.delay) 0 = 0 := by simp [now]
  have may : ¬ (16 < bank.toNat ∨ ([a].any fun a => decide (5 < a.who.toNat) ||
      !arrivalOk s.dev slice.toNat bank.toNat a) = true ∨ ¬ (([a].map (·.req)).filter fun i => i != 0).Nodup) := by
    simp [walk, arrivalOk]
    omega
  refine completes_unless rfl may ?_
  obtain ⟨q, h, t, run, req⟩ := bankRun_of_free (d := s.dev) holder waits (Nat.lt_succ_of_le who) now
    (16 * bankCycles a.kind + 1) (by omega)
  have fuel : [a].foldl (fun m a => max m a.delay) 0 + 16 * (([a].map fun a => bankCycles a.kind) ++
      ((getPort s.dev slice.toNat bank.toNat).waits ++ (getPort s.dev slice.toNat bank.toNat).holder.toList).map
        (·.cycles)).foldl (· + ·) 0 + 2 = 16 * bankCycles a.kind + 1 + 1 := by
    rw [last, holder, waits]
    simp
  rw [fuel, run]
  dsimp only
  rw [last, if_neg (Nat.not_lt_zero t), if_pos (req.trans walk)]
  rfl

theorem completes_tlbMissFill_core {n : BitVec 11} {page : BitVec 19} (up : coreUp s.dev n.toNat = true)
    (missed : ∀ x ∈ (getCore s.dev n.toNat).tlb, x.1 ≠ page.toNat) : Completes (.tlbMissFill (.core n) page) s :=
  completes_when rfl (by rw [up, any_eq_false_of_ne missed]; rfl)

theorem completes_tlbMissFill_base {page : BitVec 19} (missed : ∀ x ∈ s.dev.btc, x.1 ≠ page.toNat) :
    Completes (.tlbMissFill .base page) s :=
  completes_unless rfl (by rw [any_eq_false_of_ne missed]; exact Bool.false_ne_true)

theorem completes_memInitDone (step : bootStep s.dev = 4) (uninit : initDone s.dev = false)
    (trained : ∀ c ∈ channels, bit (regGet s.dev (aChan c)) 63 = true) : Completes .memInitDone s :=
  completes_when rfl ⟨step, by rw [uninit]; rfl, List.all_eq_true.mpr trained⟩

theorem completes_scrubPassStart (ready : bit (regGet s.dev aSecBoot) 63 = true) : Completes .scrubPassStart s :=
  completes_when rfl ready (isSome_ite rfl rfl)

theorem completes_scrubRead_cache (running : s.dev.scrub.running = true) (ready : bit (regGet s.dev aSecBoot) 63 = true)
    (budget : budgetOk s.dev 2122 = true) (left : s.dev.scrub.cacheDone = false) : Completes (.scrubRead .cache) s := by
  refine completes_unless rfl (by simp [running, ready, budget]) ?_
  dsimp only
  rw [left]
  rfl

theorem completes_scrubRead_memory (running : s.dev.scrub.running = true) (ready : bit (regGet s.dev aSecBoot) 63 = true)
    (budget : budgetOk s.dev 2122 = true) (left : s.dev.scrub.memDone = false) : Completes (.scrubRead .memory) s := by
  refine completes_unless rfl (by simp [running, ready, budget]) ?_
  dsimp only
  rw [left]
  rfl

theorem completes_grantWatchdogExpiry {res : BitVec 32} {victim : Option Nat} (exists_ : resourceOk res.toNat = true)
    (unfenced : res.toNat ∉ s.dev.fencedRes) (ok : victimOk s.dev res.toNat victim = true) :
    Completes (.grantWatchdogExpiry res victim) s :=
  completes_unless rfl (by simp [exists_, unfenced, ok])

theorem completes_budgetWindow {m : BitVec 12} (named : m.toNat ≤ 2123)
    (due : (regGet s.dev aUsec).toNat % windowUs (budgetOf s.dev m.toNat) = 0) : Completes (.budgetWindow m) s :=
  completes_unless rfl (by simp [named, due])

/-- The fetch of the lead warp's line, at a half that holds no misses, fills the cache or delivers the line's fault. -/
theorem completes_instructionCacheFill {x : At} {l : Lead} {e : D64} {d : Dev} (lead : leadOf x 0 s.dev = some l)
    (good : pcBad l.pc = false) (below : fetchAddr (getCore s.dev l.core) l.pc < 2 ^ 39)
    (missed : ∀ w ∈ (getCore s.dev l.core).ic, w.1 ≠ fetchAddr (getCore s.dev l.core) l.pc / 128)
    (page : coreTx s.dev l.core (fetchAddr (getCore s.dev l.core) l.pc / 2 ^ 20) = (.entry e, d))
    (budget : budgetOk d l.core = true)
    (served : serveStop d (some l.core) e (fetchAddr (getCore s.dev l.core) l.pc / 128) .read = 0)
    (open_ : bit (regGet d (aCdcStatus (halfOf (homeOf e (fetchAddr (getCore s.dev l.core) l.pc / 128))))) 62 = false) :
    Completes (.instructionCacheFill x) s := by
  refine completes_gated rfl ?_
  have uncached : ((getCore s.dev l.core).ic.any fun w => w.1 == fetchAddr (getCore s.dev l.core) l.pc / 128) = false :=
    List.any_eq_false.mpr fun w hw => by simp [missed w hw]
  simp only [instructionCacheFill, lead, good, uncached, if_neg (Nat.not_le.mpr below), page, budget, served, open_,
    Bool.and_false, Bool.not_true, Bool.or_self, Bool.false_eq_true, if_false, ne_eq, not_true]
  exact isSome_ite rfl rfl

end

end Sys2Proof.Machine
end

section
/-! Links, messages and trees of the fabric, sessions and work items of the host (11 to 13). -/

namespace Sys2Proof.Machine

section
variable {s : State} {port : BitVec 3} {m : Msg}

theorem completes_linkKeyed {peer : BitVec 17} {authOk : Bool} (keying : (getLink s.dev port.toNat).st = lsKeying) :
    Completes (.linkKeyed port peer authOk) s :=
  completes_unless rfl (not_not.mpr keying) (isSome_ite rfl rfl)

theorem completes_laneFail {lane : BitVec 3} (up : (getLink s.dev port.toNat).st = lsUp)
    (sound : bit (getLink s.dev port.toNat).failed lane.toNat = false) : Completes (.laneFail port lane) s := by
  refine completes_unless rfl (by simp [up, sound]) ?_
  dsimp only
  split
  · rfl
  · exact isSome_ite rfl rfl

theorem completes_flitReceive {flit : Flit} (up : (getLink s.dev port.toNat).st = lsUp)
    (open_ : s.dev.boot.quiesce = false) : Completes (.flitReceive port flit) s :=
  completes_unless rfl (by simp [up, open_])
    (isSome_ite rfl (isSome_ite rfl (isSome_ite rfl (isSome_ite rfl (isSome_ite rfl rfl)))))

theorem completes_messageForward (known : hasId s.dev = true) (other : m.dst.toNat ≠ devId s.dev)
    (turn : inTurn s.dev port.toNat m = true) : Completes (.messageForward port m) s := by
  refine completes_unless rfl (by simp [known, other, turn]) (isSome_ite rfl ?_)
  split <;> rfl

theorem completes_putMessage (may : mayPerform 0 s.dev port.toNat m = true) : Completes (.putMessage port m) s :=
  completes_unless rfl (by simp [may])

theorem completes_getMessage (may : mayPerform 1 s.dev port.toNat m = true) : Completes (.getMessage port m) s :=
  completes_unless rfl (by simp [may])

theorem completes_atomicMessage (may : mayPerform 2 s.dev port.toNat m = true) : Completes (.atomicMessage port m) s :=
  completes_unless rfl (by simp [may])

theorem completes_msg (turn : MessageTurn s port m 3) : Completes (.msg port m) s := by
  obtain ⟨known, mine, typ, next⟩ := turn
  have msgType : m.typ = 3 := BitVec.eq_of_toNat_eq typ
  exact completes_unless rfl (not_not.mpr msgType)
    (isSome_ite (isSome_ite rfl rfl) (by rw [if_neg (by simp [forMe, known, mine, next])]; rfl))

theorem reduceIn_isSome {typ : Nat} (turn : MessageTurn s port m typ) : (reduceIn typ port m s.dev).isSome = true := by
  obtain ⟨known, mine, rfl, next⟩ := turn
  rw [reduceIn, if_pos (by simp [forMe, known, mine, next])]
  rfl

theorem takeResponse_isSome {typ : Nat} (turn : MessageTurn s port m typ) :
    (takeResponse typ port m s.dev).isSome = true := by
  obtain ⟨known, mine, rfl, next⟩ := turn
  rw [takeResponse, if_neg (by simp [forMe, known, mine, next])]
  dsimp only
  split <;> rfl

theorem completes_lovageChunkComplete {ctx : BitVec 10} {chunk : BitVec 32}
    (ready : chunkReady (getCtx s.dev ctx.toNat) chunk.toNat = true) (remote : lcLocal (getCtx s.dev ctx.toNat) = false) :
    Completes (.lovageChunkComplete ctx chunk) s := by
  refine completes_unless rfl (by simp [ready]) ?_
  dsimp only
  rw [remote]
  refine isSome_ite rfl (isSome_ite rfl ?_)
  split <;> rfl

theorem completes_heartbeatSend (managed : mgrValid s.dev = true)
    (part : isWorker s.dev = true ∨ isManager s.dev = true) : Completes .heartbeatSend s :=
  completes_unless rfl (by rcases part with h | h <;> simp [managed, h])

theorem completes_memberHeartbeatTimeout {member : BitVec 17} (manager : isManager s.dev = true) {e : Member}
    (mem : e ∈ s.dev.fab.members) (id : e.id = member.toNat) (present : e.lost = false) :
    Completes (.memberHeartbeatTimeout member) s := by
  have listed : (s.dev.fab.members.any fun m => decide (m.id = member.toNat) && !m.lost) = true :=
    List.any_eq_true.mpr ⟨e, mem, by simp [id, present]⟩
  exact completes_unless rfl (by rw [manager, listed]; exact Bool.false_ne_true)

end

section
variable {s : State} {port : BitVec 1}

theorem completes_frameReceive {f : Frame} (up : (getHost s.dev port.toNat).link = true)
    (open_ : s.dev.boot.quiesce = false) : Completes (.frameReceive port f) s := by
  refine completes_unless rfl (by simp [open_]) (isSome_ite rfl ?_)
  rw [if_neg (by simp [up])]
  exact isSome_ite rfl rfl

theorem completes_sessionHello {h : Hello} (open_ : portOpen s.dev port.toNat = true) :
    Completes (.sessionHello port h) s :=
  completes_unless rfl (by simp [open_]) (isSome_ite rfl (isSome_ite rfl (isSome_ite rfl (isSome_ite rfl rfl))))

theorem completes_sessionFinish {h : Finish} (open_ : portOpen s.dev port.toNat = true) {k : Handshake}
    (mem : k ∈ s.dev.hpt.shakes) (id : k.id = h.handshake) : Completes (.sessionFinish port h) s := by
  refine completes_unless rfl (by simp [open_]) ?_
  obtain ⟨b, found⟩ := exists_find?_eq_some (p := fun s : Handshake => decide (s.id = h.handshake)) mem (by simp [id])
  rw [found]
  exact isSome_ite rfl (isSome_ite rfl rfl)

theorem completes_handshakeTimeout {id : Nat} {k : Handshake} (mem : k ∈ s.dev.hpt.shakes) (hid : k.id = id) :
    Completes (.handshakeTimeout id) s :=
  completes_when rfl (List.any_eq_true.mpr ⟨k, mem, by simp [hid]⟩)

theorem completes_frameCounterLimit {session : BitVec 16} {v : Session} (found : getSession s.dev session.toNat = some v)
    (spent : v.txCnt = lastCount ∨ v.high = some lastCount) : Completes (.frameCounterLimit session) s := by
  refine completes_gated rfl ?_
  rw [frameCounterLimit, found]
  dsimp only
  rw [if_pos spent]
  rfl

theorem completes_copyDescriptorComplete {engine : BitVec 6} (running : (getEngine s.dev engine.toNat).halted = false)
    {c : CopyDesc} {l : List CopyDesc} (descs : (getEngine s.dev engine.toNat).descs = c :: l)
    (due : c.status ≠ 0 ∨ c.len ≤ c.off ∨
      (isOwn s.dev c.src = true ∧ isOwn s.dev c.dst = true ∧ budgetOk s.dev (2048 + engine.toNat) = true)) :
    Completes (.copyDescriptorComplete engine) s := by
  refine completes_gated rfl ?_
  simp only [copyDescriptorComplete, descs, running]
  by_cases failed : c.status ≠ 0
  · rw [if_neg Bool.false_ne_true, if_pos failed]
    rfl
  · rw [if_neg Bool.false_ne_true, if_neg failed]
    by_cases moved : c.len ≤ c.off
    · rw [if_pos moved]
      rfl
    · obtain ⟨ownSrc, ownDst, budget⟩ := (due.resolve_left failed).resolve_left moved
      rw [if_neg moved, if_pos (by simp [ownSrc, ownDst]), if_neg (by simp [budget])]
      exact isSome_ite rfl rfl

theorem completes_waitTimeout {id : Nat} {w : PendWait} (mem : w ∈ s.dev.disp.waits) (hid : w.id = id) :
    Completes (.waitTimeout id) s :=
  completes_map rfl (List.find?_isSome.mpr ⟨w, mem, by simp [hid]⟩)

theorem completes_workItemStart {queue : BitVec 12} (ready : isReady s.dev = true)
    (next : nextQueue s.dev = some queue.toNat) {v : Queue} {w : WorkItem}
    (open_ : getQueue s.dev queue.toNat = some v) (may : startable s.dev v = some w) :
    Completes (.workItemStart queue) s := by
  refine completes_unless rfl (by simp [ready, next]) ?_
  simp only [open_, may]
  rfl

theorem completes_workItemComplete {queue : BitVec 12} {item : Nat} (ready : isReady s.dev = true)
    (open_ : (getQueue s.dev queue.toNat).isSome = true) {w : WorkItem} (found : getItem s.dev queue.toNat item = some w)
    (begun : w.begun = true) (ended : ∀ p ∈ w.parts, p.st = .ended) : Completes (.workItemComplete queue item) s := by
  obtain ⟨v, queued⟩ := Option.isSome_iff_exists.mp open_
  refine completes_gated rfl ?_
  have finished : (w.parts.all fun p => decide (p.st = .ended)) = true :=
    List.all_eq_true.mpr fun p hp => decide_eq_true (ended p hp)
  simp only [workItemComplete, queued, found, ready, begun, finished]
  rfl

end

end Sys2Proof.Machine
end

section
/-! Sorrel's samples and rails, errors, bring-up and resets (13 to 16). -/

namespace Sys2Proof.Machine

section
variable {s : State}

theorem completes_ruleFire {rule elem : BitVec 6} (due : (getEl s.dev rule.toNat elem.toNat).due = true)
    (idle : (getEl s.dev rule.toNat elem.toNat).fired = false)
    (awake : ruAction (ruleHi s.dev rule.toNat) = 3 → wakeDue s.dev = false) : Completes (.ruleFire rule elem) s := by
  refine completes_unless rfl ?_
  by_cases down : ruAction (ruleHi s.dev rule.toNat) = 3
  · simp [due, idle, awake down]
  · simp [due, idle, down]

theorem completes_droopEpisodeStart {rail : BitVec 7} {mv : BitVec 16} (named : rail.toNat < 72)
    (on : comparatorOn s.dev rail.toNat = true) (low : mv.toNat + warnMv s.dev < droopBase s.dev rail.toNat)
    (above : droopBase s.dev rail.toNat ≤ mv.toNat + resetMv s.dev)
    (calm : rail.toNat < 64 → (getCluster s.dev rail.toNat).droop = none) : Completes (.droopEpisodeStart rail mv) s := by
  refine completes_unless rfl (by simp [on]; omega) ?_
  split
  · next cluster =>
    dsimp only
    rw [calm cluster]
    rfl
  · rfl

theorem completes_droopEpisodeEnd {cluster : BitVec 6} {minMv : BitVec 16} {us : BitVec 32}
    (running : (getCluster s.dev cluster.toNat).droop.isSome = true)
    (ended : regField s.dev aDroopCfg 16 16 ≤ us.toNat) : Completes (.droopEpisodeEnd cluster minMv us) s := by
  obtain ⟨mv, droop⟩ := Option.isSome_iff_exists.mp running
  refine completes_gated rfl ?_
  simp only [droopEpisodeEnd, droop, if_neg (Nat.not_lt.mpr ended)]
  rfl

theorem completes_resetLevelCrossing {rail : BitVec 7} (named : rail.toNat < 72)
    (watched : rail.toNat = 69 ∨ comparatorOn s.dev rail.toNat = true) : Completes (.resetLevelCrossing rail) s := by
  refine completes_unless rfl (Nat.not_le.mpr named) ?_
  rcases watched with standby | on
  · rw [if_pos standby]
    rfl
  · exact isSome_ite rfl (by rw [if_neg (by simp [on])]; exact isSome_ite rfl rfl)

theorem completes_funnelAccept {k : Nat} {r : ErrRec} {rs : List ErrRec} {l : List (Nat × List ErrRec)}
    (queued : s.dev.funnel.srcq = (k, r :: rs) :: l) : Completes .funnelAccept s := by
  refine completes_gated rfl ?_
  rw [funnelAccept, queued]
  rfl

theorem completes_flashLogCopy (queued : s.dev.funnel.flashq ≠ []) : Completes .flashLogCopy s := by
  obtain ⟨r, rs, records⟩ := List.exists_cons_of_ne_nil queued
  refine completes_gated rfl ?_
  rw [flashLogCopy, records]
  rfl

theorem completes_cvuTake {unit : BitVec 5} {b : CvuBlock} (running : cvStopped s.dev unit.toNat = false)
    (attached : bits (regGet s.dev (cvCtrl unit.toNat)) 56 4 = b.attach.toNat) (low : 1 ≤ b.attach.toNat)
    (high : b.attach.toNat ≤ 5) (index : bits (regGet s.dev (cvCtrl unit.toNat)) 50 6 = b.index.toNat)
    (passes : cvPasses s.dev unit.toNat b = true) : Completes (.cvuTake unit b) s := by
  have given : ¬ b.attach = 0#4 := by
    intro none_
    rw [none_] at low
    exact absurd low (by decide)
  exact completes_unless rfl (by simp [running, attached, given, high, index, passes])

theorem completes_bootVerify {v : BootVerify} (step : bootStep s.dev = 2) (rails : s.dev.sor.rails = true)
    (fine : regField s.dev aSecBoot 40 8 = 0) : Completes (.bootVerify v) s :=
  completes_unless rfl (by simp [step, rails, fine])

theorem completes_training {t : Training} (step : bootStep s.dev = 4)
    (ready : initDone s.dev = true ∨ s.dev.boot.base = true ∨ ∀ c ∈ channels, bit (regGet s.dev (aChan c)) 63 = false) :
    Completes (.training t) s := by
  have may : (s.dev.boot.base || initDone s.dev || !(channels.any fun c => bit (regGet s.dev (aChan c)) 63)) = true := by
    rcases ready with h | h | h
    · simp [h]
    · simp [h]
    · rw [List.any_eq_false.mpr fun c hc => by simp [h c hc]]
      simp
  exact completes_unless rfl (by rw [may]; simp [step]) (isSome_ite rfl rfl)

theorem completes_cacheInit {t : CheckerResults} (step : bootStep s.dev = 5) : Completes (.cacheInit t) s := by
  refine completes_gated rfl ?_
  rw [cacheInit, if_pos step]
  rfl

theorem completes_ready (step : bootStep s.dev = 8) (early : isReady s.dev = false)
    (fine : regField s.dev aSecBoot 40 8 = 0) : Completes .ready s :=
  completes_unless rfl (by simp [step, early, fine]) (isSome_ite rfl rfl)

/-- The reset that stands first is taken when none runs (16 R488). -/
theorem takeReset_isSome {d : Dev} {kind index trig : Nat} (turn : ResetTurn d kind index trig) :
    (takeReset d kind index trig).isSome = true := by
  obtain ⟨idle, first⟩ := turn
  obtain ⟨rest, queue⟩ := List.head?_eq_some_iff.mp first
  rw [takeReset, queue, idle]
  simp

theorem completes_registerReadClear {addr : BitVec 47} (budget : budgetOk s.dev 2123 = true) :
    Completes (.registerReadClear addr) s :=
  completes_unless rfl (by simp [firmwareHeld, budget])

theorem completes_registerWrite {addr : BitVec 47} {v : BitVec 64} (budget : budgetOk s.dev 2123 = true) :
    Completes (.registerWrite addr v) s :=
  completes_unless rfl (by simp [firmwareHeld, budget])

theorem completes_boundaryScan {nonceRead : Bool} (powered : nonceRead = true → s.dev.sor.rails = true) :
    Completes (.boundaryScan nonceRead) s := by
  refine completes_gated rfl ?_
  cases nonceRead with
  | false => rfl
  | true => simp [boundaryScan, powered rfl]

end

end Sys2Proof.Machine
end

section
/-! Every command of the block that is enabled completes (00 R14). -/

namespace Sys2Proof.Machine

/-- Settles O59: each command's condition makes the guards of its meaning hold, and no other guard stands before its
next state. -/
theorem enabledCommandsComplete : Obligations.EnabledCommandsComplete := by
  intro c s h
  cases h with
  | loadDataReturn _ _ h =>
    obtain ⟨_, pending, load, performed⟩ := h
    exact completes_loadDataReturn pending load performed
  | atomicReturn _ _ h =>
    obtain ⟨_, pending, atomic, performed⟩ := h
    exact completes_atomicReturn pending atomic performed
  | storeAcknowledge _ _ h =>
    obtain ⟨_, pending, mine, write, kept, performed⟩ := h
    exact completes_storeAcknowledge pending mine write kept performed
  | fenceDrained _ h =>
    obtain ⟨_, _, _, grp, hold, up, ready⟩ := h
    exact completes_fenceDrained grp hold up ready
  | faultBarrierStall _ h =>
    obtain ⟨_, _, _, grp, limit, parked, up, stalled⟩ := h
    exact completes_faultBarrierStall grp limit parked up stalled
  | taskRelease _ _ h =>
    obtain ⟨up, idle, task⟩ := h
    exact completes_taskRelease up idle task
  | mxMmaComplete _ h =>
    obtain ⟨up, _, mem, mma, started⟩ := h
    exact completes_mxMmaComplete up mem mma started
  | tileMoverOpComplete _ h =>
    obtain ⟨up, moving⟩ := h
    exact completes_tileMoverOpComplete up moving
  | ruOpStart _ h =>
    obtain ⟨up, _, first, may⟩ := h
    exact completes_ruOpStart up first may
  | ruOpComplete _ h =>
    obtain ⟨up, _, mem, ru, started⟩ := h
    exact completes_ruOpComplete up mem ru started
  | ffxSlotSwitch _ h =>
    obtain ⟨up, _, next, other, loaded⟩ := h
    exact completes_ffxSlotSwitch up next other loaded
  | bankWakeComplete _ _ h => exact completes_when rfl (by simp [h])
  | spxWindowAccess _ _ h => exact completes_spxWindowAccess h
  | spxCorrectionWriteback _ _ h =>
    obtain ⟨_, marked, seen, single⟩ := h
    exact completes_spxCorrectionWriteback marked seen single
  | homeRead _ h =>
    obtain ⟨_, served, op⟩ := h
    exact completes_gated rfl (homeKind_isSome served (by rw [op]))
  | homeWrite _ h =>
    obtain ⟨_, _, _, served, op⟩ := h
    exact completes_gated rfl (homeKind_isSome served (by rw [op]))
  | homeAtomic _ h =>
    obtain ⟨_, _, served, op⟩ := h
    exact completes_gated rfl (homeKind_isSome served (by rw [op]))
  | deadMark _ h => exact completes_gated rfl (rangeStep_isSome h)
  | pinLine _ h => exact completes_gated rfl (rangeStep_isSome h)
  | unpinLine _ h => exact completes_gated rfl (rangeStep_isSome h)
  | prefLine _ h => exact completes_gated rfl (rangeStep_isSome h)
  | missSlotFreed _ _ h =>
    obtain ⟨room, _, mem, retried, cls, half⟩ := h
    exact completes_missSlotFreed room mem retried cls half
  | lineFill _ h =>
    obtain ⟨_, missed, open_, room⟩ := h
    exact completes_lineFill missed open_ room
  | writebackAllDone _ h => exact completes_when rfl h
  | shootdownDone h =>
    obtain ⟨_, running, ready, quiet⟩ := h
    exact completes_shootdownDone running ready quiet
  | tlbMissFillCore _ _ h => exact completes_tlbMissFill_core h.1 h.2
  | tlbMissFillBase _ h => exact completes_tlbMissFill_base h
  | memRetrainInterval _ h => exact completes_when rfl h
  | burstCrcFail _ _ _ h =>
    obtain ⟨some_, few, on⟩ := h
    exact completes_burstCrcFail some_ few on
  | memInitDone h =>
    obtain ⟨step, uninit, trained⟩ := h
    exact completes_memInitDone step uninit trained
  | scrubPassStart h => exact completes_scrubPassStart h
  | scrubReadCache h =>
    obtain ⟨running, ready, budget, left⟩ := h
    exact completes_scrubRead_cache running ready budget left
  | scrubReadMemory h =>
    obtain ⟨running, ready, budget, left⟩ := h
    exact completes_scrubRead_memory running ready budget left
  | bankAccessPerform _ _ _ h =>
    obtain ⟨_, rfl, inSlice, who, now, walk, holder, waits⟩ := h
    exact completes_bankAccessPerform inSlice who now walk holder waits
  | grantWatchdogExpiry _ _ h =>
    obtain ⟨exists_, unfenced, ok⟩ := h
    exact completes_grantWatchdogExpiry exists_ unfenced ok
  | budgetWindow _ h => exact completes_budgetWindow h.1 h.2
  | linkTrained _ h => exact completes_when rfl h
  | linkKeyed _ _ _ h => exact completes_linkKeyed h
  | linkRetryTimer _ h => exact completes_when rfl ⟨h.1, .inl h.2⟩
  | laneFail _ _ h => exact completes_laneFail h.1 h.2
  | linkDown _ h => exact completes_unless rfl h
  | retryReq _ _ h => exact completes_when rfl h
  | flitReceive _ _ h => exact completes_flitReceive h.1 h.2
  | messageForward _ _ h =>
    obtain ⟨known, other, turn⟩ := h
    exact completes_messageForward known other turn
  | putMessage _ _ h => exact completes_putMessage h
  | getMessage _ _ h => exact completes_getMessage h
  | atomicMessage _ _ h => exact completes_atomicMessage h
  | msg _ _ h => exact completes_msg h
  | reduce _ _ h => exact completes_gated rfl (reduceIn_isSome h)
  | barrier _ _ h => exact completes_gated rfl (reduceIn_isSome h)
  | completion _ _ h => exact completes_gated rfl (takeResponse_isSome h)
  | getData _ _ h => exact completes_gated rfl (takeResponse_isSome h)
  | atomicData _ _ h => exact completes_gated rfl (takeResponse_isSome h)
  | fabRequestTimeout _ h => exact completes_map rfl h
  | lovageChunkComplete _ _ h => exact completes_lovageChunkComplete h.1 h.2
  | lovageTimeout _ h => exact completes_when rfl h
  | heartbeatSend h => exact completes_heartbeatSend h.1 h.2
  | memberHeartbeatTimeout _ h =>
    obtain ⟨manager, _, mem, id, present⟩ := h
    exact completes_memberHeartbeatTimeout manager mem id present
  | fanoutTimeout _ h => exact completes_map rfl h
  | frameReceive _ _ h =>
    obtain ⟨-, up, open_⟩ := h
    exact completes_frameReceive up open_
  | sessionHello _ _ h => exact completes_sessionHello h
  | sessionFinish _ _ h =>
    obtain ⟨open_, _, mem, id⟩ := h
    exact completes_sessionFinish open_ mem id
  | handshakeTimeout _ h =>
    obtain ⟨_, mem, id⟩ := h
    exact completes_handshakeTimeout mem id
  | sessionIdleTimeout _ h => exact completes_map rfl h
  | frameCounterLimit _ h =>
    obtain ⟨_, found, spent⟩ := h
    exact completes_frameCounterLimit found spent
  | sessionClose _ h => exact completes_sci rfl h
  | query _ _ _ h => exact completes_sci rfl h.1
  | telemetry _ _ h => exact completes_sci rfl h.1
  | telemetryPeriod _ _ h => exact completes_when rfl h
  | setting _ _ _ h => exact completes_sci rfl h.1
  | map _ _ _ _ _ h => exact completes_sci rfl h.1
  | unmap _ _ _ h => exact completes_unless rfl (by simp [h]) (sci_isSome h.1)
  | pin _ _ _ h => exact completes_unless rfl (by simp [h]) (sci_isSome h.1)
  | unpin _ _ _ h => exact completes_unless rfl (by simp [h]) (sci_isSome h.1)
  | retirePage _ _ _ h => exact completes_unless rfl (by simp [h]) (sci_isSome h.1)
  | retireCacheBank _ _ _ h => exact completes_sci rfl h.1
  | put _ _ _ h => exact completes_unless rfl (by simp [h]) (sci_isSome h.1)
  | get _ _ _ h => exact completes_unless rfl (by simp [h]) (sci_isSome h.1)
  | copy _ _ _ _ _ _ h => exact completes_sci rfl h.1
  | copyDescriptorComplete _ h =>
    obtain ⟨running, _, _, descs, due⟩ := h
    exact completes_copyDescriptorComplete running descs due
  | copyChannelRestart _ h => exact completes_when rfl h
  | loadModule _ _ _ _ h =>
    obtain ⟨arrives, budget, _⟩ := h
    exact completes_unless rfl (by simpa using budget) (sci_isSome arrives)
  | unloadModule _ _ h => exact completes_sci rfl h.1
  | loadConfig _ _ _ h => exact completes_unless rfl (by simp [h]) (sci_isSome h.1)
  | wqOpen _ _ _ _ _ h => exact completes_sci rfl h.1
  | wqClose _ _ h => exact completes_sci rfl h.1
  | launch _ _ h => exact completes_sci rfl h.1
  | signal _ _ _ _ h => exact completes_sci rfl h.1
  | wait _ _ _ _ h => exact completes_sci rfl h.1
  | waitTimeout _ h =>
    obtain ⟨_, mem, id⟩ := h
    exact completes_waitTimeout mem id
  | workItemStart _ h =>
    obtain ⟨ready, next, _, _, open_, may⟩ := h
    exact completes_workItemStart ready next open_ may
  | workItemComplete _ _ h =>
    obtain ⟨ready, open_, _, found, begun, ended⟩ := h
    exact completes_workItemComplete ready open_ found begun ended
  | treeOpen _ _ _ h => exact completes_sci rfl h.1
  | treeStart _ _ h => exact completes_sci rfl h.1
  | treeClose _ _ h => exact completes_sci rfl h.1
  | treeAbort _ _ h => exact completes_sci rfl h.1
  | treeGenerationStart _ h => exact completes_when rfl h
  | fenceCore _ _ h => exact completes_sci rfl h.1
  | reset _ _ _ h => exact completes_sci rfl h.1
  | update _ _ _ _ _ h => exact completes_unless rfl (by simp [h]) (sci_isSome h.1)
  | role _ _ _ _ h => exact completes_sci rfl h.1
  | roleDeviceId _ _ h => exact completes_sci rfl h.1
  | roleRouteEntries _ _ _ h => exact completes_sci rfl h.1
  | managementMessage _ h => exact completes_unless rfl (by simp [h])
  | ownerListChange _ _ _ _ h =>
    obtain ⟨running, few⟩ := h
    exact completes_unless rfl (by simp [running, few])
  | p54OutOfRange _ h => exact completes_when rfl (by simp [h])
  | p54Restart h => exact completes_when rfl (by simp [h])
  | leakSenseSample _ h => exact completes_when rfl h
  | bondWearSample h => exact completes_unless rfl (by simp [h])
  | bondWearPersist h => exact completes_when rfl h
  | compensationUpdate h => exact completes_when rfl h
  | railReport _ _ _ h => exact completes_when rfl h
  | senseFault _ h => exact completes_when rfl ⟨h.1, by simp [h.2]⟩
  | noticeLeadExpiry _ _ h =>
    obtain ⟨_, mem, seq⟩ := h
    exact completes_when rfl (List.any_eq_true.mpr ⟨_, mem, decide_eq_true seq⟩)
  | regulatorPhaseShed _ h => exact completes_unless rfl h
  | aonClockFail h => exact completes_when rfl (by simp [h])
  | refClockFail h => exact completes_when rfl (by simp [h])
  | refClockRetryLog h => exact completes_when rfl (by simp [waitsForRef, h])
  | refClockRestored h => exact completes_when rfl (by simp [waitsForRef, h])
  | clusterIdleTimeout _ h => exact completes_when rfl h
  | sleepEntryDone _ h => exact completes_when rfl (.inl h)
  | clusterWakeDone _ h => exact completes_when rfl h
  | sorrelSample _ h => exact completes_unless rfl (by simp [h])
  | ruleFire _ _ h =>
    obtain ⟨due, idle, awake⟩ := h
    exact completes_ruleFire due idle awake
  | ruleRelease _ _ h => exact completes_when rfl (by simp [h])
  | orderlyPowerDownExpiry h => exact completes_when rfl h
  | thermalLimitRelease _ h => exact completes_when rfl (by simp [h])
  | thermalTrip _ h => exact completes_when rfl ⟨h.1, by simp [h.2]⟩
  | rateActRelease _ h => exact completes_when rfl (by simp [h])
  | sensorBroken _ _ h => exact completes_when rfl ⟨h.1 ▸ h.2, h.1⟩
  | envelopeSwitchDone h => exact completes_when rfl h
  | droopEpisodeStart _ _ h =>
    obtain ⟨named, on, low, above, calm⟩ := h
    exact completes_droopEpisodeStart named on low above calm
  | droopEpisodeEnd _ _ _ h => exact completes_droopEpisodeEnd h.1 h.2
  | resetLevelCrossing _ h => exact completes_resetLevelCrossing h.1 h.2
  | funnelAccept h =>
    obtain ⟨_, _, _, _, queued⟩ := h
    exact completes_funnelAccept queued
  | flashLogCopy h => exact completes_flashLogCopy h
  | coreFenceComplete _ h => exact completes_unless rfl (by simp [h])
  | cvuPause _ h => exact completes_when rfl h
  | cvuTake _ _ h =>
    obtain ⟨running, attached, low, high, index, passes⟩ := h
    exact completes_cvuTake running attached low high index passes
  | sorrelStart h => exact completes_unless rfl (by simp [h])
  | bringupRails _ h => exact completes_when rfl (by simp [h])
  | bootVerify _ h =>
    obtain ⟨step, rails, fine⟩ := h
    exact completes_bootVerify step rails fine
  | recoveryImage _ h => exact completes_unless rfl (by simp [h]) (isSome_ite rfl rfl)
  | loadFlashRecords h => exact completes_unless rfl (not_not.mpr h)
  | training _ h => exact completes_training h.1 h.2
  | cacheInit _ h => exact completes_cacheInit h
  | runtimeBroadcast h => exact completes_when rfl h
  | knownAnswerRuns _ h => exact completes_unless rfl (not_not.mpr h)
  | ready h =>
    obtain ⟨step, early, fine⟩ := h
    exact completes_ready step early fine
  | powerOnReset _ h => exact completes_when rfl (List.contains_iff_mem.mpr h)
  | moduleReset _ h => exact completes_when rfl (by simp [h])
  | deviceWarmReset _ h => exact completes_when rfl (by simpa using h)
  | baseReset _ h => exact completes_map rfl (takeReset_isSome h)
  | baseQuiesceComplete h => exact completes_when rfl h
  | baseQuiesceFail h => exact completes_when rfl h
  | halfReset _ _ h => exact completes_map rfl (takeReset_isSome h)
  | clusterReset _ _ _ h => exact completes_map rfl (takeReset_isSome h)
  | coreReset _ _ _ h => exact completes_map rfl (takeReset_isSome h)
  | debugToken _ h => exact completes_unless rfl (by simp [h]) (isSome_ite rfl rfl)
  | registerReadClear _ h => exact completes_registerReadClear h
  | registerWrite _ _ h => exact completes_registerWrite h
  | instructionCacheFill _ h =>
    obtain ⟨_, _, _, lead, good, below, missed, page, budget, served, open_⟩ := h
    exact completes_instructionCacheFill lead good below missed page budget served open_
  | hostPortLinkDown _ h => exact completes_when rfl h
  | hostPortLinkUp _ h => exact completes_when rfl (by simp [h])
  | linkKeyEpoch _ h => exact completes_unless rfl (not_not.mpr h)
  | boundaryScan _ h => exact completes_boundaryScan h
  | coreBarLimitWrite => exact ⟨_, rfl⟩
  | spxBankStateWrite => exact ⟨_, rfl⟩
  | thrashWindowEnd => exact ⟨_, rfl⟩
  | writebackAll => exact ⟨_, rfl⟩
  | cntClear => exact ⟨_, rfl⟩
  | bankRetire => exact ⟨_, rfl⟩
  | pageMapWrite => exact ⟨_, rfl⟩
  | shootdownStart => exact ⟨_, rfl⟩
  | missShareWrite => exact ⟨_, rfl⟩
  | mcqShareWrite => exact ⟨_, rfl⟩
  | routeEntryWrite => exact ⟨_, rfl⟩
  | lovageContextWrite => exact ⟨_, rfl⟩
  | lovageOpen => exact ⟨_, rfl⟩
  | lovageStart => exact ⟨_, rfl⟩
  | lovageClose => exact ⟨_, rfl⟩
  | lovageAbort => exact ⟨_, rfl⟩
  | wakeFrame => exact ⟨_, rfl⟩
  | pfcPause => exact ⟨_, rfl⟩
  | regulatorNotice => exact ⟨_, rfl⟩
  | noticeAck => exact ⟨_, rfl⟩
  | clusterSleepRequest => exact ⟨_, rfl⟩
  | clusterWakeRequest => exact ⟨_, rfl⟩
  | sensorClear => exact ⟨_, rfl⟩
  | sorRuleWrite => exact ⟨_, rfl⟩
  | envelopeSwitch => exact ⟨_, rfl⟩
  | errInjectArm => exact ⟨_, rfl⟩
  | coreFenceStart => exact ⟨_, rfl⟩
  | cvuCtrlWrite => exact ⟨_, rfl⟩
  | cvuRestart => exact ⟨_, rfl⟩
  | cvuConfigWrite => exact ⟨_, rfl⟩
  | standbyPowerLoss => exact ⟨_, rfl⟩

end Sys2Proof.Machine
end
